-- ==== Sys2Proof/Word.lean ====
section
/-! DEFINITION. The plain words and operand records of the RN576 model: flits, TLPs, pair frames and the
other records that a command carries (R9, R133, R134). No operation of the machine stands here.
Log entries with the choices and readings made here: 118, 139, 183. -/

namespace Sys2Proof

/-- A 64-bit register value (R10 "Every register in the device register space is 64 bits wide"). -/
abbrev Word := BitVec 64
/-- The 64 bytes of one line; byte n at bits [8n+7:8n] (R134). -/
abbrev Line := BitVec 512

/-- The four networks (R80, R233). -/
inductive Net where
  | req | rsp | snp | dat
  deriving DecidableEq, Repr, Inhabited

/-- The coherence state codes of Table 4.1 (R115). -/
inductive St where
  | i | s | sd | e | m | r
  deriving DecidableEq, Repr, Inhabited

/-- The 3-bit code of a state (Table 4.1). -/
def St.code : St → Nat
  | .i => 0 | .s => 1 | .sd => 2 | .e => 3 | .m => 4 | .r => 5

/-- The state a 3-bit code names; the reserved codes 0b110 and 0b111 name none. -/
def St.ofCode (n : Nat) : Option St :=
  match n with
  | 0 => some .i | 1 => some .s | 2 => some .sd | 3 => some .e | 4 => some .m | 5 => some .r | _ => none

/-- One flit with the fields of Tables 4.5, 4.6, 4.9 and 4.10. A request that carries data is followed by one DAT
flit of the same SRC and TXN (R136); a command that names such a request names it with its data (`parcels`). -/
structure Flit where
  net : Net := .req
  op : Nat := 0
  src : Nat := 0
  dst : Nat := 0
  txn : Nat := 0
  part : Nat := 15
  epoch : Bool := false
  sys : Bool := false
  addr : Nat := 0
  datadst : Nat := 0
  datatxn : Nat := 0
  rgnok : Bool := false
  rsv : Bool := false
  size : Nat := 0
  fwd : Nat := 0
  ftxn : Nat := 0
  fcomp : Bool := false
  st : St := .i
  rgn : Bool := false
  comp : Bool := false
  poison : Bool := false
  idx : Nat := 0
  data : Line := 0
  fwdd : Bool := false
  wb : Bool := false
  stale : Bool := false
  err : Bool := false
  ndata : Nat := 0
  cause : Nat := 0
  /-- A data flit that a link took onto plane 0, its lanes having disagreed on the plane (R191). -/
  plane0 : Bool := false
  deriving DecidableEq, Repr, Inhabited

/-- How one page of an access was translated: in Bare mode there is no leaf entry; otherwise the leaf entry's
address and the A and D bits the walk found there (R32), and the page-table entries that the walker read from the L2 because no TLB
held the translation (R52). -/
structure Xlat where
  pte : Option Nat := none
  a : Bool := true
  d : Bool := true
  walk : List Nat := []
  deriving DecidableEq, Repr, Inhabited

/-- The register that a reading instruction writes: an integer register, its value sign-extended where `sgn` says so, a
floating-point register, or an element of a vector register at byte `off` of its 32 (R30, R31). -/
inductive Rd where
  | none | x (n : Nat) (sgn : Bool) | f (n : Nat) | v (n off : Nat)
  deriving DecidableEq, Repr, Inhabited

/-- A memory access of a hart: virtual and physical address, size in bytes, and the translation of its page; an
access that crosses a page boundary carries the second page's as well (R33). `vec` marks an access of a vector instruction
(Table 2.2), `rd` the destination. -/
structure MemAcc where
  hart : Nat := 0
  va : Nat := 0
  pa : Nat := 0
  size : Nat := 8
  x : Xlat := {}
  pa2 : Nat := 0
  x2 : Xlat := {}
  vec : Bool := false
  rd : Rd := .none
  deriving DecidableEq, Repr, Inhabited

/-- The AMO operations of the A, Zabha and Zacas extensions that R31 lists (`amocas` has a command of its own). -/
inductive AmoOp where
  | swap | add | xor | and | or | min | max | minu | maxu
  deriving DecidableEq, Repr, Inhabited

/-- The predecessor and successor sets of a FENCE. -/
structure FenceSet where
  pi : Bool := false
  po : Bool := false
  pr : Bool := false
  pw : Bool := false
  si : Bool := false
  so : Bool := false
  sr : Bool := false
  sw : Bool := false
  deriving DecidableEq, Repr, Inhabited

/-- What nature did to the stored codeword of a line that a controller reads (R293). -/
inductive CellErr where
  | none | ce | uc
  deriving DecidableEq, Repr, Inhabited

/-- Bits of one lane's codeword that nature inverts on the bridge (R187, R190). -/
structure LaneErr where
  lane : Nat := 0
  data : Word := 0
  chk : BitVec 8 := 0
  frm0 : Bool := false
  frm1 : Bool := false
  deriving DecidableEq, Repr, Inhabited

/-- The crossing of a LinkCredit (R192, R201): its quarter, and what the wire changed of its codeword. -/
structure CreditVia where
  quarter : Nat := 0
  errs : List LaneErr := []
  deriving DecidableEq, Repr, Inhabited

/-- What a receiver found on one wire group in a training step: no FCLK, or the width of one signal's eye
(signals 0 to 36; 37 and 38 name the spares SP0 and SP1) with the delay code at its centre (R207, R210). -/
structure WgFind where
  wg : Nat := 0
  clkFail : Bool := false
  sig : Nat := 0
  eye : Nat := 63
  code : Nat := 0
  deriving DecidableEq, Repr, Inhabited

/-- The event that an armed injection waits for: a write of the target, a read of the damaged line, or the structure gone
(R526). -/
inductive InjEv where
  | write (line : Nat) | read (line : Nat) | gone
  deriving DecidableEq, Repr, Inhabited

/-- A manager command as it stands in its frame: `src` is the manager (16 the BMC, 0 to 11 a partition), the two
arguments and the tag (R310). -/
structure MgrCmd where
  src : Nat := 16
  a0 : Word := 0
  a1 : Word := 0
  seq : Nat := 0
  deriving DecidableEq, Repr, Inhabited

/-- One TLP at a root port. `xl` is the address the port's IOMMU instance gives for `addr` in a translating mode
(`none` is a translation fault); in Bare mode the address itself is used (R338, R346). -/
structure Tlp where
  rp : Nat := 0
  link : Nat := 0
  addr : Nat := 0
  xl : Option Nat := none
  len : Nat := 0
  data : List (BitVec 8) := []
  tag : Nat := 0
  relaxed : Bool := false
  poison : Bool := false
  deriving DecidableEq, Repr, Inhabited

/-- The AtomicOps of Table 10.3. -/
inductive AtomOp where
  | fetchAdd | swap | cas
  deriving DecidableEq, Repr, Inhabited

/-- The TAP's instructions (R359): `debug` stands for the debug instructions that request no halt and no resumption. -/
inductive TapIr where
  | idcode | bypass | extest | intest | debugHalt | debugResume | debug
  deriving DecidableEq, Repr, Inhabited

/-- A submission queue entry, as the BQE fetches it: opcode, FUSE and PSDT bits, command identifier, namespace, PRP entry 1,
first block and number of blocks (of the range that a Dataset Management command names), dwords 10 to 13, and the pages of its
data or of the queue it names: I/O virtual address, and the address that the owner's IOMMU instance gives (`none` for a fault)
(R368, R370). -/
structure Sqe where
  op : Nat := 0
  flags : Nat := 0
  cid : Nat := 0
  nsid : Nat := 0
  prp1 : Nat := 0
  lba : Nat := 0
  nlb : Nat := 1
  cdw10 : Nat := 0
  cdw11 : Nat := 0
  cdw12 : Nat := 0
  cdw13 : Nat := 0
  pages : List (Nat × Option Nat) := []
  deriving DecidableEq, Repr, Inhabited

/-- A backing drive as it identifies itself (R373). -/
structure DriveId where
  responds : Bool := true
  bsize : Nat := 4096
  awupf : Nat := 0
  volatileCache : Bool := false
  disables : Bool := true
  qpairs : Nat := 8
  blocks : Nat := 0
  deriving DecidableEq, Repr, Inhabited

/-- A pair frame (R410, Table 12.1): the header fields, bytes 8 to 15 and the payload. -/
structure PairFrame where
  ty : Nat := 0
  part : Nat := 0
  stream : Nat := 0
  epoch : Nat := 0
  arg : Word := 0
  data : List (BitVec 8) := []
  deriving DecidableEq, Repr, Inhabited

/-- What a pair HELLO carries (R411, R412): the pair ID, and for each protected partition its descriptor. -/
structure PairDesc where
  part : Nat := 0
  dies : Nat := 0
  sets : List (Nat × Nat) := []
  vfs : List Nat := []
  nss : List (Nat × Nat × Nat) := []
  deriving DecidableEq, Repr, Inhabited

/-- The hardware that a cold start finds: DDR capacity of each group in bytes, groups whose channels differ (R265), units that
fail their step of the start (dies by number, 16 + m the DDR of group m; R458), the drives below the root ports by port * 65536
+ routing ID, and, before the first start, the contents of the flash devices by byte offset (R443); `none` is an absent CS1. -/
structure Hw where
  ddrBytes : List Nat := [0, 0, 0, 0]
  ddrDiffer : List Bool := [false, false, false, false]
  failedUnits : List Nat := []
  drives : List (Nat × DriveId) := []
  cs0 : List (Nat × List (BitVec 8)) := []
  cs1 : Option (List (Nat × List (BitVec 8))) := none
  deriving DecidableEq, Repr, Inhabited

end Sys2Proof
end

