-- ==== Sys2Proof/Syntax.lean ====
section
/-! DEFINITION. The commands of the RN576 block: one constructor for each row of spec/opcode_table.json, with the
row's operands. A command that delivers a message carries the flit (`Flit`); a manager command carries its frame's
arguments (`MgrCmd`, R310).
Log entries with the choices and readings made here: 163. -/

namespace Sys2Proof

/-- A command of the block (one row of the table of operations and events). -/
inductive Instr where
  /-- LOAD (R35). -/
  | load (m : MemAcc) (nt : Bool)
  /-- STORE (R44). -/
  | store (m : MemAcc) (v : Line)
  /-- AMO (R59). -/
  | amo (m : MemAcc) (op : AmoOp) (v : Word) (aq rl : Bool)
  /-- LR (R61). -/
  | lr (m : MemAcc) (aq rl : Bool)
  /-- SC (R61). -/
  | sc (m : MemAcc) (v : Word) (aq rl : Bool)
  /-- AMOCAS (R59). -/
  | amocas (m : MemAcc) (cmp new : BitVec 128) (aq rl : Bool)
  /-- FENCE (R65). -/
  | fence (h : Nat) (fs : FenceSet) (tso : Bool)
  /-- FENCE_I (R49). -/
  | fenceI (h : Nat)
  /-- SFENCE_W_INVAL (R65). -/
  | sfenceWInval (h : Nat)
  /-- SFENCE_INVAL_IR (R65). -/
  | sfenceInvalIr (h : Nat)
  /-- WFI (R73). -/
  | wfi (h : Nat)
  /-- CBO_CLEAN (R66). -/
  | cboClean (m : MemAcc)
  /-- CBO_FLUSH (R66). -/
  | cboFlush (m : MemAcc)
  /-- CBO_INVAL (R66). -/
  | cboInval (m : MemAcc)
  /-- CBO_ZERO (R66). -/
  | cboZero (m : MemAcc)
  /-- PREFETCH_I (R67). -/
  | prefetchI (m : MemAcc)
  /-- PREFETCH_R (R67). -/
  | prefetchR (m : MemAcc)
  /-- PREFETCH_W (R51). -/
  | prefetchW (m : MemAcc)
  /-- WRS_NTO (R64). -/
  | wrsNto (h : Nat)
  /-- WRS_STO (R64). -/
  | wrsSto (h : Nat)
  /-- WRS_STO_TIMEOUT (R64). -/
  | wrsStoTimeout (h : Nat)
  /-- STORE_BUFFER_DRAIN (R45). -/
  | storeBufferDrain (h : Nat) (timer : Bool)
  /-- L1_FILL (R41). -/
  | l1Fill (h line : Nat) (ifetch : Bool)
  /-- LR_DEFER_EXPIRE (R62). -/
  | lrDeferExpire (h : Nat)
  /-- VENDOR_CSR_ACCESS (R70). -/
  | vendorCsrAccess (h csr : Nat) (wr : Bool) (v : Word)
  /-- RNBUOYCTL_WRITE (R76). -/
  | rnbuoyctlWrite (h : Nat) (v : Word)
  /-- BUOY_PERIOD (R537). -/
  | buoyPeriod (h : Nat)
  /-- MHPMEVENT_WRITE (R532). -/
  | mhpmeventWrite (h n : Nat) (v : Word)
  /-- HPM_COUNTER_WRITE (R535). -/
  | hpmCounterWrite (h n : Nat) (v : Word)
  /-- HPM_COUNTER_OVERFLOW (R536). -/
  | hpmCounterOverflow (h n : Nat)
  /-- INTERRUPT_UPDATE (R349). -/
  | interruptUpdate (f : Flit)
  /-- SLICE_REQUEST (R104). -/
  | sliceRequest (f : Flit)
  /-- SET_WAIT_RELEASE (R100). -/
  | setWaitRelease (d sl : Nat)
  /-- L3_LOCK_CTL_WRITE (R107). -/
  | l3LockCtlWrite (d n : Nat) (v : Word) (part : Nat)
  /-- L3_LOCK_SWEEP_DONE (R108). -/
  | l3LockSweepDone (d : Nat)
  /-- RANGE_INVALIDATE (R112). -/
  | rangeInvalidate (d lo hi : Nat)
  /-- RANGE_INVAL_COMPLETE (R113). -/
  | rangeInvalComplete (d : Nat)
  /-- RANGE_TIMEOUT (R113). -/
  | rangeTimeout (d : Nat)
  /-- RANGE_NORESP (R113). -/
  | rangeNoresp (d : Nat)
  /-- RDSHARED (R149). -/
  | rdshared (f : Flit)
  /-- RDOWN (R149). -/
  | rdown (f : Flit)
  /-- UPGRADE (R162). -/
  | upgrade (f : Flit)
  /-- CLAIMOWN (R142). -/
  | claimown (f : Flit)
  /-- RDONCE (R149). -/
  | rdonce (f : Flit)
  /-- RDRGN (R127). -/
  | rdrgn (f : Flit)
  /-- WRFULL (R149). -/
  | wrfull (f : Flit)
  /-- WRBACKDIRTY (R164). -/
  | wrbackdirty (f : Flit)
  /-- EVICTCLEAN (R164). -/
  | evictclean (f : Flit)
  /-- RGNREL (R130). -/
  | rgnrel (f : Flit)
  /-- CBOCLEAN (R150). -/
  | cboclean (f : Flit)
  /-- CBOFLUSH (R150). -/
  | cboflush (f : Flit)
  /-- IORD (R152). -/
  | iord (f : Flit)
  /-- IOWR (R152). -/
  | iowr (f : Flit)
  /-- CFGRD (R152). -/
  | cfgrd (f : Flit)
  /-- CFGWR (R152). -/
  | cfgwr (f : Flit)
  /-- INTMSG (R348). -/
  | intmsg (f : Flit)
  /-- MAIL (R329). -/
  | mail (f : Flit)
  /-- RESERVED_OPCODE (R138). -/
  | reservedOpcode (f : Flit)
  /-- RSVD_ID (R20). -/
  | rsvdId (f : Flit) (stop : Nat)
  /-- REGION_SPLIT_DONE (R128). -/
  | regionSplitDone (ha g : Nat)
  /-- SNPSHARED (R143). -/
  | snpshared (f : Flit)
  /-- SNPOWN (R143). -/
  | snpown (f : Flit)
  /-- SNPINV (R143). -/
  | snpinv (f : Flit)
  /-- SNPCUR (R143). -/
  | snpcur (f : Flit)
  /-- SNPCLEAN (R143). -/
  | snpclean (f : Flit)
  /-- BACKINV (R143). -/
  | backinv (f : Flit)
  /-- SNPRGNSPLIT (R128). -/
  | snprgnsplit (f : Flit)
  /-- SNPRGNINV (R131). -/
  | snprgninv (f : Flit)
  /-- COMP (R140). -/
  | comp (f : Flit)
  /-- COMPACK (R161). -/
  | compack (f : Flit)
  /-- SNPRSP (R149). -/
  | snprsp (f : Flit)
  /-- EVICTACK (R166). -/
  | evictack (f : Flit)
  /-- RETRY (R173). -/
  | retry (f : Flit)
  /-- CREDITGRANT (R173). -/
  | creditgrant (f : Flit)
  /-- FAULT (R584). -/
  | fault (f : Flit)
  /-- IOCOMP (R37). -/
  | iocomp (f : Flit)
  /-- DATA (R140). -/
  | data (f : Flit)
  /-- DATACOPY (R149). -/
  | datacopy (f : Flit)
  /-- SNPDATA (R131). -/
  | snpdata (f : Flit)
  /-- RGNMAP (R128). -/
  | rgnmap (f : Flit)
  /-- IODATA (R38). -/
  | iodata (f : Flit)
  /-- SNP_TIMEOUT (R178). -/
  | snpTimeout (ha txn agent : Nat)
  /-- RSVTMO (R174). -/
  | rsvtmo (ha src txn : Nat)
  /-- TEARDOWN (R182). -/
  | teardown (ha p : Nat)
  /-- TEARDOWN_COMPLETE (R182). -/
  | teardownComplete (ha p : Nat)
  /-- TEARDOWN_TIMEOUT (R185). -/
  | teardownTimeout (ha p : Nat)
  /-- RESUME (R325). -/
  | resume (ha p : Nat)
  /-- MEMORY_READ (R273). -/
  | memoryRead (pa : Nat) (err : CellErr)
  /-- MEMORY_WRITE (R273). -/
  | memoryWrite (pa : Nat)
  /-- LINK_FLIT_SEND (R200). -/
  | linkFlitSend (ap dir : Nat) (f : Flit)
  /-- LINK_FLIT_RECEIVE (R192). -/
  | linkFlitReceive (ap dir q : Nat) (net : Net) (errs : List LaneErr)
  /-- LINKCREDIT (R201). -/
  | linkcredit (ap dir : Nat) (q : CreditVia) (nreq nsnp nrsp ndat : Nat)
  /-- RATE_CALL_SEND (R205). -/
  | rateCallSend (d : Nat)
  /-- RATE_CALL (R479). -/
  | rateCall (d : Nat) (body : BitVec 48)
  /-- RATE_CALL_MISS (R205). -/
  | rateCallMiss (d : Nat)
  /-- DEMAND (R478). -/
  | demand (d : Nat) (body : BitVec 48)
  /-- DEMAND_MISS (R478). -/
  | demandMiss (d : Nat)
  /-- HELLO (R207). -/
  | hello (d : Nat) (body : BitVec 48)
  /-- HELLO_ACK (R207). -/
  | helloAck (d pos : Nat) (accept : Bool)
  /-- TRAIN_STEP (R207). -/
  | trainStep (d : Nat) (dieEnd : Bool) (step : Nat) (pass : Bool) (finds : List WgFind)
  /-- TRAIN_FAIL (R207). -/
  | trainFail (d : Nat)
  /-- WIDTH_BEACON_SEND (R216). -/
  | widthBeaconSend (d : Nat)
  /-- WIDTH_BEACON (R215). -/
  | widthBeacon (d : Nat) (body : BitVec 48)
  /-- WIDTH_REPORT (R215). -/
  | widthReport (d : Nat) (body : BitVec 48)
  /-- REPAIR (R211). -/
  | repair (d : Nat) (dieEnd : Bool) (body : BitVec 48)
  /-- REPAIR_ACK (R211). -/
  | repairAck (d : Nat) (dieEnd : Bool) (body : BitVec 48)
  /-- REPAIR_SWITCH (R211). -/
  | repairSwitch (d : Nat) (dieEnd : Bool) (wg : Nat)
  /-- REPAIR_WINDOW_END (R211). -/
  | repairWindowEnd (d : Nat) (dieEnd : Bool)
  /-- AUTO_RECAL (R213). -/
  | autoRecal (d : Nat) (dieEnd : Bool) (wg : Nat)
  /-- PWR_REQ (R217). -/
  | pwrReq (d target : Nat)
  /-- PWR_ACK (R217). -/
  | pwrAck (d : Nat) (grant : Bool)
  /-- WAKE_PATTERN (R218). -/
  | wakePattern (d : Nat) (fromDie : Bool) (pat : BitVec 8)
  /-- SIDEBAND_BAD_FRAME (R203). -/
  | sidebandBadFrame (d : Nat) (dieEnd : Bool) (frame : BitVec 64)
  /-- SIDEBAND_RESEND (R204). -/
  | sidebandResend (d : Nat) (dieEnd : Bool) (ty : Nat)
  /-- SB_RST_N_RELEASE (R207). -/
  | sbRstNRelease (d : Nat)
  /-- SB_RST_N_ASSERT (R322). -/
  | sbRstNAssert (d : Nat)
  /-- FCLK_LOSS (R220). -/
  | fclkLoss (d q groups : Nat)
  /-- SB_UP_CLK_LOSS (R220). -/
  | sbUpClkLoss (d : Nat)
  /-- SB_FATAL_N (R220). -/
  | sbFatalN (d : Nat)
  /-- DIE_END_CLOCK_LOSS (R220). -/
  | dieEndClockLoss (d : Nat)
  /-- RETRAIN (R208). -/
  | retrain (d : Nat) (part : Nat)
  /-- RETRAIN_FULL (R208). -/
  | retrainFull (d : Nat) (clr : Bool) (part : Nat)
  /-- HOLD (R225). -/
  | hold (d : Nat) (part : Nat)
  /-- RECAL (R213). -/
  | recal (d : Nat) (part : Nat)
  /-- LNK_CUT_WRITE (R197). -/
  | lnkCutWrite (d : Nat) (out : Bool) (v : Word) (part : Nat)
  /-- LNK_ERR_INJ_WRITE (R223). -/
  | lnkErrInjWrite (d : Nat) (dieEnd : Bool) (v : Word) (part : Nat)
  /-- NI_INJECT (R240). -/
  | niInject (stop : Nat) (f : Flit)
  /-- DISABLED_STOP_REFUSE (R248). -/
  | disabledStopRefuse (stop : Nat) (f : Flit)
  /-- SWITCH (R244). -/
  | switch (part : Nat)
  /-- OLDCNT_DRAINED (R247). -/
  | oldcntDrained
  /-- IOF_STOP_CTL_WRITE (R246). -/
  | iofStopCtlWrite (stop : Nat) (v : Word) (part : Nat)
  /-- ROUTE_ENTRY_WRITE (R242). -/
  | routeEntryWrite (stop bank e : Nat) (v : Word) (part : Nat)
  /-- AP_INBOUND_FLIT (R155). -/
  | apInboundFlit (ap : Nat) (f : Flit)
  /-- SOFT_FENCE (R250). -/
  | softFence (port part : Nat)
  /-- FENCED (R250). -/
  | fenced (port : Nat)
  /-- FENCE_TIMEOUT (R251). -/
  | fenceTimeout (port : Nat)
  /-- HARD_FENCE (R253). -/
  | hardFence (port part : Nat)
  /-- FENCE_LIFT (R252). -/
  | fenceLift (port part : Nat)
  /-- COXCMD_FENCE (R250). -/
  | coxcmdFence (d : Nat)
  /-- UNFENCE (R252). -/
  | unfence (d : Nat)
  /-- PARK_FLIT (R254). -/
  | parkFlit (ap : Nat) (f : Flit)
  /-- PARKFULL_FALL (R255). -/
  | parkfullFall (ap : Nat)
  /-- PARK_RELEASE (R256). -/
  | parkRelease (ap : Nat)
  /-- PROBE_SELECT (R260). -/
  | probeSelect (stop port netc : Nat) (f : Flit)
  /-- PRB_CNT_WRITE (R544). -/
  | prbCntWrite (k : Nat) (v : Word) (part : Nat)
  /-- MEM_SETCMD (R269). -/
  | memSetcmd (v : Word) (part : Nat)
  /-- MEM_SLABENT_WRITE (R269). -/
  | memSlabentWrite (v : Word) (part : Nat)
  /-- SLAB_UPDATE_DONE (R274). -/
  | slabUpdateDone
  /-- SE_ACCESS (R278). -/
  | seAccess (pa : Nat) (tblUc : Bool)
  /-- CNT_DECAY (R281). -/
  | cntDecay (g : Nat)
  /-- PROMOTION (R283). -/
  | promotion (g : Nat)
  /-- MOVE_CHUNK_COPY (R285). -/
  | moveChunkCopy (g gran : Nat)
  /-- MOVE_COMPLETE (R286). -/
  | moveComplete (g gran : Nat)
  /-- PIN (R288). -/
  | pin (p pa : Nat)
  /-- UNPIN (R288). -/
  | unpin (p pa : Nat)
  /-- PROMOTE (R288). -/
  | promote (p pa : Nat)
  /-- RESTORE (R288). -/
  | restore (p pa : Nat)
  /-- REMAP_REBUILT (R289). -/
  | remapRebuilt (g : Nat)
  /-- SE_POLICY_WRITE (R291). -/
  | sePolicyWrite (g off : Nat) (v : Word) (part : Nat)
  /-- SCRUB_READ (R295). -/
  | scrubRead (g tier ma : Nat) (err : CellErr)
  /-- PAGE_RETIREMENT (R298). -/
  | pageRetirement (g tier ma : Nat)
  /-- RETIREMENT_TIMEOUT (R299). -/
  | retirementTimeout
  /-- CHANNEL_FAIL (R300). -/
  | channelFail (ddr : Bool) (n : Nat)
  /-- SLAB_STEP_TIMEOUT (R302). -/
  | slabStepTimeout
  /-- PART_CREATE (R311). -/
  | partCreate (c : MgrCmd)
  /-- PART_START (R316). -/
  | partStart (c : MgrCmd)
  /-- PART_STOP (R325). -/
  | partStop (c : MgrCmd)
  /-- PART_RESET (R325). -/
  | partReset (c : MgrCmd)
  /-- PART_DELETE (R311). -/
  | partDelete (c : MgrCmd)
  /-- DIE_EVACUATE (R320). -/
  | dieEvacuate (c : MgrCmd)
  /-- DIE_ADD (R323). -/
  | dieAdd (c : MgrCmd)
  /-- SLAB_ASSIGN (R301). -/
  | slabAssign (c : MgrCmd)
  /-- SLAB_RELEASE (R301). -/
  | slabRelease (c : MgrCmd)
  /-- RP_ASSIGN (R311). -/
  | rpAssign (c : MgrCmd)
  /-- RP_RELEASE (R311). -/
  | rpRelease (c : MgrCmd)
  /-- PART_QUERY (R311). -/
  | partQuery (c : MgrCmd)
  /-- MGR_CMD_RESERVED (R311). -/
  | mgrCmdReserved (c : MgrCmd) (op : Nat)
  /-- LIFECYCLE_STEP_TIMEOUT (R323). -/
  | lifecycleStepTimeout
  /-- SELFRST (R325). -/
  | selfrst (p : Nat)
  /-- PARK (R317). -/
  | park (p h : Nat)
  /-- START (R316). -/
  | start (p h : Nat)
  /-- PARK_TIMEOUT (R317). -/
  | parkTimeout (h : Nat)
  /-- SEND (R328). -/
  | send (p dst : Nat)
  /-- MBX_RXPOP (R331). -/
  | mbxRxpop (p : Nat)
  /-- MBX_RXIRQ_WRITE (R331). -/
  | mbxRxirqWrite (p : Nat) (v : Word)
  /-- DMA_WRITE (R338). -/
  | dmaWrite (t : Tlp)
  /-- DMA_READ (R338). -/
  | dmaRead (t : Tlp)
  /-- ATOMICOP (R339). -/
  | atomicop (t : Tlp) (op : AtomOp) (opnd cmp : BitVec 128)
  /-- MSI (R340). -/
  | msi (t : Tlp)
  /-- ZERO_LENGTH_READ (R340). -/
  | zeroLengthRead (t : Tlp)
  /-- COMPLETION_TLP (R336). -/
  | completionTlp (rp tag : Nat) (ok : Bool) (v : Word)
  /-- CPL_TIMEOUT (R336). -/
  | cplTimeout (rp tag : Nat)
  /-- CXL_RDCURR (R343). -/
  | cxlRdcurr (rp pa : Nat)
  /-- CXL_RDSHARED (R343). -/
  | cxlRdshared (rp pa : Nat)
  /-- CXL_RDOWN (R343). -/
  | cxlRdown (rp pa : Nat)
  /-- CXL_RDOWNNODATA (R343). -/
  | cxlRdownnodata (rp pa : Nat)
  /-- CXL_ITOMWR (R343). -/
  | cxlItomwr (rp pa : Nat) (v : Line) (poison : Bool)
  /-- CXL_DIRTYEVICT (R343). -/
  | cxlDirtyevict (rp pa : Nat) (v : Line) (poison : Bool)
  /-- CXL_CLEANEVICT (R343). -/
  | cxlCleanevict (rp pa : Nat)
  /-- CXL_SNOOP_TIMEOUT (R345). -/
  | cxlSnoopTimeout (rp pa : Nat)
  /-- CXL_MEM_TIMEOUT (R342). -/
  | cxlMemTimeout (rp pa : Nat)
  /-- LINK_DOWN_DPC (R353). -/
  | linkDownDpc (rp link : Nat)
  /-- SLOT_CONTROL_WRITE (R351). -/
  | slotControlWrite (rp link : Nat) (v : Word)
  /-- SLOT_PIN_CHANGE (R351). -/
  | slotPinChange (rp link pin : Nat) (level : Bool)
  /-- IMSIC_CLAIM (R349). -/
  | imsicClaim (h file sel : Nat) (wr : Bool) (v : Word)
  /-- APLIC_SOURCE (R350). -/
  | aplicSource (p src : Nat) (level : Bool)
  /-- GPIO_INPUT (R562). -/
  | gpioInput (pin : Nat) (level : Bool)
  /-- MGT_BAR0_ACCESS (R356). -/
  | mgtBar0Access (wr : Bool) (off : Nat) (v : Word)
  /-- TAP_INSTRUCTION (R359). -/
  | tapInstruction (ir : TapIr) (hart : Nat)
  /-- SQ_TAIL_DOORBELL (R366). -/
  | sqTailDoorbell (part vf y v : Nat)
  /-- CQ_HEAD_DOORBELL (R366). -/
  | cqHeadDoorbell (part vf y v : Nat)
  /-- CC_EN_SET (R367). -/
  | ccEnSet (part vf : Nat) (cc : BitVec 32) (acq : Option Nat)
  /-- CONTROLLER_RESET (R391). -/
  | controllerReset (part vf : Nat)
  /-- ADMIT (R385). -/
  | bqeAdmission (vf q : Nat) (e : Sqe) (fetchFault : Bool)
  /-- DELETE_IO_SQ (R391). -/
  | deleteIoSq (vf : Nat)
  /-- CREATE_IO_SQ (R371). -/
  | createIoSq (vf : Nat)
  /-- GET_LOG_PAGE (R370). -/
  | getLogPage (vf : Nat)
  /-- DELETE_IO_CQ (R370). -/
  | deleteIoCq (vf : Nat)
  /-- CREATE_IO_CQ (R371). -/
  | createIoCq (vf : Nat)
  /-- IDENTIFY (R370). -/
  | identify (vf : Nat)
  /-- ABORT (R391). -/
  | abort (vf : Nat)
  /-- SET_FEATURES (R370). -/
  | setFeatures (vf : Nat)
  /-- GET_FEATURES (R370). -/
  | getFeatures (vf : Nat)
  /-- ASYNCHRONOUS_EVENT_REQUEST (R384). -/
  | asynchronousEventRequest (vf : Nat)
  /-- NVME_INVALID_OPCODE (R370). -/
  | nvmeInvalidOpcode (vf n : Nat)
  /-- FLUSH (R390). -/
  | flush (n : Nat)
  /-- WRITE (R379). -/
  | write (n : Nat)
  /-- READ (R377). -/
  | read (n : Nat)
  /-- COMPARE (R377). -/
  | compare (n : Nat)
  /-- WRITE_ZEROES (R379). -/
  | writeZeroes (n : Nat)
  /-- DATASET_MANAGEMENT (R379). -/
  | datasetManagement (n : Nat)
  /-- RANGE_LOCK_GRANT (R389). -/
  | rangeLockGrant (n : Nat)
  /-- BACKING_COMPLETION (R379). -/
  | backingCompletion (n : Nat) (ok : Bool)
  /-- BACKING_TIMEOUT (R379). -/
  | backingTimeout (n : Nat)
  /-- MAP_COMMIT_COMPLETE (R379). -/
  | mapCommitComplete (nsid span : Nat) (ok : Bool)
  /-- FLR (R392). -/
  | flr (vf : Nat)
  /-- PS1_ENTRY (R394). -/
  | ps1Entry (vf : Nat)
  /-- PROXY_ACCESS (R396). -/
  | proxyAccess (rp rid page off : Nat) (wr : Bool) (data : List (BitVec 8))
  /-- DRIVE_LOST (R406). -/
  | driveLost (drv : Nat)
  /-- POOL_REBUILD_DONE (R383). -/
  | poolRebuildDone (p : Nat) (maps : List (Nat × Nat × List (BitVec 8)))
  /-- BH_DRIVE_ATTACH (R373). -/
  | bhDriveAttach (c : MgrCmd) (id : DriveId)
  /-- BH_DRIVE_DETACH (R397). -/
  | bhDriveDetach (c : MgrCmd)
  /-- BH_POOL_ADD (R397). -/
  | bhPoolAdd (c : MgrCmd)
  /-- BH_POOL_REMOVE (R397). -/
  | bhPoolRemove (c : MgrCmd)
  /-- BH_NS_CREATE (R375). -/
  | bhNsCreate (c : MgrCmd)
  /-- BH_NS_DELETE (R397). -/
  | bhNsDelete (c : MgrCmd)
  /-- BH_NS_ATTACH (R397). -/
  | bhNsAttach (c : MgrCmd)
  /-- BH_NS_DETACH (R397). -/
  | bhNsDetach (c : MgrCmd)
  /-- BH_VF_CREATE (R399). -/
  | bhVfCreate (c : MgrCmd)
  /-- BH_VF_DELETE (R397). -/
  | bhVfDelete (c : MgrCmd)
  /-- BH_VF_SHARE (R387). -/
  | bhVfShare (c : MgrCmd)
  /-- BH_VF_FREEZE (R401). -/
  | bhVfFreeze (c : MgrCmd)
  /-- VF_FREEZE_TIMEOUT (R401). -/
  | vfFreezeTimeout (vf : Nat)
  /-- BH_VF_SAVE (R402). -/
  | bhVfSave (c : MgrCmd)
  /-- BH_VF_RESTORE (R403). -/
  | bhVfRestore (c : MgrCmd)
  /-- BH_VF_THAW (R403). -/
  | bhVfThaw (c : MgrCmd)
  /-- BH_DIRTY_LOG (R404). -/
  | bhDirtyLog (c : MgrCmd)
  /-- BH_FW_ACTIVATE (R464). -/
  | bhFwActivate (c : MgrCmd)
  /-- BH_ACTIVATION_ABANDON (R393). -/
  | bhActivationAbandon
  /-- PAIR_HELLO_SEND (R411). -/
  | pairHelloSend
  /-- PAIR_HELLO (R411). -/
  | pairHello (pairId : Word) (descs : List PairDesc)
  /-- MIRROR (R416). -/
  | mirror (f : PairFrame)
  /-- BULK (R436). -/
  | bulk (f : PairFrame)
  /-- HART_FRAME (R421). -/
  | hartFrame (f : PairFrame)
  /-- CTRL_FRAME (R421). -/
  | ctrlFrame (f : PairFrame)
  /-- BQE_FRAME (R420). -/
  | bqeFrame (f : PairFrame)
  /-- BLK_FRAME (R424). -/
  | blkFrame (f : PairFrame)
  /-- EPOCH_END (R421). -/
  | epochEnd (f : PairFrame)
  /-- COMMIT (R421). -/
  | commit (f : PairFrame)
  /-- FATAL (R430). -/
  | fatal (f : PairFrame)
  /-- HANDOVER (R435). -/
  | handover (f : PairFrame)
  /-- TAKEN (R430). -/
  | taken (f : PairFrame)
  /-- PAIR_FRAME_RESERVED (R410). -/
  | pairFrameReserved (f : PairFrame)
  /-- EPOCH_CLOSE (R419). -/
  | epochClose (p : Nat)
  /-- CKPT (R419). -/
  | ckpt (p target : Nat)
  /-- EPOCH_CLOSE_TIMEOUT (R422). -/
  | epochCloseTimeout (p : Nat)
  /-- SEND_LOG_FULL (R418). -/
  | sendLogFull
  /-- SEND_LOG_DRAINED (R418). -/
  | sendLogDrained
  /-- PAIR_LINK_LOSS (R426). -/
  | pairLinkLoss
  /-- PAIR_LINK_RETURN (R426). -/
  | pairLinkReturn
  /-- AUTOTAKE_TIMEOUT (R428). -/
  | autotakeTimeout
  /-- TAKEOVER_STEP_TIMEOUT (R432). -/
  | takeoverStepTimeout (p : Nat) (fatal : Bool)
  /-- PAIR_PROTECT (R436). -/
  | pairProtect (c : MgrCmd)
  /-- PAIR_UNPROTECT (R438). -/
  | pairUnprotect (c : MgrCmd)
  /-- PAIR_SWITCH (R435). -/
  | pairSwitch (c : MgrCmd)
  /-- PAIR_TAKEOVER (R428). -/
  | pairTakeover (c : MgrCmd)
  /-- PAIR_RELEASE (R426). -/
  | pairRelease (c : MgrCmd)
  /-- PAIR_QUERY (R438). -/
  | pairQuery (c : MgrCmd)
  /-- PWROK_RISE (R570). -/
  | pwrokRise (hw : Hw)
  /-- PKG_RST_N_RISE (R570). -/
  | pkgRstNRise (hw : Hw)
  /-- PKG_RST_N_FALL (R570). -/
  | pkgRstNFall (ns : Nat)
  /-- PWROK_FALL (R570). -/
  | pwrokFall
  /-- START_STEP_FAIL (R459). -/
  | startStepFail (step : Nat)
  /-- RC_WRITE (R467). -/
  | rcWrite (c : MgrCmd)
  /-- RC_VERIFY (R448). -/
  | rcVerify (c : MgrCmd)
  /-- RC_DISARM (R467). -/
  | rcDisarm (c : MgrCmd)
  /-- RC_ROLLBACK (R455). -/
  | rcRollback (c : MgrCmd)
  /-- RC_READ (R467). -/
  | rcRead (c : MgrCmd)
  /-- RC_SVN_RAISE (R467). -/
  | rcSvnRaise (c : MgrCmd)
  /-- COX_FW_ACTIVATE (R465). -/
  | coxFwActivate (c : MgrCmd)
  /-- HEARTBEAT_MISS (R465). -/
  | heartbeatMiss
  /-- PROBATION_END (R466). -/
  | probationEnd
  /-- LOCKSTEP_MISCOMPARE (R511). -/
  | lockstepMiscompare (active : Bool)
  /-- WARM_START (R457). -/
  | warmStart (c : MgrCmd)
  /-- LOG_READ (R467). -/
  | logRead (c : MgrCmd)
  /-- DIE_BIST (R462). -/
  | dieBist (c : MgrCmd)
  /-- LINK_FULL (R462). -/
  | linkFull (c : MgrCmd)
  /-- MEM_TEST (R462). -/
  | memTest (c : MgrCmd)
  /-- RP_MARGIN (R462). -/
  | rpMargin (c : MgrCmd)
  /-- WG_RECAL (R213). -/
  | wgRecal (c : MgrCmd)
  /-- L3_BANK (R463). -/
  | l3Bank (c : MgrCmd)
  /-- SELFTEST_COMPLETE (R462). -/
  | selftestComplete (result : Nat) (detail : Nat) (pages : List (Nat × Nat))
  /-- ERR_INJECT (R528). -/
  | errInject (c : MgrCmd)
  /-- PPA_ALLOCATION (R476). -/
  | ppaAllocation (pIod pHbm pkg : Nat)
  /-- RAIL_SETTLED (R474). -/
  | railSettled (d : Nat)
  /-- AVS_TIMEOUT (R501). -/
  | avsTimeout (d : Nat)
  /-- POWER_ESTIMATE (R479). -/
  | powerEstimate (d est avg : Nat)
  /-- THROTTLE_LEVEL_DOWN (R479). -/
  | throttleLevelDown (d : Nat)
  /-- SENSOR_READ (R578). -/
  | sensorRead (sensor : Nat) (temp : Int)
  /-- THERMAL_STEP (R481). -/
  | thermalStep (d : Nat)
  /-- THERMAL_PERSIST (R481). -/
  | thermalPersist (d : Nat)
  /-- D3_ENTRY (R486). -/
  | d3Entry (d : Nat)
  /-- D3_ENTRY_ABORT (R487). -/
  | d3EntryAbort (d : Nat)
  /-- K3_ENTRY (R489). -/
  | k3Entry
  /-- K3_WAKE (R492). -/
  | k3Wake (src : Nat)
  /-- TIMER_COMPARE (R491). -/
  | timerCompare (h : Nat)
  /-- REF_LOSS (R471). -/
  | refLoss
  /-- RAIL_FAIL (R572). -/
  | railFail (rail : Nat)
  /-- FAULT_RECORD_SERVICE (R509). -/
  | faultRecordService (frame : Nat)
  /-- INCIDENT_CLOSE (R517). -/
  | incidentClose
  /-- CE_RATE_WINDOW (R515). -/
  | ceRateWindow
  /-- FLT_PPOP (R520). -/
  | fltPpop (p : Nat)
  /-- FLT_PIRQ_WRITE (R520). -/
  | fltPirqWrite (p : Nat) (v : Word)
  /-- FLT_PKG_WRITE (R523). -/
  | fltPkgWrite (v : Word) (part : Nat)
  /-- ERR_INJ_WRITE (R525). -/
  | errInjWrite (frame : Nat) (v : Word) (part : Nat)
  /-- INJECTION_FIRE (R526). -/
  | injectionFire (frame : Nat) (ev : InjEv)
  /-- WINDOW_BOUNDARY (R542). -/
  | windowBoundary
  /-- IOF_WIN_CTL_WRITE (R543). -/
  | iofWinCtlWrite (v : Word) (part : Nat)
  /-- REGISTER_WRITE (R552). -/
  | registerWrite (frame off : Nat) (v : Word) (part : Nat)
  /-- ALWAYS_ON_RAIL_REMOVED (R558). -/
  | alwaysOnRailRemoved
  /-- EPOCH_DRAIN_TIMEOUT (R249). -/
  | epochDrainTimeout
  /-- INTERRUPT_COALESCING_TIME (R370). -/
  | interruptCoalescingTime (vf : Nat)
  /-- CXL_SNOOP_ANSWER (R343). -/
  | cxlSnoopAnswer (rp pa : Nat) (dirty : Bool) (v : Line) (poison : Bool)
  /-- CXL_MEM_ANSWER (R342). -/
  | cxlMemAnswer (rp pa : Nat) (wr : Bool) (v : Line) (poison : Bool)
  /-- PCIE_LINK_UP (R352). -/
  | pcieLinkUp (rp link speed width : Nat) (cxl : Bool)
  /-- COX_ACTIVATION_TIMEOUT (R465). -/
  | coxActivationTimeout (step : Nat)
  /-- CROSSLINK_LOSS (R408). -/
  | crosslinkLoss (n : Nat)
  /-- ATS_TRANSLATION_REQUEST (R346). -/
  | atsTranslationRequest (rp rid iova : Nat) (xl : Option Nat)
  /-- PAGE_REQUEST_MESSAGE (R346). -/
  | pageRequestMessage (rp rid iova : Nat) (grp : Nat)
  deriving DecidableEq, Repr

end Sys2Proof
end

