-- ==== Sys2Proof/Decode.lean ====
section
/-! DEFINITION. The commands that words spell. The table of operations and events gives no row any bits: a command is an event at
the block, not a word. -/

namespace Sys2Proof

/-- The command that a word of `nbits` bits spells: none. -/
def decodeTableWord (_nbits _w : Nat) : Option Instr := none

end Sys2Proof
end

