-- ==== Sys2Proof/Machine/Crypto.lean ====
section
/-! DEFINITION. The checksum and the signature that the device checks: CRC-32C (R374, R376, R402, R443), SHA-384 and ECDSA on
P-384 (R448). The specification names the standards and gives no formulas; the formulas are the standards'.
Log entries with the choices and readings made here: 165. -/

namespace Sys2Proof.Machine

/-! ### CRC-32C -/

/-- One bit of the CRC-32C, reflected. -/
def crcBit (c : Nat) : Nat := if c % 2 = 1 then (c / 2) ^^^ 0x82F63B78 else c / 2
/-- One byte. -/
def crcByte (c b : Nat) : Nat := crcBit (crcBit (crcBit (crcBit (crcBit (crcBit (crcBit (crcBit (c ^^^ b))))))))
/-- CRC-32C of bytes. -/
def crc32c (bs : List Nat) : Nat := (bs.foldl crcByte 0xFFFFFFFF) ^^^ 0xFFFFFFFF
/-- CRC-32C of the first `n` bytes of a little-endian number. -/
def crcNat (n v : Nat) : Nat := crc32c ((List.range n).map (fun i => v / 256 ^ i % 256))

/-! ### SHA-384 (FIPS 180-4)

The standard defines its constants by roots of primes, and they are computed here from that definition. A block keeps a window of
sixteen message words: each round consumes the oldest and adds the newest. -/

/-- The greatest number of `n` more bits above `r` whose `k`-th power does not exceed `v`. -/
def natRoot (k v : Nat) : Nat → Nat → Nat
  | 0, r => r
  | n + 1, r => natRoot k v n (if (r + 2 ^ n) ^ k ≤ v then r + 2 ^ n else r)
/-- The first eighty primes. -/
def shaPrimes : List Nat := (List.range 410).filter (fun n => decide (2 ≤ n) && (List.range n).all (fun d => decide (d < 2) || decide (n % d ≠ 0)))
/-- The first 64 bits of the fractional part of the `k`-th root of `p`. -/
def rootFrac (k p : Nat) : Word := BitVec.ofNat 64 (natRoot k (p * 2 ^ (64 * k)) 68 0)
/-- The constants of the eighty rounds: cube roots of the first eighty primes. -/
def shaRoundKeys : List Word := shaPrimes.map (rootFrac 3)

/-- What the rounds of a block carry: the last four values of each of the two chains, newest first, and the window. -/
structure ShaRun where
  up : List Word := []
  low : List Word := []
  win : List Word := []

/-- The chains at the start of a message: square roots of the ninth to the sixteenth prime. -/
def shaStart : ShaRun :=
  let r := ((shaPrimes.drop 8).take 8).map (rootFrac 2)
  { up := r.take 4, low := r.drop 4 }

/-- Exclusive or of a word turned right by each of some counts. -/
def turns (w : Word) (ns : List Nat) : Word := ns.foldl (fun a n => a ^^^ w.rotateRight n) 0
/-- Word `i` of a list. -/
def nth (ws : List Word) (i : Nat) : Word := ws.getD i 0

/-- One round with its constant. -/
def shaTurn (x : ShaRun) (key : Word) : ShaRun :=
  let pick := nth x.low 2 ^^^ (nth x.low 0 &&& (nth x.low 1 ^^^ nth x.low 2))
  let most := (nth x.up 0 &&& (nth x.up 1 ||| nth x.up 2)) ||| (nth x.up 1 &&& nth x.up 2)
  let inn := key + nth x.win 0 + nth x.low 3 + pick + turns (nth x.low 0) [14, 18, 41]
  let next := nth x.win 0 + nth x.win 9 + (turns (nth x.win 1) [1, 8] ^^^ nth x.win 1 >>> 7) + (turns (nth x.win 14) [19, 61] ^^^ nth x.win 14 >>> 6)
  { up := (inn + most + turns (nth x.up 0) [28, 34, 39]) :: x.up.take 3, low := (inn + nth x.up 3) :: x.low.take 3, win := x.win.drop 1 ++ [next] }

/-- Big-endian number of bytes. -/
def beNat (bs : List (BitVec 8)) : Nat := bs.foldl (fun a b => 256 * a + b.toNat) 0

/-- The next 128 bytes of a message. -/
def shaAdd (x : ShaRun) (bs : List (BitVec 8)) : ShaRun :=
  let y := shaRoundKeys.foldl shaTurn { x with win := (List.range 16).map (fun i => BitVec.ofNat 64 (beNat ((bs.drop (8 * i)).take 8))) }
  { up := x.up.zipWith (· + ·) y.up, low := x.low.zipWith (· + ·) y.low }

/-- SHA-384 of bytes: a one bit, zeros, and the length in bits in the last sixteen bytes of a block follow the message. -/
def sha384 (bs : List (BitVec 8)) : BitVec 384 :=
  let blocks := (bs.length + 16) / 128 + 1
  let len := (List.range 16).reverse.map (fun i => BitVec.ofNat 8 (bs.length * 8 / 2 ^ (8 * i)))
  let m := bs ++ 0x80 :: List.replicate (128 * blocks - bs.length - 17) 0 ++ len
  let x := (List.range blocks).foldl (fun x i => shaAdd x ((m.drop (128 * i)).take 128)) shaStart
  BitVec.ofNat 384 ((x.up ++ x.low.take 2).foldl (fun a w => a <<< 64 ||| w.toNat) 0)

/-! ### ECDSA on P-384 (FIPS 186-4) -/

/-- The field, the order, and the curve's constants. -/
def ecP : Nat := 2 ^ 384 - 2 ^ 128 - 2 ^ 96 + 2 ^ 32 - 1
def ecN : Nat := 0xFFFFFFFFFFFFFFFFFFFFFFFFFFFFFFFFFFFFFFFFFFFFFFFFC7634D81F4372DDF581A0DB248B0A77AECEC196ACCC52973
def ecB : Nat := 0xB3312FA7E23EE7E4988E056BE3F82D19181D9C6EFE8141120314088F5013875AC656398D8A2ED19D2A85C8EDD3EC2AEF
def ecGx : Nat := 0xAA87CA22BE8B05378EB1C71EF320AD746E1D3B628BA79B9859F741E082542A385502F25DBF55296C3A545E3872760AB7
def ecGy : Nat := 0x3617DE4A96262C6F5D9E98BF9292DC29F8F41DBD289A147CE9DA3113B5F0B8C00A60B1CE1D7E819D7A431D7C90EA0E5F

/-- Power modulo `m` by the bits of an exponent of `n` bits. -/
def powMod (m b e : Nat) : Nat → Nat
  | 0 => 1 % m
  | n + 1 => let h := powMod m b (e / 2) n; if e % 2 = 1 then h * h % m * b % m else h * h % m

/-- Inverse modulo a prime of 384 bits. -/
def invMod (m x : Nat) : Nat := powMod m (x % m) (m - 2) 384


/-- Sum of two points. -/
def ecAdd (a b : Option (Nat × Nat)) : Option (Nat × Nat) :=
  match a, b with
  | none, q => q
  | p, none => p
  | some (x1, y1), some (x2, y2) =>
    if x1 = x2 ∧ (y1 + y2) % ecP = 0 then none
    else
      let l := if x1 = x2 then (3 * x1 * x1 + ecP - 3) * invMod ecP (2 * y1) % ecP
               else (y2 + ecP - y1) * invMod ecP (x2 + ecP - x1) % ecP
      let x := (l * l + 2 * ecP - x1 - x2) % ecP
      some (x, (l * (x1 + ecP - x) + ecP - y1) % ecP)

/-- Multiple of a point by a number of `n` bits. -/
def ecMul (k : Nat) (p : Option (Nat × Nat)) : Nat → Option (Nat × Nat)
  | 0 => none
  | n + 1 => let h := ecMul (k / 2) p n; let d := ecAdd h h; if k % 2 = 1 then ecAdd d p else d

/-- Is (r, s) a valid signature of a message digest under the public key (x, y)? -/
def ecdsaOk (x y r sg z : Nat) : Bool :=
  let onCurve := decide (x < ecP) && decide (y < ecP) && decide ((y * y) % ecP = (x * x * x + (ecP - 3) * x + ecB) % ecP)
  if onCurve && decide (0 < r) && decide (r < ecN) && decide (0 < sg) && decide (sg < ecN) then
    let w := invMod ecN sg
    match ecAdd (ecMul (z * w % ecN) (some (ecGx, ecGy)) 384) (ecMul (r * w % ecN) (some (x, y)) 384) with
    | some (px, _) => decide (px % ecN = r)
    | none => false
  else false

end Sys2Proof.Machine
end

