-- ==== Sys2Proof/Config.lean ====
section
/-! DEFINITION. What the specification leaves open: free values, applied to the plain counter `State.free` that every
draw advances, and what the factory fixes in fuses. No constant here has a body, so nothing can be proved of a value.
Log entries with the choices and readings made here: 56, 164, 199. -/

namespace Sys2Proof.Config

/-- A number the specification does not state. -/
opaque freeNat : Nat → Nat
/-- A 64-bit value the specification does not state. -/
opaque freeWord : Nat → Word
/-- A choice the specification leaves to the device. -/
opaque freeBool : Nat → Bool
/-- The fuse and factory values: frame and offset of the register that reads them (class F, reset "Factory"). -/
opaque factory : Nat → Nat → Word
/-- The SHA-384 hash of root key `k` in the fuses (R448). -/
opaque keyHash : Nat → BitVec 384
/-- Root keys revoked in the fuses before the first start: bit `k` for key `k` (`MGR_KEYSTAT.REVOKED`, Factory). -/
opaque factoryRevoked : BitVec 4
/-- The fuse SVN floor before the first start (`MGR_KEYSTAT.SVNFLOOR`, Factory). -/
opaque factorySvn : BitVec 6
/-- The DRAM row of each 256 B of a DDR location, which the controller chooses from the medium address (R272). -/
opaque dramRow : Nat → Nat
/-- Configuration space of the function of link `l` of root port `r`, by 4 * r + l and offset: the double words that the
specification does not lay down (R333, R335). -/
opaque rpCfg : Nat → Nat → Nat

/-- The eight SECDED check bits of a directory entry's other bits (R119): the specification does not state the code. -/
opaque dirEcc : Nat → BitVec 8

end Sys2Proof.Config
end

