-- ==== Sys2Proof/Machine/Map.lean ====
section
/-! DEFINITION. Sparse tables: association lists sorted by a Nat key, in one canonical form. A key that is not listed
reads as the `default` of the value type, and writing that default removes the entry, so equal tables are equal data. -/

namespace Sys2Proof.Machine

/-- A table of values of type `α` by number, keys strictly rising, no listed value equal to `default`. -/
abbrev Map (α : Type) := List (Nat × α)

/-- The listed value of a key. -/
def mfind {α : Type} : Map α → Nat → Option α
  | [], _ => none
  | (j, v) :: t, k => if j = k then some v else mfind t k

/-- The value of a key; an unlisted key has the default value. -/
def mget {α : Type} [Inhabited α] (m : Map α) (k : Nat) : α := (mfind m k).getD default

/-- List a value at its place. -/
def mins {α : Type} : Map α → Nat → α → Map α
  | [], k, v => [(k, v)]
  | (j, w) :: t, k, v =>
    if j = k then (k, v) :: t else if k < j then (k, v) :: (j, w) :: t else (j, w) :: mins t k v

/-- Remove a key. -/
def mdel {α : Type} : Map α → Nat → Map α
  | [], _ => []
  | (j, w) :: t, k => if j = k then mdel t k else (j, w) :: mdel t k

/-- Write a key, keeping the canonical form. -/
def mset {α : Type} [Inhabited α] [DecidableEq α] (m : Map α) (k : Nat) (v : α) : Map α :=
  if v = default then mdel m k else mins m k v

/-- Change the value of a key. -/
def mupd {α : Type} [Inhabited α] [DecidableEq α] (m : Map α) (k : Nat) (g : α → α) : Map α :=
  mset m k (g (mget m k))

/-- Every listed key is above `b` and the keys rise strictly. -/
def msorted {α : Type} : Nat → Map α → Bool
  | _, [] => true
  | b, (j, _) :: t => decide (b ≤ j) && msorted (j + 1) t

/-- The canonical form of a table. -/
def mwf {α : Type} [Inhabited α] [DecidableEq α] (m : Map α) : Bool :=
  msorted 0 m && m.all (fun e => decide (e.2 ≠ default))

end Sys2Proof.Machine
end

