-- ==== Sys2Proof/Machine/Operands.lean ====
section
/-! DEFINITION. What the operands of a command name: agent IDs, lines and regions, the address hashes and set indices,
the windows of the system address map, and the frames of the device register space.
Log entries with the choices and readings made here: 9, 194. -/

namespace Sys2Proof.Machine

/-- Bits `[lo+w-1:lo]` of a number. -/
def bits (n lo w : Nat) : Nat := (n >>> lo) % 2 ^ w

/-- One bit of a number. -/
def bit (n i : Nat) : Bool := n.testBit i

/-- `n` with bits `[lo+w-1:lo]` replaced by `v`. -/
def setBits (n lo w v : Nat) : Nat :=
  n - (bits n lo w) <<< lo + (v % 2 ^ w) <<< lo

/-- `n` with bit `i` set or cleared. -/
def putBit (n i : Nat) (b : Bool) : Nat := setBits n i 1 (if b then 1 else 0)

/-- The number of ones among the low `w` bits. -/
def popcount (w n : Nat) : Nat := ((List.range w).filter (fun i => n.testBit i)).length

/-- The numbers of the bits of `n` that are set among the low `w`. -/
def onesOf (w n : Nat) : List Nat := (List.range w).filter (fun i => n.testBit i)

/-- 1 for true. -/
def b2n (b : Bool) : Nat := if b then 1 else 0

/-! ### Agents (R19, R20, Tables 1.1 and 7.2) -/

/-- The agent ID of a unit of a die (Table 1.1). -/
def agent (die unit : Nat) : Nat := die * 256 + unit
/-- The DIE field of an agent ID. -/
def agDie (a : Nat) : Nat := a / 256
/-- The UNIT field of an agent ID. -/
def agUnit (a : Nat) : Nat := a % 256

/-- Is a UNIT value of a compute die in use (Table 1.1)? -/
def cdUnit (u : Nat) : Bool := decide (u < 48) || (decide (64 ≤ u) && decide (u < 88)) || (decide (96 ≤ u) && decide (u < 102))

/-- Is a UNIT value of the I/O die in use (Table 7.2)? -/
def iodUnit (u : Nat) : Bool :=
  decide (u < 0x2C) || (decide (0x30 ≤ u) && decide (u < 0x3C)) || (decide (0x40 ≤ u) && decide (u < 0x58)) ||
  (decide (0x60 ≤ u) && decide (u < 0x64)) || (decide (0x68 ≤ u) && decide (u < 0x6C)) ||
  (decide (0x70 ≤ u) && decide (u < 0x74)) || (decide (0x78 ≤ u) && decide (u < 0x7C))

/-- An agent ID names an agent: neither DIE nor UNIT is reserved (R20). -/
def agValid (a : Nat) : Bool :=
  if agDie a < 12 then cdUnit (agUnit a) else if agDie a < 14 then iodUnit (agUnit a) else false

/-- Agent of hart `h` (R21). -/
def hartAgent (h : Nat) : Nat := agent (h / 48) (h % 48)
/-- Hart of a core's agent ID (R21). -/
def agHart (a : Nat) : Nat := 48 * agDie a + agUnit a
/-- Is the agent a core? -/
def isCore (a : Nat) : Bool := decide (agDie a < 12) && decide (agUnit a < 48)
/-- Is the agent a slice? -/
def isSlice (a : Nat) : Bool := decide (agDie a < 12) && decide (64 ≤ agUnit a) && decide (agUnit a < 88)
/-- Is the agent a home agent? -/
def isHome (a : Nat) : Bool := decide (agDie a = 12) && decide (agUnit a < 32)
/-- Is the agent a root port? -/
def isRp (a : Nat) : Bool := decide (agDie a = 12) && decide (0x30 ≤ agUnit a) && decide (agUnit a < 0x3C)
/-- Agent of home `n`. -/
def haAgent (n : Nat) : Nat := agent 12 n
/-- Agent of root port `r`. -/
def rpAgent (r : Nat) : Nat := agent 12 (0x30 + r)
/-- Agent of slice `k` of die `d`. -/
def sliceAgent (d k : Nat) : Nat := agent d (64 + k)
/-- The Cox's agent. -/
def coxAgent : Nat := agent 12 0x70

/-! ### Lines, regions and hashes (R89, R124, R270) -/

/-- The line of an address. -/
def lineOf (pa : Nat) : Nat := pa / 64
/-- The 4 KiB region number of an address. -/
def regionOf (pa : Nat) : Nat := pa / 4096
/-- The region of a line. -/
def lineRegion (l : Nat) : Nat := l / 64
/-- The slice of a region on every compute die (R89). -/
def sliceOf (g : Nat) : Nat := ((g % 65536) ^^^ (g / 65536 % 65536) ^^^ (g / 4294967296 % 256)) % 24
/-- Die-directory and L3 set of a line (R89). -/
def dirSet (l : Nat) : Nat := l % 4096
/-- Die-region-table set of a region (R89). -/
def dieRset (g : Nat) : Nat := g % 256
/-- L2 set of a line: PA[16:6]. -/
def l2Set (l : Nat) : Nat := l % 2048
/-- The home of a region (R124). -/
def homeOf (g : Nat) : Nat :=
  (List.range 8).foldl (fun h i => h ^^^ (g / 2 ^ (5 * i) % 32)) 0
/-- Region-table set of a region at its home (R124). -/
def homeRset (g : Nat) : Nat := g / 32 % 2048
/-- Line-table set of a line at its home (R124). -/
def homeLset (l : Nat) : Nat := (lineRegion l / 32 % 128) * 64 + l % 64
/-- The pipeline of a region at its home (R158): bit 5 of the region number. -/
def homePipe (g : Nat) : Nat := g / 32 % 2

/-! ### Windows of the system address map (Tables 2.2, 10.4, R364, R365, R545) -/

/-- No address at or above this one is memory (R267). -/
def memTop : Nat := 0x0000100000000000
/-- The slab of an address (R267). -/
def slabOf (pa : Nat) : Nat := pa / 2 ^ 30
/-- First byte of the device register space (R545). -/
def drsBase : Nat := 0x000FFFF000000000
/-- Is an address in the DRS? -/
def inDrs (pa : Nat) : Bool := decide (drsBase ≤ pa) && decide (pa < drsBase + 0x10000000)
/-- The frame of a DRS address. -/
def drsFrame (pa : Nat) : Nat := (pa - drsBase) / 65536
/-- The offset of a DRS address in its frame. -/
def drsOff (pa : Nat) : Nat := (pa - drsBase) % 65536

/-- What a non-memory address names: an ECAM function or window of a root port, the Boathouse's segment 12 ECAM or a
VF BAR0, a DRS frame, or nothing. -/
inductive IoTarget where
  | ecam (rp off : Nat)
  | rpMem (rp off : Nat) (wide : Bool)
  | vfCfg (vf off : Nat)
  | vfBar (vf off : Nat)
  | drs (frame off : Nat)
  | none
  deriving DecidableEq, Repr, Inhabited

/-- The target of an I/O address (Table 10.4, R364, R366, R545). -/
def ioTarget (pa : Nat) : IoTarget :=
  if 0x0000100000000000 ≤ pa ∧ pa < 0x00001000C0000000 then
    .ecam ((pa - 0x0000100000000000) / 0x10000000) ((pa - 0x0000100000000000) % 0x10000000)
  else if 0x00001000C0000000 ≤ pa ∧ pa < 0x00001000D0000000 then
    let o := pa - 0x00001000C0000000
    let rid := o / 4096
    if 256 ≤ rid ∧ rid < 256 + 1024 then .vfCfg (rid - 256) (o % 4096) else .vfCfg 4095 (o % 4096)
  else if 0xC0000000 ≤ pa ∧ pa < 0xF0000000 then
    .rpMem ((pa - 0xC0000000) / 0x4000000) ((pa - 0xC0000000) % 0x4000000) false
  else if 0x0000200000000000 ≤ pa ∧ pa < 0x00002C0000000000 then
    .rpMem ((pa - 0x0000200000000000) / 0x10000000000) ((pa - 0x0000200000000000) % 0x10000000000) true
  else if 0x00002C0000000000 ≤ pa ∧ pa < 0x00002C0000000000 + 1024 * 0x4000 then
    .vfBar ((pa - 0x00002C0000000000) / 0x4000) ((pa - 0x00002C0000000000) % 0x4000)
  else if inDrs pa then .drs (drsFrame pa) (drsOff pa)
  else .none

/-! ### Frames (Table 17.1) -/

/-- KIND and instance of a frame; KIND 0 is a vacant frame. -/
def frameKind (f : Nat) : Nat × Nat :=
  if f < 8 then (f + 1, 0)
  else if 0x010 ≤ f ∧ f < 0x030 then (0x10, f - 0x010)
  else if 0x030 ≤ f ∧ f < 0x03C then (0x11, f - 0x030)
  else if 0x040 ≤ f ∧ f < 0x04C then (0x12, f - 0x040)
  else if 0x050 ≤ f ∧ f < 0x054 then (0x13, f - 0x050)
  else if 0x054 ≤ f ∧ f < 0x064 then (0x14, f - 0x054)
  else if 0x064 ≤ f ∧ f < 0x068 then (0x15, f - 0x064)
  else if 0x068 ≤ f ∧ f < 0x06C then (0x16, f - 0x068)
  else if 0x070 ≤ f ∧ f < 0x074 then (0x17, f - 0x070)
  else if 0x074 ≤ f ∧ f < 0x078 then (0x18, f - 0x074)
  else if 0x080 ≤ f ∧ f < 0x0E0 then (0x19, f - 0x080)
  else if 0x100 ≤ f ∧ f < 0x1C0 then
    (if f % 16 < 7 then (0x20 + f % 16, (f - 0x100) / 16) else (0, 0))
  else if f = 0x1C0 then (0x27, 0)
  else if 0x200 ≤ f ∧ f < 0x20C then (0x30, f - 0x200)
  else if 0x210 ≤ f ∧ f < 0x21C then (0x31, f - 0x210)
  else if 0x800 ≤ f ∧ f < 0xA40 then (0x40, f - 0x800)
  else if 0xA40 ≤ f ∧ f < 0xA4C then (0x41, f - 0xA40)
  else (0, 0)

/-- Frame of home agent `n`. -/
def frHa (n : Nat) : Nat := 0x010 + n
/-- Frame of Agdel port `n`. -/
def frAp (n : Nat) : Nat := 0x030 + n
/-- Frame of root port `r`. -/
def frRp (r : Nat) : Nat := 0x040 + r
/-- Frame of HBM controller `m`. -/
def frHc (m : Nat) : Nat := 0x050 + m
/-- Frame of DDR controller `n`. -/
def frDc (n : Nat) : Nat := 0x054 + n
/-- Frame of Strata engine `m`. -/
def frSe (m : Nat) : Nat := 0x064 + m
/-- Frame of interrupt controller `k`. -/
def frIc (k : Nat) : Nat := 0x068 + k
/-- Frame of probe stop `j`. -/
def frPb (j : Nat) : Nat := 0x070 + j
/-- Frame of the NI of stop `t`. -/
def frNi (t : Nat) : Nat := 0x080 + t
/-- Partition control frame. -/
def frPart (p : Nat) : Nat := 0x100 + 16 * p
/-- Partition memory frame. -/
def frPmem (p : Nat) : Nat := 0x101 + 16 * p
/-- Partition mail frame. -/
def frMail (p : Nat) : Nat := 0x102 + 16 * p
/-- Partition fault frame. -/
def frPflt (p : Nat) : Nat := 0x103 + 16 * p
/-- Partition pair frame. -/
def frPpair (p : Nat) : Nat := 0x104 + 16 * p
/-- Partition I/O frame. -/
def frPio (p : Nat) : Nat := 0x106 + 16 * p
/-- Manager command frame of the manager partition. -/
def frMgr : Nat := 0x1C0
/-- The BMC's manager command frame: reached through management BAR0 only (R546), so it has no frame of the DRS; the
model keeps its registers under the first number after the DRS's 4,096 frames. -/
def frBmc : Nat := 4096
/-- Die control frame of `CDd`. -/
def frDie (d : Nat) : Nat := 0x200 + d
/-- Die fault logger frame of `CDd`. -/
def frDlog (d : Nat) : Nat := 0x210 + d
/-- Frame of the fabric. -/
def frIof : Nat := 0x001
/-- Frame of the PPA and timebase. -/
def frPpa : Nat := 0x002
/-- Frame of the Cox. -/
def frCox : Nat := 0x003
/-- Fault window frame. -/
def frFlt : Nat := 0x004
/-- Memory system frame. -/
def frMem : Nat := 0x005
/-- Boathouse system frame. -/
def frBh : Nat := 0x006
/-- Pair system frame. -/
def frPair : Nat := 0x007

/-! ### The I/O-die stop map (Table 7.1): stop `12*y + x` -/

/-- The agents' units at each stop of Table 7.1, by stop number. -/
def stopUnits : List Nat :=
  [0x40, 0x78, 0x20, 0x30, 0x73, 0x21, 0x31, 0x72, 0x22, 0x32, 0x79, 0x41,
   0x3B, 0x44, 0x45, 0x00, 0x01, 0x02, 0x0A, 0x09, 0x08, 0x49, 0x48, 0x23,
   0x2B, 0x54, 0x46, 0x03, 0x04, 0x60, 0x61, 0x0C, 0x0B, 0x4A, 0x55, 0x33] ++
  [0x3A, 0x47, 0x05, 0x06, 0x07, 0x68, 0x69, 0x0F, 0x0E, 0x0D, 0x4B, 0x24,
   0x2A, 0x53, 0x1D, 0x1E, 0x1F, 0x6B, 0x6A, 0x17, 0x16, 0x15, 0x4F, 0x34,
   0x39, 0x57, 0x52, 0x1B, 0x1C, 0x63, 0x62, 0x14, 0x13, 0x4E, 0x56, 0x25] ++
  [0x29, 0x50, 0x51, 0x18, 0x19, 0x1A, 0x12, 0x11, 0x10, 0x4D, 0x4C, 0x35,
   0x43, 0x7B, 0x38, 0x28, 0x71, 0x37, 0x27, 0x70, 0x36, 0x26, 0x7A, 0x42]

/-- The unit at a stop. -/
def stopUnit (t : Nat) : Nat := stopUnits.getD t 255
/-- The stop of a unit of the I/O die; 96 for a unit at no stop. -/
def unitStop (u : Nat) : Nat := stopUnits.idxOf u

/-! ### Paths through a mesh (R79, R81, R83, R84, R88, R234, R235, R239) -/

/-- Column and row of a unit's stop on a compute die (R79, Tables 3.1 and 3.2). -/
def cdStop (u : Nat) : Nat × Nat :=
  let n := if u < 48 then u / 2 else u - 64
  if 96 ≤ u then (u - 96, 0) else (n % 6, 1 + n / 6)
/-- Column and row of stop `t` of the I/O die (R231). -/
def ioStop (t : Nat) : Nat × Nat := (t % 12, t / 12)
/-- The stop of an agent on its die: 6y + x on a compute die, 12y + x on the I/O die. -/
def stopOf (a : Nat) : Nat := if agDie a < 12 then 6 * (cdStop (agUnit a)).2 + (cdStop (agUnit a)).1 else unitStop (agUnit a)

/-- The columns, or the rows, that a flit enters on its way from `a` to `b`. -/
def hopsTo (a b : Nat) : List Nat :=
  if a ≤ b then (List.range (b - a)).map (fun i => a + 1 + i) else (List.range (a - b)).map (fun i => a - 1 - i)
/-- The positions that a flit enters when it is routed X first, then Y (R81, R234). -/
def xyPath (p q : Nat × Nat) : List (Nat × Nat) := (hopsTo p.1 q.1).map (fun x => (x, p.2)) ++ (hopsTo p.2 q.2).map (fun y => (q.1, y))
/-- The input of the router at `q` on which a flit from its neighbour `p` enters: 0 west, 1 south, 2 north, 3 east, 4 local; rows
count southward (R239, Table 7.9). -/
def inputFrom (p q : Nat × Nat) : Nat :=
  if p.1 < q.1 then 0 else if q.2 < p.2 then 1 else if p.2 < q.2 then 2 else if q.1 < p.1 then 3 else 4
/-- The router inputs on a path that leaves `p`, its own stop's local input apart. -/
def inputsOn (p : Nat × Nat) : List (Nat × Nat) → List ((Nat × Nat) × Nat)
  | [] => []
  | q :: t => (q, inputFrom p q) :: inputsOn q t

/-- The virtual channel of a request: VC0 of a compute die leads to its slices, and VC0 of the I/O die carries SYS 0 (R83, R233). -/
def reqVc (f : Flit) : Nat := if agDie f.src < 12 then b2n (!(isSlice f.dst)) else b2n f.sys
/-- The data plane of a flit on a compute die: PA[6] of its line (R84). -/
def diePlane (f : Flit) : Nat := if f.plane0 then 0 else f.addr / 64 % 2
/-- The data plane of a flit on the I/O die: by PA[7:6] from an agent of that die; from a compute die, the die's plane and bit 0
of the link's quarter (R235). -/
def ioPlane (f : Flit) : Nat :=
  if agDie f.src < 12 then diePlane f + 2 * (f.dst % 2) else 2 * (f.addr / 128 % 2) + f.addr / 64 % 2
/-- The channel of its network on which a flit travels from its source. -/
def chanOf (f : Flit) : Nat :=
  match f.net with
  | .req => reqVc f
  | .dat => if agDie f.src < 12 then diePlane f else ioPlane f
  | _ => 0

/-- Two flits keep their order: they go from one stop to one stop on one network and channel, and both have SYS 0 or both SYS 1 in
one epoch (R82, R237). Between two compute dies each pair of agents keeps its order, for another agent of a stop may use another
quarter of the links (R88, R194). -/
def sameWay (f g : Flit) : Bool :=
  let near := decide (agDie f.src = agDie f.dst)
  let far := !near && decide (agDie f.src < 12) && decide (agDie f.dst < 12)
  decide (f.net = g.net) && decide (agDie f.src = agDie g.src) && decide (agDie f.dst = agDie g.dst) && decide (chanOf f = chanOf g) &&
  (if far then decide (f.src = g.src) && decide (f.dst = g.dst) else decide (stopOf f.src = stopOf g.src) && decide (stopOf f.dst = stopOf g.dst)) &&
  ((near && decide (agDie f.src < 12)) || (decide (f.sys = g.sys) && (!f.sys || decide (f.epoch = g.epoch))))

end Sys2Proof.Machine
end

