-- ==== Sys2Proof/Machine/Flags.lean ====
section
/-! DEFINITION. Register fields: the access types of Table 0.2, the retention classes of Table 17.3, and the maps of
every register of the device register space with each field's reset value (R10 to R13, R545, R549, R555). -/

namespace Sys2Proof.Machine

/-- Access types of Table 0.2. -/
inductive Acc where
  | rw | ro | w1c | w1s | wo | rwl
  deriving DecidableEq, Repr, Inhabited

/-- Retention classes (R555); `none` for a field that holds nothing. -/
inductive Ret where
  | f | a | w | s | v | none
  deriving DecidableEq, Repr, Inhabited

/-- One field of a register: bits `[lo+w-1:lo]`. -/
structure Fld where
  lo : Nat
  w : Nat
  acc : Acc
  ret : Ret
  reset : Nat := 0
  deriving DecidableEq, Repr, Inhabited

/-- One register, or an array of `count` registers `stride` bytes apart, of the frames of KIND `kind`. -/
structure RegDef where
  kind : Nat
  off : Nat
  count : Nat := 1
  stride : Nat := 8
  flds : List Fld
  deriving DecidableEq, Repr, Inhabited

/-- An error bank (Table 15.2) of frames of one KIND. The `SELF` field is computed on a read. -/
def errBank (k : Nat) : List RegDef :=
  [⟨k, 0x500, 1, 8, [⟨0, 1, .w1c, .w, 0⟩, ⟨1, 2, .ro, .w, 0⟩, ⟨3, 1, .ro, .w, 0⟩, ⟨4, 1, .w1c, .w, 0⟩, ⟨5, 1, .ro, .w, 0⟩,
      ⟨6, 1, .ro, .w, 0⟩, ⟨8, 4, .ro, .w, 0⟩, ⟨12, 4, .ro, .w, 0⟩]⟩,
   ⟨k, 0x508, 1, 8, [⟨0, 64, .ro, .w, 0⟩]⟩,
   ⟨k, 0x510, 1, 8, [⟨0, 12, .ro, .w, 0⟩, ⟨12, 4, .ro, .w, 0⟩, ⟨16, 12, .ro, .f, 0⟩]⟩,
   ⟨k, 0x518, 1, 8, [⟨0, 8, .ro, .w, 0⟩, ⟨16, 32, .ro, .w, 0⟩]⟩,
   ⟨k, 0x520, 1, 8, [⟨0, 64, .ro, .w, 0⟩]⟩,
   ⟨k, 0x528, 1, 8, [⟨0, 16, .rw, .w, 0⟩, ⟨16, 16, .rw, .w, 0⟩, ⟨32, 16, .rw, .w, 0⟩]⟩,
   ⟨k, 0x530, 1, 8, [⟨0, 7, .rw, .v, 0⟩, ⟨8, 8, .rw, .v, 0⟩, ⟨16, 1, .rw, .v, 0⟩, ⟨17, 1, .rw, .v, 0⟩,
      ⟨32, 16, .rw, .v, 0⟩]⟩]

/-- A counter block (Table 17.5). -/
def pmcBlock (k : Nat) : List RegDef :=
  [⟨k, 0x800, 16, 8, [⟨0, 64, .ro, .v, 0⟩]⟩, ⟨k, 0x880, 16, 8, [⟨0, 64, .ro, .v, 0⟩]⟩, ⟨k, 0x900, 1, 8, [⟨0, 64, .ro, .v, 0⟩]⟩]

/-- The link-end registers (R224 to R228), at the same offsets of an AP frame and of a die control frame. Only the
I/O-die end's cut is RWL; the die end takes its cut from the width record (R226). -/
def linkEnd (k : Nat) : List RegDef :=
  let cut := fun (rst : Nat) =>
    (List.range 4).flatMap (fun q =>
      let acc := if k = 0x11 then Acc.rwl else Acc.ro
      [⟨9 * q, 2, acc, .w, bits rst (9 * q) 2⟩, ⟨9 * q + 2, 3, acc, .w, bits rst (9 * q + 2) 3⟩,
       ⟨9 * q + 5, 4, acc, .w, bits rst (9 * q + 5) 4⟩])
  [⟨k, 0x400, 1, 8, [⟨0, 4, .ro, .v, 0⟩, ⟨8, 8, .ro, .w, 0⟩, ⟨16, 2, .ro, .v, 0⟩, ⟨18, 1, .w1c, .w, 0⟩, ⟨19, 1, .w1c, .w, 0⟩,
      ⟨32, 32, .ro, .v, 0⟩]⟩,
   ⟨k, 0x408, 1, 8, [⟨0, 4, .wo, .none, 0⟩, ⟨4, 1, .wo, .none, 0⟩, ⟨8, 8, .rw, .w, 0x10⟩, ⟨16, 1, .rw, .w, 1⟩,
      ⟨24, 5, .rw, .w, 8⟩]⟩,
   ⟨k, 0x410, 1, 8, cut 0x43218944A⟩,
   ⟨k, 0x418, 1, 8, cut 0x96CB4944A⟩,
   ⟨k, 0x420, 1, 8, [⟨0, 7, .rw, .v, 0⟩, ⟨7, 1, .rw, .v, 0⟩]⟩,
   ⟨k, 0x430, 1, 8, [⟨0, 6, .rwl, .w, 0⟩, ⟨8, 4, .rwl, .w, 0⟩]⟩]

/-- Fence registers of an AP or RP (Table 7.8); FENCED and the other status bits are the port's own state. -/
def fenceRegs (k : Nat) : List RegDef :=
  [⟨k, 0x600, 1, 8, [⟨0, 1, .rw, .v, 0⟩, ⟨1, 1, .rw, .v, 0⟩]⟩, ⟨k, 0x608, 1, 8, [⟨1, 1, .w1c, .v, 0⟩]⟩]

/-- A manager command frame (Tables 9.3 and 13.9). -/
def mgrRegs (k : Nat) : List RegDef :=
  [⟨k, 0x000, 2, 8, [⟨0, 64, .rw, .w, 0⟩]⟩,
   ⟨k, 0x020, 1, 8, [⟨0, 8, .wo, .none, 0⟩, ⟨8, 8, .wo, .none, 0⟩]⟩,
   ⟨k, 0x028, 1, 8, [⟨0, 1, .ro, .v, 0⟩, ⟨8, 8, .ro, .v, 0⟩, ⟨16, 4, .ro, .v, 0⟩, ⟨32, 32, .ro, .v, 0⟩]⟩,
   ⟨k, 0x120, 1, 8, [⟨0, 2, .ro, .v, 0⟩, ⟨2, 2, .ro, .v, 0⟩, ⟨4, 5, .ro, .v, 0⟩, ⟨9, 1, .ro, .v, 0⟩, ⟨10, 1, .ro, .v, 0⟩,
      ⟨16, 5, .ro, .v, 0⟩]⟩,
   ⟨k, 0x130, 1, 8, [⟨0, 16, .rw, .v, 0⟩]⟩,
   ⟨k, 0x138, 1, 8, [⟨0, 8, .ro, .v, 0⟩, ⟨8, 1, .ro, .v, 0⟩, ⟨9, 7, .ro, .v, 0⟩]⟩,
   ⟨k, 0x140, 1, 8, [⟨0, 1, .ro, .v, 0⟩, ⟨8, 8, .ro, .v, 0⟩, ⟨16, 2, .ro, .v, 0⟩, ⟨32, 32, .ro, .v, 0⟩]⟩]

/-- Registers of the system frames: fabric (Tables 7.5, 16.4), PPA (Table 14.11), fault window (Table 15.9), memory
(Table 8.4), Boathouse (Table 11.12) and pair (Table 12.7). -/
def sysRegs : List RegDef :=
  [⟨0x02, 0x000, 1, 8, [⟨0, 1, .wo, .none, 0⟩]⟩,
   ⟨0x02, 0x008, 1, 8, [⟨0, 1, .ro, .w, 0⟩, ⟨1, 1, .w1c, .w, 0⟩]⟩,
   ⟨0x02, 0x100, 96, 8, [⟨0, 2, .rw, .w, 0⟩]⟩,
   ⟨0x02, 0x800, 1, 8, [⟨0, 16, .rw, .w, 100⟩]⟩,
   ⟨0x02, 0x808, 1, 8, [⟨0, 32, .ro, .v, 0⟩]⟩,
   ⟨0x03, 0x000, 1, 8, [⟨0, 10, .rwl, .w, 800⟩]⟩,
   ⟨0x03, 0x008, 1, 8, [⟨0, 16, .ro, .v, 0⟩, ⟨16, 16, .ro, .v, 0⟩, ⟨32, 4, .ro, .v, 0⟩]⟩,
   ⟨0x03, 0x048, 1, 8, [⟨0, 1, .ro, .a, 0⟩]⟩,
   ⟨0x03, 0x100, 12, 8, [⟨0, 12, .ro, .v, 64⟩, ⟨12, 3, .ro, .v, 6⟩, ⟨15, 3, .ro, .v, 6⟩, ⟨18, 3, .ro, .v, 6⟩,
      ⟨24, 12, .ro, .v, 0⟩, ⟨36, 1, .ro, .v, 0⟩, ⟨37, 1, .ro, .v, 0⟩]⟩] ++
  [⟨0x05, 0x000, 1, 8, [⟨0, 1, .ro, .a, 0⟩, ⟨1, 1, .w1c, .w, 0⟩, ⟨16, 32, .rw, .w, 0⟩]⟩,
   ⟨0x05, 0x008, 1, 8, [⟨0, 1, .rwl, .w, 0⟩, ⟨16, 16, .rw, .w, 0x100⟩, ⟨32, 16, .rw, .w, 10⟩]⟩,
   ⟨0x05, 0x010, 1, 8, [⟨0, 10, .ro, .w, 1⟩]⟩,
   ⟨0x05, 0x018, 1, 8, [⟨0, 64, .ro, .w, 0⟩]⟩,
   ⟨0x05, 0x020, 1, 8, [⟨0, 64, .ro, .w, 0⟩]⟩,
   ⟨0x05, 0x028, 1, 8, [⟨0, 16, .ro, .w, 0⟩, ⟨16, 10, .ro, .w, 0⟩, ⟨26, 1, .ro, .w, 0⟩, ⟨27, 1, .ro, .w, 0⟩,
      ⟨28, 1, .ro, .v, 0⟩]⟩] ++
  [⟨0x06, 0x000, 1, 8, [⟨0, 14, .rw, .v, 0⟩]⟩,
   ⟨0x06, 0x010, 1, 8, [⟨0, 14, .wo, .none, 0⟩, ⟨14, 2, .wo, .none, 0⟩, ⟨16, 4, .wo, .none, 0⟩]⟩,
   ⟨0x06, 0x018, 1, 8, [⟨1, 1, .w1c, .w, 0⟩]⟩,
   ⟨0x06, 0x020, 1, 8, [⟨0, 8, .rw, .w, 24⟩, ⟨8, 8, .rw, .w, 8⟩]⟩,
   ⟨0x07, 0x008, 1, 8, [⟨0, 10, .rw, .v, 0⟩]⟩,
   ⟨0x08, 0x000, 1, 8, [⟨0, 8, .rw, .w, 10⟩, ⟨8, 1, .rwl, .w, 0⟩, ⟨16, 8, .rw, .w, 10⟩, ⟨24, 12, .rw, .w, 32⟩]⟩,
   ⟨0x08, 0x008, 1, 8, [⟨0, 1, .ro, .v, 0⟩, ⟨1, 1, .ro, .v, 0⟩, ⟨2, 1, .ro, .v, 0⟩]⟩]

/-- Registers of the frames of the I/O-die blocks (R176, R243, R261, R291, R292, R354). -/
def blockRegs : List RegDef :=
  [⟨0x10, 0x040, 1, 8, [⟨48, 1, .w1c, .w, 0⟩]⟩,
   ⟨0x12, 0x000, 1, 8, [⟨0, 3, .rwl, .w, 0⟩, ⟨3, 1, .rwl, .w, 0⟩, ⟨8, 3, .rwl, .w, 6⟩]⟩,
   ⟨0x12, 0x200, 8, 16, [⟨0, 14, .rw, .w, 0⟩]⟩,
   ⟨0x12, 0x208, 8, 16, [⟨0, 14, .rw, .w, 0⟩]⟩,
   ⟨0x15, 0x000, 1, 8, [⟨0, 1, .rw, .w, 1⟩, ⟨1, 3, .rw, .w, 4⟩, ⟨8, 8, .rw, .w, 10⟩]⟩,
   ⟨0x15, 0x008, 1, 8, [⟨0, 5, .rw, .w, 16⟩, ⟨5, 5, .rw, .w, 2⟩, ⟨16, 10, .rw, .w, 100⟩, ⟨26, 2, .rw, .w, 3⟩]⟩,
   ⟨0x15, 0x010, 1, 8, [⟨10, 10, .ro, .w, 512⟩, ⟨20, 10, .ro, .w, 512⟩, ⟨30, 1, .w1c, .w, 0⟩]⟩,
   ⟨0x15, 0x100, 9, 8, [⟨0, 64, .ro, .v, 0⟩]⟩,
   ⟨0x15, 0x180, 9, 8, [⟨0, 64, .ro, .v, 0⟩]⟩,
   ⟨0x15, 0x1C8, 1, 8, [⟨0, 64, .ro, .v, 0⟩]⟩] ++
  [⟨0x17, 0x100, 4, 64, [⟨0, 7, .rw, .v, 0⟩, ⟨7, 3, .rw, .v, 0⟩, ⟨10, 3, .rw, .v, 0⟩, ⟨13, 1, .rw, .v, 0⟩, ⟨14, 1, .rw, .v, 0⟩,
      ⟨15, 1, .rw, .v, 0⟩, ⟨16, 1, .ro, .v, 0⟩, ⟨17, 1, .rwl, .w, 0⟩]⟩,
   ⟨0x17, 0x108, 4, 64, [⟨0, 48, .rw, .v, 0⟩]⟩,
   ⟨0x17, 0x110, 4, 64, [⟨0, 48, .rw, .v, 0⟩]⟩,
   ⟨0x17, 0x118, 4, 64, [⟨0, 48, .rw, .v, 0⟩]⟩,
   ⟨0x17, 0x120, 4, 64, [⟨0, 48, .ro, .v, 0⟩]⟩,
   ⟨0x19, 0x000, 1, 8, [⟨1, 1, .w1c, .w, 0⟩]⟩]

/-- Registers of the partition frames (Tables 9.6, 8.8, 9.11, 15.8, 12.7, 11.12, 17.6). -/
def partRegs : List RegDef :=
  [⟨0x20, 0x000, 1, 8, [⟨33, 1, .w1c, .s, 0⟩]⟩,
   ⟨0x20, 0x008, 1, 8, [⟨0, 1, .wo, .none, 0⟩]⟩,
   ⟨0x20, 0x010, 1, 8, [⟨0, 24, .rw, .s, 0xFFFFFF⟩]⟩,
   ⟨0x20, 0x018, 1, 8, [⟨2, 50, .rw, .w, 0⟩]⟩,
   ⟨0x20, 0x020, 1, 8, [⟨0, 64, .rw, .w, 0⟩]⟩,
   ⟨0x20, 0x028, 1, 8, [⟨0, 10, .wo, .none, 0⟩, ⟨10, 2, .wo, .none, 0⟩]⟩,
   ⟨0x21, 0x000, 1, 8, [⟨0, 14, .rw, .v, 0⟩]⟩,
   ⟨0x21, 0x200, 1, 8, [⟨0, 2, .wo, .none, 0⟩, ⟨12, 40, .wo, .none, 0⟩]⟩,
   ⟨0x21, 0x208, 1, 8, [⟨0, 1, .ro, .v, 0⟩, ⟨1, 3, .ro, .v, 0⟩]⟩] ++
  [⟨0x22, 0x000, 8, 8, [⟨0, 64, .rw, .s, 0⟩]⟩,
   ⟨0x22, 0x040, 1, 8, [⟨0, 4, .rw, .s, 0⟩, ⟨8, 1, .wo, .none, 0⟩]⟩,
   ⟨0x22, 0x048, 1, 8, [⟨0, 1, .ro, .s, 0⟩, ⟨1, 3, .ro, .s, 0⟩]⟩,
   ⟨0x22, 0x0C8, 1, 8, [⟨0, 1, .wo, .none, 0⟩]⟩,
   ⟨0x22, 0x0D0, 1, 8, [⟨0, 10, .rw, .s, 0⟩, ⟨12, 11, .rw, .s, 0⟩, ⟨63, 1, .rw, .s, 0⟩]⟩,
   ⟨0x23, 0x040, 1, 8, [⟨16, 16, .rw, .s, 0⟩]⟩,
   ⟨0x23, 0x048, 1, 8, [⟨0, 1, .wo, .none, 0⟩]⟩,
   ⟨0x23, 0x050, 1, 8, [⟨0, 10, .rw, .s, 0⟩, ⟨12, 11, .rw, .s, 0⟩, ⟨61, 1, .rw, .s, 0⟩, ⟨62, 1, .rw, .s, 0⟩,
      ⟨63, 1, .rw, .s, 0⟩]⟩] ++
  [⟨0x24, 0x008, 2, 8, [⟨0, 64, .ro, .v, 0⟩]⟩,
   ⟨0x24, 0x018, 1, 8, [⟨0, 10, .rw, .s, 0⟩, ⟨12, 11, .rw, .s, 0⟩, ⟨63, 1, .rw, .s, 0⟩]⟩,
   ⟨0x25, 0x000, 1, 8, [⟨0, 10, .rw, .v, 0⟩]⟩,
   ⟨0x26, 0x100, 1, 8, [⟨0, 32, .rw, .v, 0⟩]⟩,
   ⟨0x26, 0x108, 1, 8, [⟨0, 32, .rw, .v, 0⟩]⟩]

/-- Registers of a die control frame beside its link end (Tables 3.6, 3.7, 14.9, 12.7). -/
def dieRegs : List RegDef :=
  [⟨0x30, 0x100, 4, 0x20, [⟨12, 40, .rw, .w, 0⟩]⟩,
   ⟨0x30, 0x108, 4, 0x20, [⟨12, 40, .rw, .w, 0⟩]⟩,
   ⟨0x30, 0x110, 4, 0x20, [⟨0, 12, .rw, .w, 0⟩, ⟨16, 1, .rw, .w, 0⟩, ⟨17, 1, .ro, .v, 0⟩]⟩,
   ⟨0x30, 0x180, 1, 8, [⟨0, 4, .w1c, .w, 0⟩, ⟨8, 1, .w1c, .w, 0⟩, ⟨16, 4, .ro, .v, 0⟩]⟩,
   ⟨0x30, 0x200, 1, 8, [⟨0, 3, .rw, .w, 0⟩, ⟨4, 4, .rw, .w, 1⟩]⟩,
   ⟨0x30, 0x208, 1, 8, [⟨0, 3, .ro, .v, 6⟩, ⟨4, 3, .ro, .v, 6⟩, ⟨8, 3, .ro, .v, 6⟩, ⟨11, 1, .ro, .v, 0⟩, ⟨12, 1, .ro, .v, 0⟩,
      ⟨16, 5, .ro, .v, 16⟩, ⟨32, 12, .ro, .v, 64⟩, ⟨48, 12, .ro, .v, 0⟩]⟩,
   ⟨0x30, 0x210, 1, 8, [⟨0, 64, .ro, .v, 0⟩]⟩,
   ⟨0x30, 0x700, 1, 8, [⟨0, 64, .rw, .w, 0⟩]⟩]

/-- Every register that is stored as a register. Registers whose value is other state of the machine (status counts,
queue heads, the frame directory, route entries, the UART) are computed when they are read. -/
def regDefs : List RegDef :=
  sysRegs ++ blockRegs ++ partRegs ++ dieRegs ++ mgrRegs 0x27 ++ mgrRegs 0x28 ++ linkEnd 0x11 ++ linkEnd 0x30 ++
  fenceRegs 0x11 ++ fenceRegs 0x12 ++
  [0x03, 0x04, 0x07, 0x10, 0x11, 0x12, 0x13, 0x14, 0x15, 0x16, 0x19, 0x30, 0x31].flatMap errBank ++
  [0x10, 0x11, 0x12, 0x13, 0x14, 0x30].flatMap pmcBlock

/-- Does a register definition cover an offset? -/
def RegDef.covers (r : RegDef) (kind off : Nat) : Bool :=
  decide (r.kind = kind) && decide (r.off ≤ off) && decide ((off - r.off) % r.stride = 0) &&
  decide ((off - r.off) / r.stride < r.count)

/-- The KIND of the frame a register key names; the BMC's command frame has the kind 0x28 (see `frBmc`). -/
def keyKind (f : Nat) : Nat := if f = 4096 then 0x28 else (frameKind f).1

/-- The fields of the register at a frame's offset; none where no map defines it (R549). -/
def fieldsAt (f off : Nat) : List Fld :=
  let k := keyKind f
  match regDefs.find? (fun r => r.covers k off) with
  | some r => r.flds
  | none => []

/-- The word that the fields' reset values make. -/
def resetWord (fs : List Fld) : Nat := fs.foldl (fun v x => v + (x.reset <<< x.lo)) 0

/-- Does KIND hold an error bank (Table 17.1)? -/
def hasErrBank (k : Nat) : Bool := [0x03, 0x04, 0x07, 0x10, 0x11, 0x12, 0x13, 0x14, 0x15, 0x16, 0x19, 0x30, 0x31].contains k

/-- Does KIND hold a counter block (Table 17.1)? -/
def hasPmc (k : Nat) : Bool := [0x10, 0x11, 0x12, 0x13, 0x14, 0x30].contains k

/-- A word with one field written. -/
def putFld (v : Nat) (x : Fld) (n : Nat) : Nat := setBits v x.lo x.w n

/-- What a software write of `n` leaves in one field (Table 0.2): `open_` says that the Race Card lock is released,
`legal` that the value written is no reserved encoding of the field (R12). -/
def writeFld (open_ : Bool) (legal : Fld → Nat → Bool) (n v : Nat) (x : Fld) : Nat :=
  let b := bits n x.lo x.w
  match x.acc with
  | .rw => if legal x b then putFld v x b else v
  | .rwl => if open_ && legal x b then putFld v x b else v
  | .w1c => putFld v x (bits v x.lo x.w - (bits v x.lo x.w &&& b))
  | .w1s => putFld v x (bits v x.lo x.w ||| b)
  | .ro => v
  | .wo => v

/-- The fields of a word that an event of the named classes loses return to their reset values (Table 17.3). -/
def loseFlds (lost : List Ret) (fs : List Fld) (v : Nat) : Nat :=
  fs.foldl (fun a x => if lost.contains x.ret then putFld a x x.reset else a) v

end Sys2Proof.Machine
end

