-- ==== Sys2Proof/Machine/State.lean ====
section
/-! DEFINITION. The state of the RN576 as plain data, the reasons a command stops, and the state after reset.
Log entries with the choices and readings made here: 2, 3, 4, 8, 54, 77, 105, 131, 152, 166, 169, 184, 186, 209. -/

namespace Sys2Proof.Machine



/-- What makes the L2 ask for a line (R52, R584): a load, an atomic or the walker; a store that drains; a cache-block
instruction; a prefetch. -/
inductive AskBy where
  | demand | store | cbo | pf
  deriving DecidableEq, Repr, Inhabited

/-- A request at the L2 input queue (R57). -/
structure L2Q where
  line : Nat := 0
  op : Nat := 0
  by_ : AskBy := .demand
  nt : Bool := false
  deriving DecidableEq, Repr, Inhabited

/-- An open request of an L2 that left the core (R52): one of its 64 miss handlers. `by_` says what asked for it. -/
structure Hnd where
  line : Nat := 0
  /-- REQ opcode sent to the slice. -/
  op : Nat := 0
  /-- A prefetch (it installs E for ownership and wakes nothing). -/
  pf : Bool := false
  /-- The request waits for the EvictAck of the same line (R166) or for the deferral that keeps it back. -/
  sent : Bool := false
  gotData : Bool := false
  gotComp : Bool := false
  st : St := .i
  rgn : Bool := false
  data : Line := 0
  poison : Bool := false
  /-- Fill the least recently used position (R68). -/
  nt : Bool := false
  by_ : AskBy := .demand
  /-- Answered with Fault (R584): the instruction that waits on it faults. -/
  fault : Bool := false
  deriving DecidableEq, Repr, Inhabited

/-- A line of an L2. `l1d` and `l1i` hold the L1 set the line was supplied to, while that L1 holds it (R39). -/
structure L2Line where
  st : St := .i
  line : Nat := 0
  data : Line := 0
  poison : Bool := false
  l1d : Option Nat := none
  l1i : Option Nat := none
  deriving DecidableEq, Repr, Inhabited

/-- An entry of a write-back buffer of an L2, a slice or a root port, until its EvictAck (R54, R141). -/
structure WbEnt where
  txn : Nat := 0
  line : Nat := 0
  st : St := .i
  data : Line := 0
  poison : Bool := false
  /-- A snoop was answered from the buffer: the line is I (R167). -/
  gone : Bool := false
  /-- The slice's CboClean of R94, which keeps the line on the die. -/
  clean : Bool := false
  deriving DecidableEq, Repr, Inhabited

/-- A store buffer entry (R44): the bytes of one line that it holds; `seq` is its oldest store, whose age the entry keeps when a
younger store merges. -/
structure SbEnt where
  seq : Nat := 0
  line : Nat := 0
  mask : BitVec 64 := 0
  data : Line := 0
  draining : Bool := false
  deriving DecidableEq, Repr, Inhabited

/-- An exception that an instruction raises when it becomes the oldest: its cause and `*tval`, and for the use of poisoned data the
address that the record names (R513). -/
structure Exc where
  cause : Nat := 0
  tval : Nat := 0
  pa : Option Nat := none
  deriving DecidableEq, Repr, Inhabited

/-- An instruction in the reorder window of a hart, with what it has obtained so far. -/
structure HOp where
  seq : Nat := 0
  ins : Instr
  /-- The request of an I/O-class or cache-block instruction has been sent. -/
  sent : Bool := false
  /-- Its answer has arrived. -/
  got : Bool := false
  val : Nat := 0
  /-- It is complete with this result, and retires when every older one has. -/
  res : Option Nat := none
  /-- It raises this exception when every older one has retired (R584). -/
  exc : Option Exc := none
  /-- It has retired and is not complete yet: a cache-block instruction (R584). -/
  ret : Bool := false
  /-- The page-table entries that the walker has still to read, and those whose A or D bit it has still to set, with the bits (R32, R52). -/
  walk : List Nat := []
  ads : List (Nat × Nat) := []
  /-- For the Buoy: it missed in the L1D, it missed in the L2, the walker ran, and the source of its data (Tables 2.10 and 2.11). -/
  l1m : Bool := false
  l2m : Bool := false
  tlb : Bool := false
  src : Nat := 0
  deriving DecidableEq, Repr

/-- What a completed instruction left: its result, or the exception it raised (cause and `*tval`). -/
structure Done where
  seq : Nat := 0
  val : Nat := 0
  cause : Option Nat := none
  tval : Nat := 0
  deriving DecidableEq, Repr, Inhabited

/-- An LR reservation with its exact address, and the deferral window of R62. -/
structure Resv where
  addr : Nat := 0
  window : Bool := true
  deriving DecidableEq, Repr, Inhabited

/-- Privilege modes. -/
inductive Priv where
  | m | s | u | vs | vu
  deriving DecidableEq, Repr, Inhabited

/-- Where a hart stands: executing, in a sleep state entered by WFI, waiting in `wrs`, parked (or `parking`, while its caches are written
back), stopped by the package-fatal response, or halted by a debugger (R73, R64, R316, R317, Table 15.10, R359). -/
inductive HState where
  | parked | parking | run | wrs | c1 | c2 | c4 | stopped | halted
  deriving DecidableEq, Repr, Inhabited

/-- One programmable counter (R532 to R536). -/
structure Hpm where
  ev : Word := 0
  cnt : Word := 0
  prev : Nat := 0
  deriving DecidableEq, Repr, Inhabited

/-- The Buoy sampler of a hart beside its CSRs (R537): decoded instructions left in the period, the position at which
it tags, and the tagged instruction. -/
structure Buoy where
  left : Nat := 0
  pos : Nat := 0
  armed : Bool := false
  tagged : Option Nat := none
  /-- The mode in which the tagged instruction was decoded (Table 2.10). -/
  mode : Priv := .u
  deriving DecidableEq, Repr, Inhabited

/-- One hart with its private caches. -/
structure Hart where
  st : HState := .parked
  priv : Priv := .m
  mstateenC : Bool := false
  hstateenC : Bool := false
  tw : Bool := false
  vtw : Bool := false
  adue : Bool := false
  cbie : Bool := true
  /-- An enabled interrupt is pending (`mip & mie` beyond the IMSIC's and the counters' own). -/
  irq : Bool := false
  lcofi : Bool := false
  timer : Bool := false
  pc : Nat := 0
  a0 : Word := 0
  a1 : Word := 0
  /-- The other integer registers that a command has written, the floating-point and the vector registers (R30, R31). -/
  xr : Map Word := []
  fr : Map Word := []
  vr : Map (BitVec 256) := []
  /-- `mie`: which interrupts are enabled. -/
  mie : Word := 0
  /-- The other CSRs of the ratified specifications that this model holds, by number (R30, R31). -/
  csr : Map Word := []
  mcycle : Word := 0
  minstret : Word := 0
  rnslp : Word := 0
  rnlatol : Word := 0xFFFFFF
  rnbuoyctl : Word := 0x10000
  rnbuoypc : Word := 0
  rnbuoyea : Word := 0
  rnbuoylat : Word := 0
  rnbuoyev : Word := 0
  buoy : Buoy := {}
  hpm : Map Hpm := []
  mcountinhibit : Word := 0
  /-- Copies of `mtopei`, `stopei` and `vstopei` of each guest file: by file number (R349). -/
  topei : Map Nat := []
  stimecmp : Option Word := none
  vstimecmp : Option Word := none
  seq : Nat := 0
  ops : List HOp := []
  done : List Done := []
  sb : List SbEnt := []
  l2 : Map L2Line := []
  plru : Map Nat := []
  hnd : Map Hnd := []
  wb : List WbEnt := []
  /-- The L2 input queue while its head waits for a miss handler (R57). -/
  inq : List L2Q := []
  /-- L1D miss buffers and L1I fetch miss buffers, by line (R42, R50); each names the L1 set the access looks in. -/
  mb : List (Nat × Nat) := []
  fmb : List (Nat × Nat) := []
  resv : Option Resv := none
  deferred : List Flit := []
  /-- A trap, an interrupt or a waiting instruction requires the store buffer to drain (R45). -/
  drain : Bool := false
  deriving DecidableEq, Repr, Inhabited

/-- A ring record (Table 15.5), by its eight words. -/
structure FltRec where
  seq : Nat := 0
  incident : Nat := 0
  origin : Bool := false
  frame : Nat := 0
  stat : Word := 0
  addr : Word := 0
  src : Word := 0
  type : Word := 0
  time : Word := 0
  cnt : Word := 0
  deriving DecidableEq, Repr, Inhabited

/-- The Cox's fault service (R515 to R521). `openAt` is the TIME of the record that opened the incident; `ce` counts
the CE records of each block in the one-second window `ceWin`. -/
structure FltState where
  ring : Map FltRec := []
  /-- The fault log in the flash, oldest first (R444), and how many of its records were written since a UCP was latched. -/
  log : List FltRec := []
  ucpLog : Nat := 0
  queue : Map (List FltRec) := []
  openAt : Nat := 0
  ce : Map Nat := []
  ceWin : Nat := 0
  /-- Structures whose check bits an injection inverted, not read since: frame, target, line (or location / 64 of a memory
  controller) and weight (R526). -/
  damage : List (Nat × Nat × Nat × Nat) := []
  /-- Timebase at which each frame's injection was armed. -/
  injAt : Map Nat := []
  deriving DecidableEq, Repr, Inhabited

/-- Levels of the pins: the power-good inputs and what the alert outputs drive (R522 to R524, chapter 18). `fatal`, `uc`
and `ce` say that ALERT_FATAL_N, ALERT_UC_N and ALERT_CE_N are driven low. -/
structure Pins where
  pwrok : Bool := false
  pkgRst : Bool := false
  aon : Bool := true
  everUp : Bool := false
  fatal : Bool := false
  uc : Bool := false
  ce : Bool := false
  deriving DecidableEq, Repr, Inhabited

/-- A die-directory entry (Table 3.4); `v` is false for an empty way. -/
structure DirEnt where
  v : Bool := false
  line : Nat := 0
  pres : Nat := 0
  dperm : St := .i
  owner : Nat := 0x3F
  opn : Bool := false
  age : Nat := 0
  deriving DecidableEq, Repr, Inhabited

/-- An L3 line (R90): dirty bit, age and the die's permission beside the data. -/
structure L3Ent where
  v : Bool := false
  line : Nat := 0
  data : Line := 0
  dirty : Bool := false
  poison : Bool := false
  dperm : St := .i
  age : Nat := 0
  deriving DecidableEq, Repr, Inhabited

/-- A die-region-table entry (R102): a region held, or a way held for a grant that is awaited (R126). `stamp` orders
uses for R103. -/
structure RgnEnt where
  v : Bool := false
  held : Bool := false
  g : Nat := 0
  stamp : Nat := 0
  deriving DecidableEq, Repr, Inhabited

/-- How far a request at a slice has come: not yet served; waiting for the back-invalidation of a directory victim; for
answers of the die's L2s; for the home; for the L2's CompAck. -/
inductive TxPh where
  | wait | victim | snoop | home | ack
  deriving DecidableEq, Repr, Inhabited

/-- An open transaction of a slice (R96). -/
structure Tx where
  /-- Tag toward the home, 0 to 31. -/
  id : Nat := 0
  f : Flit := {}
  ph : TxPh := .wait
  /-- L2s whose SnpRsp is outstanding, and all that were snooped (R165). -/
  pend : List Nat := []
  snooped : List Nat := []
  /-- A holder forwarded the data to the requester; FCOMP was given to it. -/
  fwd : Bool := false
  fcomp : Bool := false
  /-- Opcode sent to the home (0 none); `self` when the answer comes to the slice. -/
  up : Nat := 0
  self : Bool := false
  /-- A die-region-table way is held for the answer (R126). -/
  rgnWay : Bool := false
  /-- The home's grant to the slice, with the data when it sent any. -/
  got : Bool := false
  hasData : Bool := false
  st : St := .i
  data : Line := 0
  poison : Bool := false
  /-- The grant carries responsibility for dirty data. -/
  dirty : Bool := false
  /-- The line of the directory victim being back-invalidated (R99), and the dirty and the clean data returned. -/
  vline : Nat := 0
  vdata : Option (Line × Bool) := none
  vclean : Option (Line × Bool) := none
  /-- A CompAck that came before the last SnpRsp: the state and RGN that it carries. `listed` once the directory lists the
  requester for that reason, or because it has announced the line's eviction. -/
  acked : Option (St × Bool) := none
  listed : Bool := false
  /-- The requester's L2 holds a copy of the line (R162). -/
  held : Bool := false
  deriving DecidableEq, Repr, Inhabited

/-- A snoop that a slice is answering: it waits for its own L2s, or behind a transaction resolved on the die. With
`own` it is the slice's own removal of a line (Table 3.8, R108), which answers no home. -/
structure SnpTx where
  /-- Tag toward the L2s, from 2048 up. -/
  id : Nat := 0
  f : Flit := {}
  own : Bool := false
  started : Bool := false
  pend : List Nat := []
  snooped : List Nat := []
  fwd : Bool := false
  /-- State the owner's L2 answered. -/
  ownSt : St := .i
  hadOwner : Bool := false
  /-- Dirty data an L2 returned. -/
  ret : Option (Line × Bool) := none
  deriving DecidableEq, Repr, Inhabited

/-- A region snoop that a slice is answering (Table 4.4 step 2, R131): `ndata` dirty lines have been sent. -/
structure RgnSnp where
  f : Flit := {}
  ndata : Nat := 0
  deriving DecidableEq, Repr, Inhabited

/-- A region that a slice has released (R130) with the map it sent. -/
structure RelEnt where
  txn : Nat := 0
  g : Nat := 0
  map : Nat := 0
  deriving DecidableEq, Repr, Inhabited

/-- A slice with its share of the die directory (R79, R90, R96, R102). -/
structure Slice where
  dir : Map DirEnt := []
  l3 : Map L3Ent := []
  rgn : Map RgnEnt := []
  stamp : Nat := 0
  tx : List Tx := []
  snp : List SnpTx := []
  rsnp : List RgnSnp := []
  /-- Tag of the next snoop toward the L2s. -/
  tag : Nat := 0
  wb : List WbEnt := []
  rel : List RelEnt := []
  setWait : List Flit := []
  held : List Flit := []
  /-- REQ VC0 flits that wait at the routers for a tracker, each with the time of its arrival, and the input of the slice's stop
  that the rotating grant takes next (R85, R87). -/
  vc0 : List (Nat × Flit) := []
  vcp : Nat := 0
  /-- Requests that a home refused: TXN, home, and 0 not queued there (R175), 1 queued, 2 sent again with RSV. -/
  refused : List (Nat × Nat × Nat) := []
  deriving DecidableEq, Repr, Inhabited

/-- A range invalidation at E4 (Table 3.8). -/
structure RangeInv where
  lo : Nat := 0
  hi : Nat := 0
  deriving DecidableEq, Repr, Inhabited

/-- A command of the Cox to a die (R85, R112, Table 7.7). -/
inductive CoxCmd where
  | range (lo hi : Nat)
  | fence
  | unfence
  deriving DecidableEq, Repr, Inhabited

/-- A region-table entry (Table 4.2). -/
structure RegEnt where
  v : Bool := false
  g : Nat := 0
  priv : Bool := true
  holder : Nat := 0
  map : Nat := 0
  opn : Bool := false
  age : Nat := 0
  deriving DecidableEq, Repr, Inhabited

/-- A line-table entry (Table 4.3). -/
structure LineEnt where
  v : Bool := false
  line : Nat := 0
  st : St := .i
  hold : Nat := 0
  owner : Nat := 0
  ioag : Nat := 0
  opn : Bool := false
  age : Nat := 0
  deriving DecidableEq, Repr, Inhabited

/-- How far a request at a home has come: waiting in its chain; for a region's split; for a victim's way; for snoop
answers; for memory; for the CompAck. -/
inductive TrkPh where
  | wait | split | victim | snoop | mem | ack
  deriving DecidableEq, Repr, Inhabited

/-- A request tracker of a home (R160, R170). -/
structure Trk where
  id : Nat := 0
  f : Flit := {}
  ph : TrkPh := .wait
  /-- Agents whose SnpRsp is outstanding, and all that were sent a snoop (R165). -/
  pend : List Nat := []
  snooped : List Nat := []
  /-- The owner snooped, and what it answered (R149, R163). -/
  owner : Option Nat := none
  fwd : Bool := false
  ownSt : St := .i
  ownWb : Bool := false
  fcomp : Bool := false
  /-- SnpData announced and received, and memory writes of the transaction that no controller has accepted. -/
  ndExp : Nat := 0
  ndGot : Nat := 0
  wr : Nat := 0
  /-- The CompAck has arrived; the directory listed the requester before the last SnpRsp. -/
  acked : Bool := false
  listed : Bool := false
  /-- The transaction names its whole region: it grants it (R126). -/
  rgn : Bool := false
  /-- The set of the line table, or of the region table, in which a way is kept for the request (R172, R173). -/
  way : Option (Bool × Nat) := none
  /-- The ingress port by which the request came (R159, R239). -/
  port : Nat := 4
  deriving DecidableEq, Repr, Inhabited

/-- A victim tracker: the back-invalidation of a line, or the removal of a region (R131, R132, R153). `pend` lists the
snooped agents by 64 * agent + line of the region. -/
structure Vic where
  id : Nat := 0
  pipe : Nat := 0
  rgn : Bool := false
  line : Nat := 0
  g : Nat := 0
  pend : List Nat := []
  snooped : List Nat := []
  ndExp : Nat := 0
  ndGot : Nat := 0
  wr : Nat := 0
  deriving DecidableEq, Repr, Inhabited

/-- A region under conversion: split (Table 4.4) or release (R130). `map` is none until the RgnMap arrives; `todo` are
the lines whose entry is still to be allocated. -/
structure Split where
  g : Nat := 0
  holder : Nat := 0
  /-- The released region's slice and TXN, for the EvictAck; none for a split. -/
  rel : Option (Nat × Nat) := none
  part : Nat := 15
  txn : Nat := 0
  sent : Bool := false
  todo : List Nat := []
  ready : Bool := false
  deriving DecidableEq, Repr, Inhabited

/-- The cause of a refusal (R171). -/
inductive RqCause where
  | tracker | queued
  | set (line : Bool) (n : Nat)
  deriving DecidableEq, Repr, Inhabited

/-- A retry-queue entry (R172). -/
structure RqEnt where
  src : Nat := 0
  txn : Nat := 0
  part : Nat := 15
  sys : Bool := false
  /-- A tracker is assigned and the victim of the entry's set is leaving; the way it frees is held for the requester. -/
  busy : Bool := false
  cause : RqCause := .tracker
  deriving DecidableEq, Repr, Inhabited

/-- A home agent (R119, R170 to R176). -/
structure Home where
  reg : Map RegEnt := []
  lin : Map LineEnt := []
  trk : List Trk := []
  vic : List Vic := []
  split : List Split := []
  /-- Next tag. -/
  tag : Nat := 0
  rq : List RqEnt := []
  rsv : List RqEnt := []
  /-- Maps that came before their RgnRel, and the releases whose map is still to come and is ignored (R130, R236). -/
  maps : List Flit := []
  mapx : List (Nat × Nat) := []
  /-- Partitions whose domain is answered DOMAIN_OFF (R182, R325). -/
  off : Nat := 0
  tear : List Nat := []
  /-- Regions held for a page retirement (Table 8.11 step 3). -/
  hold : List Nat := []
  /-- The rotating pointer of both pipelines (R159). -/
  ptr : Nat := 0
  deriving DecidableEq, Repr, Inhabited

/-- A request of a home or the Strata engine at a memory controller: it is served in order for its line. `src` is the
home; `trk` the tracker it serves; `acks` are sent when a write is accepted. -/
structure MemReq where
  ha : Nat := 0
  trk : Option Nat := none
  vic : Option Nat := none
  pa : Nat := 0
  wr : Bool := false
  data : Line := 0
  poison : Bool := false
  acks : List Flit := []
  /-- Flit to send with the data of a read. -/
  rsp : Flit := {}
  /-- A poison write of the teardown of a partition (Table 5.4). -/
  tear : Option Nat := none
  /-- The location key, once the Strata engine has located the access (R278), or held on a chunk under copy (R285). -/
  loc : Option Nat := none
  held : Bool := false
  /-- The Strata engine has counted the access (R280, R292). -/
  cnt : Bool := false
  deriving DecidableEq, Repr, Inhabited

/-- The kinds of move of Table 8.7. -/
inductive MoveKind where
  | exchange | rotation | restore
  deriving DecidableEq, Repr, Inhabited

/-- A Strata move in progress: DDR granule `d` and HBM granule `f` (Dz and F′ of a restore), the other DDR granule `dy` of a
rotation, chunks copied, and the partition whose command started it (R284 to R288). -/
structure Move where
  kind : MoveKind := .exchange
  d : Nat := 0
  f : Nat := 0
  dy : Nat := 0
  ptr : Nat := 0
  cmd : Option Nat := none
  deriving DecidableEq, Repr, Inhabited

/-- A Strata engine beside its registers (R276 to R298): the table lines in its cache, promotion queue (nominal granules as
2 * granule + tier), moves, clock hand, moves started in the current millisecond, table lines being rebuilt (frame table,
line) and the retirement map, from tier * 2³⁰ + page to spare + 1. -/
structure Strata where
  cache : List Nat := []
  pq : List Nat := []
  moves : List Move := []
  hand : Nat := 0
  ms : Nat := 0
  started : Nat := 0
  rebuild : List (Bool × Nat) := []
  retire : Map Nat := []
  deriving DecidableEq, Repr, Inhabited

/-- A partition's running Strata command (R288): 0 PIN, 1 UNPIN, 2 PROMOTE, 3 RESTORE; `moving` once its move runs. -/
structure StrCmd where
  op : Nat := 0
  pa : Nat := 0
  moving : Bool := false
  deriving DecidableEq, Repr, Inhabited

/-- Partition states (Table 9.5). -/
inductive PState where
  | none | stopped | running | changing | down
  deriving DecidableEq, Repr, Inhabited

/-- A partition (R303, Table 9.6). -/
structure Part where
  st : PState := .none
  dies : Nat := 0
  rps : Nat := 0
  manager : Bool := false
  /-- Home agents that have not reported completion of the teardown in progress (R503). -/
  tearing : List Nat := []
  deriving DecidableEq, Repr, Inhabited

/-- A compute die as a whole: its partition assignment (R155), the gate on new off-die requests (Table 7.7), E4's command
buffer and running range invalidation (R85, Table 3.8), and the lock sweeps that run (R108). -/
structure Die where
  asg : Option Nat := none
  gate : Bool := false
  /-- Requests held at their source while the gate is closed. -/
  gateq : List Flit := []
  coxq : List CoxCmd := []
  /-- The die's copy of the timebase (R495). -/
  tbc : Nat := 0
  ri : Option RangeInv := none
  sweep : List Nat := []
  /-- The die is in D3 (R482); the step of an entry to D3 under way (Table 14.6; 0 none). -/
  d3 : Bool := false
  d3step : Nat := 0
  /-- The die has failed: only a reset of the die with a retrain mends it (R321, Table 9.10). -/
  failed : Bool := false
  /-- The thermal level of the Stroke unit (R481), its level after 1 ms at half duty, and rate calls missed (R479, R480). -/
  therm : Nat := 0
  slow : Nat := 0
  /-- Eighths of a µJ that `STK_ENERGY` does not show yet (R497). -/
  enFrac : Nat := 0
  deriving DecidableEq, Repr, Inhabited

/-- A message of the mailbox: its source (15 the system) and its 64 bytes (R328). -/
structure Mbx where
  src : Nat := 0
  data : Line := 0
  deriving DecidableEq, Repr, Inhabited

/-- Which partition sees each die's, root port's, VF's and manager's frames and windows: it changes only in a route epoch
switch (R307). Owners of dies and ports by number; a VF's owner plus 1. -/
structure Vis where
  dieP : List Nat := List.replicate 12 15
  rpP : List Nat := List.replicate 12 15
  mgr : Option Nat := none
  vfP : Map Nat := []
  /-- Probes granted: probe number to partition plus 1. -/
  probeP : Map Nat := []
  deriving DecidableEq, Repr, Inhabited

/-- A signal that a transmitter drives on a spare too, from its count T onward (R211, R212). -/
structure Mirror where
  sig : Nat := 0
  spare : Bool := false
  t : Nat := 0
  deriving DecidableEq, Repr, Inhabited

/-- One wire group at its receiving end (Table 6.17 and R207 to R213): what the last training found with the narrowest eye, the delay
codes of its signals and the temperature at which they were last found, the repairs in force, the signals the transmitter mirrors onto a
spare, and the count of corrections. -/
structure Wg where
  clkFail : Bool := false
  bad : List Nat := []
  sp0Bad : Bool := false
  sp1Bad : Bool := false
  rep0 : Nat := 0x3F
  rep1 : Nat := 0x3F
  eyeMin : Option Nat := none
  codes : Map Nat := []
  calT : Option Int := none
  cecnt : Nat := 0
  mirror : List Mirror := []
  deriving DecidableEq, Repr, Inhabited

/-- A run-time repair that the receiver of a wire group has asked for: signal, spare, switch count T, and whether the
REPAIR_ACK has come. `cal` marks a recalibration's, `back` its switch back (R211, R213). -/
structure RepPend where
  key : Nat := 0
  sig : Nat := 0
  spare : Bool := false
  t : Nat := 0
  acked : Bool := false
  cal : Bool := false
  back : Bool := false
  deriving DecidableEq, Repr, Inhabited

/-- A flit launched on the bridge: direction (`true` outbound), quarter, channel (R195), and the check-bit inversions that an injection
made on each lane (R223). -/
structure Fly where
  out : Bool := false
  q : Nat := 0
  ch : Nat := 0
  f : Flit := {}
  inj : List (Nat × Nat) := []
  deriving DecidableEq, Repr, Inhabited

/-- A sideband message on its way (Table 6.8). -/
structure SbMsg where
  up : Bool := false
  ty : Nat := 0
  body : Nat := 0
  deriving DecidableEq, Repr, Inhabited

/-- What an Agdel link keeps beside its registers: the widths that both ends hold (failed masks by 4 * DIR + quarter, and
the cut in force), training, wire groups by 96 * DIR + group, credits in use by pool, flits and messages in flight, and
the sideband levels (R186 to R229). -/
structure Link where
  maskI : List Nat := List.replicate 8 0
  maskD : List Nat := List.replicate 8 0
  cutI : Nat × Nat := (0x43218944A, 0x96CB4944A)
  cutD : Nat × Nat := (0x43218944A, 0x96CB4944A)
  genD : Nat := 0
  /-- Training: the step under way (0 none), the ends that completed it, groups newly found failed, reports that agree, and
  whether both ends have trained before. -/
  tstep : Nat := 0
  okI : Bool := false
  okD : Bool := false
  found : List Nat := List.replicate 8 0
  reps : Nat := 0
  /-- The start under way is warm: step 6 follows step 1 (R208). -/
  warm : Bool := false
  /-- Waking from LP: Table 6.12 is running. -/
  waking : Bool := false
  /-- Each end has agreed a width since its reset, so its channels are derived (R198, R227). -/
  setI : Bool := false
  setD : Bool := false
  /-- A PWR_REQ is unanswered (R217). -/
  pwr : Bool := false
  wg : Map Wg := []
  pend : List RepPend := []
  recal : List (Nat × Nat) := []
  cnt : Map Nat := []
  used : Map Nat := []
  ret : Map Nat := []
  /-- For each pool the nanosecond of its last launch and the flits launched in it, which give the next flit its channel (R195). -/
  slot : Map (Nat × Nat) := []
  fly : List Fly := []
  sb : List SbMsg := []
  unans : Map Nat := []
  /-- The REPAIRs without an answer: whether the die end sent it, and its body (R204). -/
  asked : List (Bool × Nat) := []
  missed : Nat := 0
  /-- Activity other than the pattern on the wake line that each end watches (R218). -/
  wakeIgn : Nat := 0
  wakeIgnD : Nat := 0
  l0at : Option Nat := none
  rstN : Bool := false
  isoN : Bool := true
  fatal : Bool := false
  therm : Bool := false
  /-- SB_PRESENT_N, tied low on the die (Table 6.7). -/
  presentN : Bool := false
  deriving DecidableEq, Repr, Inhabited

/-- The route set that the Cox wrote into one bank of every network interface: the reach it gives each partition by the
layout of that moment (R240 to R243, R307). `written` is false for a bank that holds no route. -/
structure RouteSet where
  written : Bool := false
  vis : Vis := {}
  /-- Stops that no route leads to or through. -/
  shut : List Nat := []
  /-- The RP stop that entry 96 of every NI leads to, when the package has a pair port. -/
  pair : Option Nat := none
  deriving DecidableEq, Repr, Inhabited

/-- One probe's trace record (Table 7.10), as its four words. -/
structure TrcRec where
  time : Word := 0
  at_ : Word := 0
  lo : Word := 0
  hi : Word := 0
  deriving DecidableEq, Repr, Inhabited

/-- The fabric beside its registers: the route sets of banks 0 and 1, single entries written since (by bank * 16384 +
stop * 128 + entry), the SYS 1 flits on the I/O die (R245), and those an NI holds (R247, R255). -/
structure Fab where
  set0 : RouteSet := {}
  set1 : RouteSet := {}
  ents : Map Word := []
  held : List (Nat × Flit) := []
  deriving DecidableEq, Repr, Inhabited



/-- One interrupt file of a hart's IMSIC: pending and enable arrays, `eidelivery`, `eithreshold`, and the identity last
sent to the core (R347, R349). -/
structure Imsic where
  pend : Nat := 0
  en : Nat := 0
  deliv : Nat := 0
  thr : Nat := 0
  sent : Nat := 0
  deriving DecidableEq, Repr, Inhabited

/-- A domain of an APLIC (R350): delivery enable, `sourcecfg` and `target` by source, pending and enable arrays. -/
structure AplDom where
  ie : Bool := false
  cfg : Map Nat := []
  tgt : Map Nat := []
  pend : Nat := 0
  en : Nat := 0
  deriving DecidableEq, Repr, Inhabited

/-- APLIC of a partition: the M-level domain, its S-level child, and the levels of the wired sources. -/
structure Aplic where
  m : AplDom := {}
  sup : AplDom := {}
  wire : Nat := 0
  deriving DecidableEq, Repr, Inhabited

/-- UART1 beside its line: the 16550 registers 1, 3, 4 and 7, the divisor, and the received bytes (R562). -/
structure Uart where
  ier : Nat := 0
  fcr : Nat := 0
  lcr : Nat := 0
  mcr : Nat := 0
  scr : Nat := 0
  dl : Nat := 0
  rx : List Nat := []
  tx : List Nat := []
  deriving DecidableEq, Repr, Inhabited

/-- An Agdel port (by number) or root port (16 + number) of the I/O die: its fence, parking and open requests (R250 to
R258). `soft` is a soft fence under way. -/
structure Port where
  fenced : Bool := false
  soft : Bool := false
  /-- Open requests: agent, and 2 * TXN, plus 1 for one that ends with CompAck (R250). -/
  opentx : List (Nat × Nat) := []
  park : List Flit := []
  /-- The parking buffer is in use (R254) and holds arrivals until it has drained. -/
  parking : Bool := false
  /-- Flits that wait for room in the full parking buffer (R255). -/
  wait : List Flit := []
  /-- The die is retired (R258). -/
  retired : Bool := false
  deriving DecidableEq, Repr, Inhabited

/-- What a root port has sent to the devices below it: the completion of an inbound request, an outbound request, an answer
or a snoop on CXL.cache, a CXL.mem request, an ATS answer, or the levels of a slot's pins. The model's own record of the
port's output. -/
inductive DevMsg where
  | cpl (link tag : Nat) (ok poison : Bool) (val : Nat)
  | req (link tag : Nat) (cfg wr : Bool) (addr size val : Nat)
  | go (pa st : Nat) (data : Option (Line × Bool))
  | snp (pa : Nat) (cur : Bool)
  | ats (rid iova : Nat) (xl : Option Nat)
  | slot (link : Nat) (ctl : Nat)
  | blk (rid : Nat) (wr : Bool) (first cnt : Nat) (pages : List Nat)
  deriving DecidableEq, Repr, Inhabited

/-- What the part of an inbound TLP on one line asks for: a whole-line write, a partial write, an AtomicOp, bits
set (the Boathouse's dirty log), a read, an MSI,
or nothing (a zero-length read). -/
inductive RpKind where
  | wfull | wpart | atom | setb | read | msi | zlr
  deriving DecidableEq, Repr, Inhabited

/-- The part of an inbound TLP on one line. `dst` is the interrupt controller of an MSI. -/
structure RpOp where
  seq : Nat := 0
  part : Nat := 15
  link : Nat := 0
  kind : RpKind := .read
  pa : Nat := 0
  size : Nat := 64
  /-- Where its bytes stand in the TLP. -/
  at_ : Nat := 0
  mask : BitVec 64 := 0
  data : Line := 0
  poison : Bool := false
  op : AtomOp := .swap
  opnd : Nat := 0
  cmp : Nat := 0
  relaxed : Bool := false
  txn : Option Nat := none
  dst : Nat := 0
  /-- Queued before a home snoop of its line that the CXL.cache device is answering (R180). -/
  ahead : Bool := false
  deriving DecidableEq, Repr, Inhabited

/-- An inbound TLP that is not complete: `left` parts are, `dead` since its link went down (R353). -/
structure RpTlp where
  seq : Nat := 0
  link : Nat := 0
  posted : Bool := false
  tag : Nat := 0
  left : Nat := 0
  ur : Bool := false
  ep : Bool := false
  val : Nat := 0
  dead : Bool := false
  deriving DecidableEq, Repr, Inhabited

/-- A line that a root port asks for with RdOwn, for its partial writes and AtomicOps (R151, R181). -/
structure RpLine where
  line : Nat := 0
  part : Nat := 15
  txn : Nat := 0
  gotData : Bool := false
  gotComp : Bool := false
  st : St := .i
  data : Line := 0
  poison : Bool := false
  deriving DecidableEq, Repr, Inhabited

/-- An open request of a CXL.cache device: message number in Table 10.6 (0 RdCurr to 6 CleanEvict), its TXN when sent. -/
structure CxlReq where
  op : Nat := 0
  pa : Nat := 0
  data : Line := 0
  poison : Bool := false
  txn : Option Nat := none
  gotData : Bool := false
  gotComp : Bool := false
  val : Line := 0
  valP : Bool := false
  deriving DecidableEq, Repr, Inhabited

/-- An outbound request of a root port that waits for its completion (R336). -/
structure OutReq where
  tag : Nat := 0
  link : Nat := 0
  f : Flit := {}
  deriving DecidableEq, Repr, Inhabited

/-- A link of a root port: `RP_STAT`, and the slot's registers and sampled pins (R351, R354). -/
structure RpLink where
  speed : Nat := 0
  width : Nat := 0
  dlup : Bool := false
  present : Bool := false
  dpc : Bool := false
  cxl : Bool := false
  slotSta : Nat := 0
  pins : Nat := 0
  deriving DecidableEq, Repr, Inhabited

/-- A root port beside its registers (R332 to R354), or, as numbers 16 to 19, the data mover of a Boathouse stop, which reaches
memory in the same way (R369). -/
structure Rp where
  links : List RpLink := List.replicate 4 {}
  seq : Nat := 0
  tlps : List RpTlp := []
  ops : List RpOp := []
  lines : List RpLine := []
  wb : List WbEnt := []
  /-- Parts that end with the EvictAck of a line announced: TXN and TLP. -/
  acks : List (Nat × Nat) := []
  /-- Requests sent to homes and not complete, kept for a CreditGrant (R173). -/
  reqs : List Flit := []
  /-- Requests that a home refused: TXN, home, and 0 not queued there (R175), 1 queued, 2 sent again with RSV. -/
  refused : List (Nat × Nat × Nat) := []
  out : List OutReq := []
  outq : List Flit := []
  /-- CXL.cache: lines held for the device in grant order, open requests, and home snoops that the device is answering. -/
  cxl : List Nat := []
  cxlReq : List CxlReq := []
  csnp : List Flit := []
  recl : List Nat := []
  /-- The IOMMU instance's registers by offset, and the configuration registers of the link functions by 4096 * link +
  offset. -/
  iommu : Map Word := []
  cfg : Map Nat := []
  dev : List DevMsg := []
  deriving DecidableEq, Repr, Inhabited

/-- Pair states of a partition (Table 12.2). -/
inductive PairSt where
  | off | alone | syncActive | syncShadow | active | shadow | held | gone
  deriving DecidableEq, Repr, Inhabited

/-- What a package keeps for a protected partition beside its pair state (R412 to R436). -/
structure PairP where
  /-- Protected by the Race Card (PAIRPROT), and with a counterpart on the partner (R411). -/
  prot : Bool := false
  matched : Bool := false
  /-- Epoch to which a frame sent now belongs (R420). -/
  epoch : Nat := 0
  /-- Step of Table 12.3 under way, and the targets of CKPT that have not reported: dies 0 to 11, root ports 16 + r, 32 the
  Boathouse. `told` are the targets that CKPT has not reached yet. -/
  close : Nat := 0
  told : List Nat := []
  todo : List Nat := []
  /-- The writers are held after the close (R418, R435); the root ports that were fenced for it. -/
  hold : Bool := false
  fenced : List Nat := []
  switching : Bool := false
  unprot : Bool := false
  /-- Lines and namespaces still to be copied by a resync (R436): slabs, and NSIDs. -/
  bulk : List Nat := []
  blk : List Nat := []
  bulkAt : Nat := 0
  blkAt : Nat := 0
  /-- Shadow side: BULK frames received. -/
  bulkGot : Nat := 0
  /-- Shadow side: streams and epochs whose EPOCH_END has arrived, the last epoch committed and applied here, D of R433, and
  the step of Table 12.4 under way. -/
  ended : List (Nat × Nat) := []
  com : Nat := 0
  delta : Nat := 0
  take : Nat := 0
  deriving DecidableEq, Repr, Inhabited

/-- The pair link and its logs (R407 to R418). -/
structure Pair where
  /-- Both crosslinks have been reported down (R426). -/
  lost : Bool := true
  /-- Frames not yet sent, oldest first; frames sent of epochs not committed; frames received and not applied. -/
  send : List PairFrame := []
  sent : List PairFrame := []
  recv : List PairFrame := []
  /-- What the package has sent, with the crosslink: the model's own record of its output. -/
  out : List (Nat × PairFrame) := []
  /-- HELLOs sent (R411), and whether they go on. -/
  hellos : Nat := 0
  helloOn : Bool := false
  /-- Race Card parameter PAIRID (R411). -/
  id : Word := 0
  /-- Bytes of resync reads that SYNCRATE allows and that are not yet used. -/
  credit : Nat := 0
  /-- The send log stopped the writers (R418). -/
  full : Bool := false
  deriving DecidableEq, Repr, Inhabited

/-- A procedure that the Cox runs: a manager command, or one of its own. `step` is how far it has come. -/
structure Proc where
  op : Nat := 0
  c : MgrCmd := {}
  id : DriveId := {}
  step : Nat := 0
  p : Nat := 0
  d : Nat := 0
  n : Nat := 0
  l : List Nat := []
  /-- A step has failed or exceeded its bound. -/
  bad : Bool := false
  deriving DecidableEq, Repr, Inhabited

/-- The Cox's work (R310): the manager command that runs, those that wait, and the procedures that run beside them. -/
structure Cox where
  cur : Option Proc := none
  queue : List Proc := []
  bg : List Proc := []
  /-- CoxCmds that wait because 8 are outstanding at their E4 (R85). -/
  cmds : List Flit := []
  /-- The standby lockstep pair has failed; both pairs have (Table 15.3). -/
  standbyBad : Bool := false
  dead : Bool := false
  /-- An activation of new Cox firmware runs: fault records stay latched and commands wait (R466). -/
  swap : Bool := false
  deriving DecidableEq, Repr, Inhabited

/-- A backing drive of the Boathouse (R373): its root port and routing ID, its blocks of 4 KiB, and whether it has failed. -/
structure Drive where
  rp : Nat := 16
  rid : Nat := 0
  blocks : Nat := 0
  lost : Bool := false
  deriving DecidableEq, Repr, Inhabited

/-- A pool range: blocks of one drive given to a partition (R397). -/
structure Pool where
  part : Nat := 15
  drv : Nat := 0
  first : Nat := 0
  count : Nat := 0
  deriving DecidableEq, Repr, Inhabited

/-- A namespace (R375): owner, format, size in 4 KiB blocks, NSUID, and the blocks that hold its span directory and the map
block of each span, by `drive * 2 ^ 40 + block`. -/
structure NsDef where
  part : Nat := 15
  fmt4k : Bool := true
  size : Nat := 0
  nsuid : Nat := 0
  dir : List Nat := []
  maps : List Nat := []
  deriving DecidableEq, Repr, Inhabited

/-- A map block as the Boathouse holds it (Table 11.5): SEQ, and for each mapped block of the span its location plus 1. -/
structure MapBlk where
  seq : Nat := 0
  ents : Map Nat := []
  deriving DecidableEq, Repr, Inhabited

/-- A copy of the catalogue in the reserved blocks of a drive (R374). -/
structure CatCopy where
  seq : Nat := 0
  drives : Map Drive := []
  pools : Map Pool := []
  nss : Map NsDef := []
  deriving DecidableEq, Repr, Inhabited

/-- A completion queue of a VF: base, entries, tail (next entry to write), head (last doorbell), phase of the entries to
write, interrupts enabled, vector, and the physical pages of the queue. -/
structure Cq where
  base : Nat := 0
  size : Nat := 0
  tail : Nat := 0
  head : Nat := 0
  phase : Bool := true
  ien : Bool := true
  iv : Nat := 0
  pages : List (Option Nat) := []
  deriving DecidableEq, Repr, Inhabited

/-- A submission queue of a VF: base, entries, head (next entry to fetch), tail (last doorbell) and completion queue. -/
structure Sq where
  base : Nat := 0
  size : Nat := 0
  head : Nat := 0
  tail : Nat := 0
  cq : Nat := 0
  pages : List (Option Nat) := []
  deriving DecidableEq, Repr, Inhabited

/-- An entry of the Error Information log. -/
structure ErrEnt where
  n : Nat := 0
  q : Nat := 0
  cid : Nat := 0
  status : Nat := 0
  lba : Nat := 0
  nsid : Nat := 0
  deriving DecidableEq, Repr, Inhabited

/-- A completion that waits for its entry to be written: command queue, identifier, status, dword 0, the slot it frees
(none for an Asynchronous Event Request), and the epoch it belongs to (R423). -/
structure Cpl where
  q : Nat := 0
  cid : Nat := 0
  status : Nat := 0
  dw0 : Nat := 0
  slot : Option Nat := none
  epoch : Nat := 0
  deriving DecidableEq, Repr, Inhabited

/-- A virtual function (R364 to R371, R384 to R404). -/
structure Vf where
  owner : Nat := 15
  nqp : Nat := 1
  share : Nat := 1
  guar : Nat := 0
  frozen : Bool := false
  ns : List Nat := []
  cfg : Map Nat := []
  cc : Nat := 0
  rdy : Bool := false
  cfs : Bool := false
  shst : Nat := 0
  aqa : Nat := 0
  asq : Nat := 0
  acq : Nat := 0
  /-- CC.EN has been cleared and commands are still to complete (Table 11.7). -/
  resetting : Bool := false
  sqs : Map Sq := []
  cqs : Map Cq := []
  /-- Completions that wait, for each completion queue, oldest first. -/
  cpls : Map (List Cpl) := []
  /-- Asynchronous Event Requests fetched and not yet taken; outstanding ones; events that wait for one. -/
  aerIn : List Nat := []
  aers : List Nat := []
  events : List Nat := []
  arb : Nat := 0
  coal : Nat := 0
  ivc : Map Nat := []
  aec : Nat := 0
  ps : Nat := 0
  /-- The VF is non-operational; the entry to PS1 is under way; a command arrived during the entry (R394). -/
  ps1 : Bool := false
  ps1Entry : Bool := false
  wake : Bool := false
  msix : Map Nat := []
  pba : Nat := 0
  /-- Messages that coalescing holds, by vector. -/
  irqs : Map Nat := []
  chg : List Nat := []
  errs : List ErrEnt := []
  errN : Nat := 0
  /-- The dirty log: address, BASE and PAGES (R404). -/
  dlog : Option Nat := none
  dlBase : Nat := 0
  dlPages : Nat := 0
  /-- The I/O submission queue served last (R386). -/
  rr : Nat := 0
  deriving DecidableEq, Repr, Inhabited

/-- Where a command stands: admitted and waiting for locks or for its own row; reading map blocks; gathering its data;
writing shadow extents; joined to commits; delivering data; complete. `drain` waits for a queue's commands. -/
inductive SlotPh where
  | start | map | data | shadow | commit | deliver | flush | drain | post
  deriving DecidableEq, Repr, Inhabited

/-- A backing command that has not completed: drive, block, number of blocks, direction, where its data stands in the slot's
image, the span of a map-block read, and the window pages bound for it. -/
structure Bcmd where
  id : Nat := 0
  drv : Nat := 0
  blk : Nat := 0
  cnt : Nat := 1
  wr : Bool := false
  at_ : Nat := 0
  map : Option Nat := none
  pages : List Nat := []
  deriving DecidableEq, Repr, Inhabited

/-- A command slot (R384); slots 8192 + v are the VFs' admin slots. -/
structure Slot where
  n : Nat := 0
  seq : Nat := 0
  vf : Nat := 0
  q : Nat := 0
  e : Sqe := {}
  started : Bool := false
  locks : Bool := true
  ph : SlotPh := .start
  /-- An FLR has met it: nothing reaches partition memory (Table 11.7). -/
  drop : Bool := false
  status : Nat := 0
  dw0 : Nat := 0
  /-- Host data, and the image of the 4 KiB blocks that the command touches, little-endian. -/
  buf : Nat := 0
  img : Nat := 0
  len : Nat := 0
  bcs : List Bcmd := []
  /-- Map blocks read for the command, until it ends. -/
  got : List Nat := []
  /-- Host reads outstanding, and the engine's numbers of the host writes outstanding. -/
  reads : Nat := 0
  wr : List Nat := []
  /-- Shadow blocks by block of the namespace, blocks to unmap, and the spans whose commit is outstanding. -/
  shadow : List (Nat × Nat) := []
  unmap : List Nat := []
  spans : List Nat := []
  /-- A write of the pair's (VF 1024): the epoch whose commit it waits for (R424). -/
  gate : Option Nat := none
  deriving DecidableEq, Repr, Inhabited

/-- The commits of a map block (Table 11.6 step 3): the slots that the running one carries, and those that wait. -/
structure Commit where
  run : List Nat := []
  next : List Nat := []
  page : Nat := 0
  deriving DecidableEq, Repr, Inhabited

/-- The target of a bound window page (R396): a page of the VF's owner at an offset of its I/O virtual address; a page of a
slot's image; the map block of a span. -/
inductive BindTo where
  | host (pa iova : Nat)
  | img (at_ : Nat)
  | map (key : Nat)
  deriving DecidableEq, Repr, Inhabited

/-- A binding of the proxy window. `wr` is set when the drive writes. -/
structure Bind where
  rp : Nat := 16
  rid : Nat := 0
  wr : Bool := false
  slot : Nat := 0
  dest : BindTo := .img 0
  deriving DecidableEq, Repr, Inhabited

/-- A write of a VF that the data mover has not finished: engine and its number; the slot that a completion entry frees; the
page of I/O virtual address to log; a completion entry. -/
structure WrEnt where
  eng : Nat := 16
  seq : Nat := 0
  vf : Nat := 0
  slot : Option Nat := none
  page : Option Nat := none
  cqe : Bool := false
  deriving DecidableEq, Repr, Inhabited

/-- The Boathouse (chapter 11). Spans are numbered nsid * 2 ^ 32 + span. -/
structure Bh where
  /-- First slab of the Boathouse slab set (R362). -/
  slab : Option Nat := none
  ready : Bool := false
  pause : Bool := false
  pools : Map Pool := []
  nss : Map NsDef := []
  nsuid : Nat := 0
  catSeq : Nat := 0
  /-- Blocks in use, by `drive * 2 ^ 40 + block`, with the NSID plus 1. -/
  alloc : Map Nat := []
  /-- The map-block cache, and the order of use of its blocks, oldest first. -/
  maps : Map MapBlk := []
  mapUse : List Nat := []
  /-- Bytes of the map blocks being read. -/
  mapIn : Map Nat := []
  lostSp : List Nat := []
  unready : List Nat := []
  commits : Map Commit := []
  vfs : Map Vf := []
  slots : List Slot := []
  seq : Nat := 0
  rot : Nat := 1023
  binds : Map Bind := []
  bcId : Nat := 0
  wrq : List WrEnt := []
  /-- What a BH_VF_RESTORE has read of its image. -/
  image : Nat := 0
  imageLeft : Nat := 0
  imageBad : Bool := false
  /-- BLK data received from the partner and not yet a whole run (R424): partition, epoch, NSID, first byte, bytes, data. -/
  blkIn : Option (Nat × Nat × Nat × Nat × Nat × Nat) := none
  deriving DecidableEq, Repr, Inhabited

/-- An entry of the start log (R444): kind (1 cold, 2 warm, 3 an FW_ACTIVATE), slot in force (3 the recovery flash), step
reached and failure code (0 for none). -/
structure StartEnt where
  kind : Nat := 0
  slot : Nat := 0
  step : Nat := 0
  code : Nat := 0
  deriving DecidableEq, Repr, Inhabited

/-- A start under way (Table 13.10): last step completed, the image in use (slots 0 to 2 of CS0, 4 to 6 of CS1), images tried,
and the next record of LAYOUT. `run` says that its command runs, `res` holds the result plus 1, `code` the code of the last image that
failed; `sw` says that the routes are switched; `was` lists the partitions whose boot hart step 16 of a warm start starts. -/
structure Start where
  warm : Bool := false
  step : Nat := 0
  img : Nat := 0
  tried : List Nat := []
  trial : Bool := false
  fallback : Bool := false
  failStep : Nat := 0
  rec_ : Nat := 0
  run : Bool := false
  res : Nat := 0
  code : Nat := 0
  sw : Bool := false
  was : List Nat := []
  deriving DecidableEq, Repr, Inhabited

/-- The Race Card and the package's start (chapter 13), the power and thermal readings that no register stores (R500, R578),
and the test access port (R359). -/
structure Card where
  /-- The flash devices by byte; CS1 may be absent (R443). -/
  cs0 : List Host.Cell := []
  cs1 : Option (List Host.Cell) := none
  /-- The contents of the flash devices have come with the first start (the model's own). -/
  known : Bool := false
  /-- Image in force (R451), and the start log. -/
  inForce : Nat := 0
  log : List StartEnt := []
  /-- SVN floor raised since the factory (Table 13.13). -/
  svn : Nat := 0
  /-- Parameters in force that CONFIG gave (Table 13.6). -/
  params : Map Word := []
  /-- Staging window of the management endpoint (Table 10.10). -/
  stage : List Host.Cell := []
  start : Option Start := none
  /-- What the last cold start found (R265, R373). -/
  hw : Hw := {}
  /-- A start has completed; a start stopped after its harvest, or every image failed: only the fault window and reads are
  served (R454, R530). -/
  up : Bool := false
  stopped : Bool := false
  /-- No image could be started: held in reset until power is removed (R454). -/
  held : Bool := false
  /-- A warm start waits for PKG_RST_N to rise, or for the start under way to end (R570). -/
  rstHeld : Bool := false
  rstLater : Bool := false
  /-- Window length in force, in µs (R543). -/
  winLen : Nat := 100
  /-- Self-test that runs: manager, code and target (R462). -/
  test : Option (Nat × Nat × Nat) := none
  /-- Temperatures by 16 * die + sensor (die 12 the I/O die, 13 to 16 the HBM stacks), in 0.0625 °C from -2048 °C; voltage and
  current of each rail as AVSBus last reported them (R500). -/
  temp : Map Nat := []
  rail : Map Nat := []
  /-- Rail rises that the PPA awaits: die, to level plus 1 (R474). -/
  railTo : Map Nat := []
  /-- SEQ of the last rate call to each die; the SEQ that its Stroke unit last took; the body of the last DEMAND plus 1 (R476 to
  R478). -/
  rcSeq : Map Nat := []
  strokeSeq : Map Nat := []
  dem : Map Nat := []
  /-- Time before which a die tries no entry to D3 again (R487); in K3 (R489). -/
  d3wait : Map Nat := []
  k3 : Bool := false
  /-- Data of the completion of the BMC's last read of BAR0 (R355). -/
  bmcAns : Option Word := none
  /-- The TAP's instruction, the value that its data register captured, and the dies that the boundary-scan chain passes by
(R359). -/
  tapIr : TapIr := .idcode
  tapDr : Word := 0x20576E53
  tapBy : List Nat := []
  /-- Every root PLL is stopped after a catastrophic temperature (R577). -/
  dark : Bool := false
  deriving DecidableEq, Repr, Inhabited

/-- The state of the package. Every field holds what the specification gives the block, but for `pending` (the
commands that wait), `free` (how many free values have been drawn) and `done` lists, which are the model's own. -/
structure State where
  /-- The commands that wait, first in, first out. -/
  pending : List Instr := []
  /-- How many free values have been drawn (the model's own). -/
  free : Nat := 0
  /-- The flits in flight between agents (R80, R233). -/
  wires : List Flit := []
  /-- The registers of the DRS that differ from their reset value, by frame * 65536 + offset (R545). -/
  regs : Map Word := []
  /-- The RWL lock is released (R554). -/
  lockOpen : Bool := true
  /-- The harts by number (R21). -/
  harts : Map Hart := []
  /-- The slices by 24 * die + slice (R79). -/
  slices : Map Slice := []
  /-- The compute dies (R17). -/
  dies : Map Die := []
  /-- The home agents (R119). -/
  homes : Map Home := []
  /-- Requests at the memory controllers, in the order of the homes (R273). -/
  memq : List MemReq := []
  /-- The bytes of the memory devices by location (R270, R273). -/
  mem : List Host.Cell := []
  /-- Lines stored with POISON, by location / 64 (R294). -/
  poison : Map Bool := []
  /-- The slab table (R267). -/
  slab : Map Nat := []
  /-- The old entries of an update that copies still hold (R274). -/
  slabOld : List (Nat × Nat) := []
  /-- Agents whose copy has switched. -/
  slabSw : List Nat := []
  /-- The partitions (R303). -/
  parts : Map Part := []
  /-- The Cox's ring, incidents and partition fault queues (R515 to R521). -/
  flt : FltState := {}
  /-- Levels of the pins (chapter 18). -/
  pins : Pins := {}
  /-- The package timebase in ns (R494). -/
  tb : Nat := 0
  /-- Agdel ports (0 to 11) and root ports (16 + r) as fence points (R250 to R258). -/
  ports : Map Port := []
  /-- What each partition sees, by the route epoch in force (R307). -/
  vis : Vis := {}
  /-- DDR device slabs of each group: N of R266. -/
  ddrSlabs : Map Nat := []
  /-- Groups whose DDR is offline or has failed (R265, R300). -/
  ddrOff : Map Bool := []
  /-- The pair state of each partition (Table 12.2). -/
  pairSt : Map PairSt := []
  /-- The Strata engines by group (R276). -/
  strata : Map Strata := []
  /-- The Strata command that each partition runs (R288). -/
  strCmd : Map (Option StrCmd) := []
  /-- Writes of `MEM_SETCMD` (`true`) and `MEM_SLABENT` that wait for BUSY to read 0 (R274). -/
  slabWait : List (Bool × Nat) := []
  /-- Times of the corrected errors of the last 24 hours in each DRAM row (R297). -/
  rowCe : Map (List Nat) := []
  /-- Rows queued for hard PPR at the next cold start (R297). -/
  pprq : List Nat := []
  /-- Inbound message queues of the partitions, oldest first (R328). -/
  mbx : Map (List Mbx) := []
  /-- System messages that wait for a slot of a full queue (R330). -/
  mbxSys : List (Nat × Line) := []
  /-- The Agdel links by die (R186). -/
  links : Map Link := []
  /-- The I/O-die fabric (R240 to R248). -/
  fab : Fab := {}
  /-- SYS 1 flits routed and not yet ejected on the I/O die (R245). -/
  live : List Flit := []
  /-- The trace records of each probe, oldest first (R262). -/
  trace : Map (List TrcRec) := []
  /-- VENDOR and DIETYPE that the Race Card expects at each position (R204, R207). -/
  dieIds : List (Nat × Nat) := List.replicate 12 (0x0A53, 0x0576)
  /-- Race Card parameter UART1: the partition that owns UART1, 15 for none (R562). -/
  uart1 : Nat := 15
  /-- Race Card parameters GPIOLO and GPIOHI: four bits for each pin (R562). -/
  gpioOwn : Nat := 2 ^ 128 - 1
  /-- The 12 × 12 mail matrix: bit q of row p lets p send to q (R329). -/
  mailMx : List Nat := List.replicate 12 0
  /-- The BMC holds the manager role (R309). -/
  bmcMgr : Bool := false
  /-- Interrupt files by 16 * hart + file: 0 M-level, 1 S-level, 1 + g guest file g (R347). -/
  imsic : Map Imsic := []
  /-- The APLICs by partition (R350). -/
  aplic : Map Aplic := []
  /-- UART1 (R562). -/
  uart : Uart := {}
  /-- Levels at the GPIO pins (R358, R562). -/
  gpioIn : Nat := 0
  /-- GPIO changes reported to the Cox, oldest first (R562). -/
  gpioRep : List (Nat × Bool) := []
  /-- MSI-X writes that the management endpoint has made, by vector (R355). -/
  msix : Map Nat := []
  /-- Hot-plug and link events that the Cox has reported to the manager: root port and link (R352). -/
  reports : List (Nat × Nat) := []
  /-- The root ports (R332) and, from 16 up, the data movers of the Boathouse stops (R369). -/
  rps : Map Rp := []
  /-- The pair's records of each partition (chapter 12). -/
  pairP : Map PairP := []
  /-- The pair link and its logs (R407 to R418). -/
  pair : Pair := {}
  /-- The manager commands and procedures of the Cox (R310). -/
  cox : Cox := {}
  /-- The attached backing drives by index (R373). -/
  drives : Map Drive := []
  /-- The Boathouse (chapter 11). -/
  bh : Bh := {}
  /-- Catalogue copies on the drives, by root port * 65536 + routing ID: the drives keep them without power (R374). -/
  catCopies : Map CatCopy := []
  /-- The Race Card, the start and the power readings (chapters 13, 14 and 18). -/
  card : Card := {}
  deriving DecidableEq, Repr, Inhabited

/-- Why a step stops the machine. -/
inductive Fault where
  /-- A memory request names a location outside the devices of its group (R266: no such cell exists). Raised by
  `MEMORY_READ` and `MEMORY_WRITE`; safe, because the specification gives the access no effect. -/
  | noCell
  deriving DecidableEq, Repr, Inhabited

/-- Why a command has no meaning here. -/
inductive Refusal where
  /-- No meaning has been written for the command of this mnemonic; raised by an arm of `exec` only; safe. -/
  | notModelled (mnemonic : String)
  deriving DecidableEq, Repr, Inhabited

/-- The machine right after reset: no power is good yet, every register at its reset value, every table empty, nothing
in flight and no command waiting (R565 to R571, Table 17.3). A cold start begins with the command `PWROK_RISE`. -/
def State.reset : State := {}

/-- What a command answers. -/
abbrev Out := Host.Outcome State Fault Refusal

end Sys2Proof.Machine
end

