-- ==== Sys2Proof/Machine/Ops.lean ====
section
/-! DEFINITION. The operations every family shares: units of the state, free values, registers, partitions and the
slab table, error records, and flits.
Log entries with the choices and readings made here: 11, 35, 57, 122, 123, 124, 166, 187. -/

namespace Sys2Proof.Machine

/-! ### Units of the state -/

/-- Hart `h`. -/
def hart (s : State) (h : Nat) : Hart := mget s.harts h
/-- Change hart `h`. -/
def updHart (h : Nat) (g : Hart → Hart) (s : State) : State := { s with harts := mupd s.harts h g }
/-- Slice `k` of die `d`. -/
def slice (s : State) (d k : Nat) : Slice := mget s.slices (24 * d + k)
/-- Change slice `k` of die `d`. -/
def updSlice (d k : Nat) (g : Slice → Slice) (s : State) : State := { s with slices := mupd s.slices (24 * d + k) g }
/-- Compute die `d`. -/
def die (s : State) (d : Nat) : Die := mget s.dies d
/-- Change compute die `d`. -/
def updDie (d : Nat) (g : Die → Die) (s : State) : State := { s with dies := mupd s.dies d g }
/-- Home agent `n`. -/
def home (s : State) (n : Nat) : Home := mget s.homes n
/-- Change home agent `n`. -/
def updHome (n : Nat) (g : Home → Home) (s : State) : State := { s with homes := mupd s.homes n g }
/-- Partition `p`. -/
def part (s : State) (p : Nat) : Part := mget s.parts p
/-- Change partition `p`. -/
def updPart (p : Nat) (g : Part → Part) (s : State) : State := { s with parts := mupd s.parts p g }
/-- Port `n`: an Agdel port, or 16 + `r` for a root port. -/
def port (s : State) (n : Nat) : Port := mget s.ports n
/-- Change port `n`. -/
def updPort (n : Nat) (g : Port → Port) (s : State) : State := { s with ports := mupd s.ports n g }

/-! ### Free values -/

/-- Draw a free number. -/
def drawNat (s : State) : Nat × State := (Config.freeNat s.free, { s with free := s.free + 1 })
/-- Draw a free word. -/
def drawWord (s : State) : Word × State := (Config.freeWord s.free, { s with free := s.free + 1 })
/-- Draw a choice that the device makes. -/
def drawBool (s : State) : Bool × State := (Config.freeBool s.free, { s with free := s.free + 1 })

/-! ### Registers -/

/-- Key of a register in `regs`. -/
def regKey (f off : Nat) : Nat := f * 65536 + off
/-- The stored value of a register: its reset value when no other is listed. -/
def reg (s : State) (f off : Nat) : Word :=
  (mfind s.regs (regKey f off)).getD (BitVec.ofNat 64 (resetWord (fieldsAt f off)))
/-- Store a register, keeping the table canonical. -/
def setReg (f off : Nat) (v : Word) (s : State) : State :=
  { s with regs :=
      if v = BitVec.ofNat 64 (resetWord (fieldsAt f off)) then mdel s.regs (regKey f off)
      else mins s.regs (regKey f off) v }
/-- Bits `[lo+w-1:lo]` of a stored register. -/
def fld (s : State) (f off lo w : Nat) : Nat := bits (reg s f off).toNat lo w
/-- One bit of a stored register. -/
def fbit (s : State) (f off i : Nat) : Bool := (reg s f off).getLsbD i
/-- Write bits of a stored register, as the device does. -/
def setFld (f off lo w v : Nat) (s : State) : State :=
  setReg f off (BitVec.ofNat 64 (setBits (reg s f off).toNat lo w v)) s
/-- Set one bit of a stored register. -/
def setBit (f off i : Nat) (s : State) : State := setFld f off i 1 1 s
/-- Clear one bit of a stored register. -/
def clrBit (f off i : Nat) (s : State) : State := setFld f off i 1 0 s
/-- Add to a field that saturates. -/
def addSat (f off lo w n : Nat) (s : State) : State :=
  setFld f off lo w (min (fld s f off lo w + n) (2 ^ w - 1)) s
/-- Add to a register that wraps at 2⁶⁴. -/
def addWrap (f off n : Nat) (s : State) : State := setReg f off (reg s f off + BitVec.ofNat 64 n) s
/-- Count `n` events in counter `i` of a frame's counter block (R539). -/
def count (f i n : Nat) (s : State) : State := addWrap f (0x800 + 8 * i) n s

/-- The stored registers of the frames `inScope` lose their fields of the classes `lost` (R555, R556). -/
def loseRegs (inScope : Nat → Bool) (lost : List Ret) (s : State) : State :=
  s.regs.foldl (fun t e =>
    let f := e.1 / 65536
    let off := e.1 % 65536
    if inScope f then setReg f off (BitVec.ofNat 64 (loseFlds lost (fieldsAt f off) e.2.toNat)) t else t) s

/-! ### Partitions and memory ownership -/

/-- Does partition `p` own compute die `d`? -/
def ownsDie (s : State) (p d : Nat) : Bool := bit (part s p).dies d
/-- Does partition `p` own root port `r`? -/
def ownsRp (s : State) (p r : Nat) : Bool := bit (part s p).rps r
/-- The partition that a die is assigned to; 15 for none (R155). -/
def diePart (s : State) (d : Nat) : Nat := ((die s d).asg).getD 15
/-- The partition that owns root port `r`; 15 for none. -/
def rpPart (s : State) (r : Nat) : Nat := ((List.range 12).find? (fun p => ownsRp s p r)).getD 15
/-- The partition of hart `h`; 15 for none. -/
def hartPart (s : State) (h : Nat) : Nat := diePart s (h / 48)
/-- The dies of partition `p`. -/
def diesOf (s : State) (p : Nat) : List Nat := onesOf 12 (part s p).dies
/-- The root ports of partition `p`. -/
def rpsOf (s : State) (p : Nat) : List Nat := onesOf 12 (part s p).rps
/-- The harts of partition `p`, in rising order. -/
def hartsOf (s : State) (p : Nat) : List Nat := (diesOf s p).flatMap (fun d => (List.range 48).map (48 * d + ·))
/-- The partition that holds the manager role; `none` when the BMC alone manages (R309). -/
def managerPart (s : State) : Option Nat := (List.range 12).find? (fun p => (part s p).manager)

/-- Fields of a slab table entry (Table 8.3). -/
def slState (e : Nat) : Nat := bits e 0 2
def slOwner (e : Nat) : Nat := bits e 2 4
def slKind (e : Nat) : Nat := bits e 6 2
def slTiered (e : Nat) : Bool := bit e 8
def slLw (e : Nat) : Nat := bits e 9 2
def slGrp (e : Nat) : Nat := bits e 11 2
def slDslab (e : Nat) : Nat := bits e 13 11
def slZeroed (e : Nat) : Bool := bit e 24
/-- STATE codes of a slab (Table 8.3). -/
def slVACANT : Nat := 0
def slFREE : Nat := 1
def slOWNED : Nat := 2
def slMOVING : Nat := 3

/-- The slab table entry of slab `n`, as `MEM_SLABENT` reads it. -/
def slabEnt (s : State) (n : Nat) : Nat := if n < 16384 then mget s.slab n else 0
/-- The partition that owns the slab of an address, when its STATE is OWNED. -/
def slabOwner (s : State) (pa : Nat) : Option Nat :=
  let e := slabEnt s (slabOf pa)
  if pa < memTop ∧ slState e = slOWNED then some (slOwner e) else none
/-- The partition that a line counts against in a record: its slab's owner, else the system (R582). -/
def linePart (s : State) (pa : Nat) : Nat := (slabOwner s pa).getD 15

/-- The copy of slab entry `n` that agent `a` holds. While an update runs, a copy that has not switched may switch
now: which it does is the device's own choice (R274). -/
def slabCopy (a n : Nat) (s : State) : Nat × State :=
  match s.slabOld.find? (fun e => e.1 = n) with
  | none => (slabEnt s n, s)
  | some o =>
    if s.slabSw.contains a then (slabEnt s n, s)
    else
      let r := drawBool s
      if r.1 then (slabEnt s n, { r.2 with slabSw := r.2.slabSw ++ [a] }) else (o.2, r.2)

/-- Entry `n` as agent `a`'s copy shows it. -/
def slabSeen (s : State) (a n : Nat) : Nat :=
  match s.slabOld.find? (fun e => e.1 = n) with
  | none => slabEnt s n
  | some o => if s.slabSw.contains a then slabEnt s n else o.2
/-- The copy of agent `a` may switch now (R274). -/
def slabLook (a : Nat) (s : State) : State :=
  if s.slabOld.isEmpty ∨ s.slabSw.contains a = true then s
  else
    let r := drawBool s
    if r.1 then { r.2 with slabSw := r.2.slabSw ++ [a] } else r.2

/-! ### Error records (R502 to R509, R582) -/

/-- One error as a block detects it. -/
structure Err where
  frame : Nat
  ty : Nat
  /-- 0 CE, 1 UCR, 2 UCD, 3 UCP. -/
  cls : Nat
  consq : Bool := false
  part : Nat := 15
  addr : Option Nat := none
  agent : Option Nat := none
  fpart : Nat := 15
  info : Nat := 0
  deriving DecidableEq, Repr, Inhabited

/-- Is a partition in one of the states in which a UCD is recorded against it (R503)? -/
def ucdTarget (s : State) (p : Nat) : Bool :=
  decide (p < 12) &&
  match (part s p).st with
  | .running => true
  | .changing => true
  | .down => !(part s p).tearing.isEmpty
  | _ => false

/-- The class recorded: a UCD that names no such partition is recorded as UCR (R503). -/
def errClass (s : State) (e : Err) : Nat := if e.cls = 2 ∧ ucdTarget s e.part = false then 1 else e.cls

/-- Does an error of class `c` outrank the latched record (R507)? -/
def outranks (s : State) (f c : Nat) (consq : Bool) : Bool :=
  let lc := fld s f 0x500 1 2
  decide (lc < c) || (decide (lc = c) && fbit s f 0x500 3 && !consq)

/-- The timebase as the block of a frame reads it: a block of a compute die reads the die's copy (R495, R505). -/
def errTime (s : State) (f : Nat) : Nat :=
  let k := frameKind f
  if k.1 = 0x30 ∨ k.1 = 0x31 then (die s k.2).tbc else s.tb

/-- Write the record into the bank (Table 15.2); `ovf` sets OVF. -/
def latchErr (e : Err) (c : Nat) (ovf : Bool) (s : State) : State :=
  let gen := (fld s e.frame 0x500 12 4 + 1) % 16
  let stat := 1 + c * 2 + b2n e.consq * 8 + b2n (ovf || fbit s e.frame 0x500 4) * 16 + b2n e.addr.isSome * 32 +
    b2n e.agent.isSome * 64 + (e.part % 16) * 256 + gen * 4096
  let s := setReg e.frame 0x500 (BitVec.ofNat 64 stat) s
  let s := setReg e.frame 0x508 (BitVec.ofNat 64 (e.addr.getD 0)) s
  let s := setReg e.frame 0x510 (BitVec.ofNat 64 (e.agent.getD 0 + (e.fpart % 16) * 4096)) s
  let s := setReg e.frame 0x518 (BitVec.ofNat 64 (e.ty + (e.info % 2 ^ 32) * 65536)) s
  setReg e.frame 0x520 (BitVec.ofNat 64 (errTime s e.frame)) s

/-- A port that a package-fatal error fences: every Agdel port, and every root port outside the pair role (Table 15.10). -/
def ucpFences (s : State) (n : Nat) : Bool :=
  if n < 16 then decide (n < 12) else !(fbit s (frRp (n - 16)) 0 3)

/-- The frame of a port's fence registers. -/
def frPort (n : Nat) : Nat := if n < 16 then frAp n else frRp (n - 16)

/-- Is a UCP latched (R529)? -/
def ucp (s : State) : Bool := fbit s frFlt 0 0

/-- Put a port under a hard fence (R253). -/
def hardFence (n : Nat) (s : State) : State :=
  updPort n (fun p => { p with fenced := true, soft := false }) (setFld (frPort n) 0x600 0 2 3 s)

/-- Step 1 of the response to a UCP (Table 15.10): latch UCP, fence the ports, stop every hart. -/
def ucpResponse (s : State) : State :=
  let s := setBit frFlt 0 0 s
  let s := ((List.range 12) ++ (List.range 12).map (16 + ·)).foldl
    (fun t n => if ucpFences t n then hardFence n t else t) s
  { s with harts := s.harts.map (fun e => (e.1, if e.2.st = .parked then e.2 else { e.2 with st := .stopped })) }

/-- A block detects an error: it counts it (R506), latches it under R507, and the package-wide effects follow (R522 to
R524, R529). -/
def logErr (e : Err) (s : State) : State :=
  let c := errClass s e
  let s := if c < 3 then addSat e.frame 0x528 (16 * c) 16 1 s else s
  let s := if c = 0 then addSat frFlt 0 16 32 1 s else s
  let valid := fbit s e.frame 0x500 0
  let latch := !valid || outranks s e.frame c e.consq
  let s := if latch then latchErr e c valid s else setBit e.frame 0x500 4 s
  let s := if latch && decide (1 ≤ c) then setBit frFlt 0 1 s else s
  if c = 3 then ucpResponse s else s

/-- The alert outputs follow the registers of the fault window (R522 to R524); they drive nothing until PWROK first
rises. -/
def settle (s : State) : State :=
  let up := s.pins.everUp
  let cnt := fld s frFlt 0 16 32
  let thr := fld s frFlt 8 16 16
  { s with pins := { s.pins with
      fatal := up && (s.pins.fatal || fbit s frFlt 0 0)
      uc := up && fbit s frFlt 0 1
      ce := up && decide (thr ≠ 0) && decide (thr ≤ cnt) } }

/-- The end of every command: the next state, with the alert pins at the levels that the registers give them. -/
def done (s : State) : Out := .next (settle s)

/-! ### Flits -/

/-- Opcodes of Table 4.7. -/
def oRdShared : Nat := 0x01
def oRdOwn : Nat := 0x02
def oUpgrade : Nat := 0x03
def oClaimOwn : Nat := 0x04
def oRdOnce : Nat := 0x05
def oRdRgn : Nat := 0x06
def oWrFull : Nat := 0x07
def oWrBackDirty : Nat := 0x08
def oEvictClean : Nat := 0x09
def oRgnRel : Nat := 0x0A
def oCboClean : Nat := 0x0B
def oCboFlush : Nat := 0x0C
def oIoRd : Nat := 0x20
def oIoWr : Nat := 0x21
def oCfgRd : Nat := 0x22
def oCfgWr : Nat := 0x23
def oIntMsg : Nat := 0x24
def oMail : Nat := 0x25
def oCoxCmd : Nat := 0x26
/-- Opcodes of Table 4.8. -/
def oSnpShared : Nat := 0x01
def oSnpOwn : Nat := 0x02
def oSnpInv : Nat := 0x03
def oSnpCur : Nat := 0x04
def oSnpClean : Nat := 0x05
def oBackInv : Nat := 0x06
def oSnpRgnSplit : Nat := 0x07
def oSnpRgnInv : Nat := 0x08
/-- Opcodes of Table 4.9. -/
def oComp : Nat := 0x01
def oCompAck : Nat := 0x02
def oSnpRsp : Nat := 0x03
def oEvictAck : Nat := 0x04
def oRetry : Nat := 0x05
def oCreditGrant : Nat := 0x06
def oFault : Nat := 0x07
def oIoComp : Nat := 0x08
/-- Opcodes of Table 4.10. -/
def oData : Nat := 0x01
def oDataCopy : Nat := 0x02
def oWrData : Nat := 0x03
def oWbData : Nat := 0x04
def oSnpData : Nat := 0x05
def oRgnMap : Nat := 0x06
def oIoData : Nat := 0x07
def oIoWrData : Nat := 0x08

/-- Is a REQ opcode one of Table 4.7? -/
def reqOpOk (o : Nat) : Bool := (decide (1 ≤ o) && decide (o ≤ 0x0C)) || (decide (0x20 ≤ o) && decide (o ≤ 0x26))
/-- Is an opcode defined on its network (Tables 4.7 to 4.10)? -/
def opOk (n : Net) (o : Nat) : Bool :=
  match n with
  | .req => reqOpOk o
  | _ => decide (1 ≤ o) && decide (o ≤ 8)

/-- Causes of Fault (R147). -/
def cPARTITION : Nat := 0
def cVACANT : Nat := 1
def cDOMAIN_OFF : Nat := 2
def cROUTE_FAULT : Nat := 3
def cUNSUPPORTED : Nat := 4

/-- A response on RSP: PART and SYS are those of what it answers (R137, R154). -/
def rsp (op src dst txn : Nat) (q : Flit) : Flit :=
  { net := .rsp, op := op, src := src, dst := dst, txn := txn, part := q.part, sys := q.sys, addr := q.addr }

/-- The answer Fault to a request, sent to the agent that awaits its data or grant. -/
def faultRsp (self cause : Nat) (q : Flit) : Flit :=
  { rsp oFault self q.src q.txn q with cause := cause }

/-- A data flit. -/
def dat (op src dst txn : Nat) (q : Flit) (data : Line) (poison : Bool) : Flit :=
  { net := .dat, op := op, src := src, dst := dst, txn := txn, part := q.part, sys := q.sys, addr := q.addr,
    data := data, poison := poison }

/-- The DAT opcode that follows a request with data (Tables 4.7 and 4.10); 0 for a request without. -/
def dataOp (op : Nat) : Nat :=
  if op = oWrFull then oWrData else if op = oWrBackDirty then oWbData else if op = oRgnRel then oRgnMap
  else if op = oIoWr ∨ (oCfgWr ≤ op ∧ op ≤ oCoxCmd) then oIoWrData else 0

/-- A request without its data. -/
def header (f : Flit) : Flit := { f with data := 0, poison := false }

/-- The flits of a message: a request that carries data is followed by one DAT flit with the same SRC and TXN (R136). -/
def parcels (f : Flit) : List Flit :=
  if f.net = .req ∧ dataOp f.op ≠ 0 then [header f, { dat (dataOp f.op) f.src f.dst f.txn f f.data f.poison with epoch := f.epoch }] else [f]

/-- The flits that reach an agent with a message: the map of a region's release is a message of its own (R130). -/
def arrivals (f : Flit) : List Flit := if f.net = .req ∧ f.op = oRgnRel then [header f] else parcels f

/-- Put a message on the wires. -/
def send (f : Flit) (s : State) : State := { s with wires := s.wires ++ parcels f }
/-- Put messages on the wires in order. -/
def sendAll (fs : List Flit) (s : State) : State := { s with wires := s.wires ++ fs.flatMap parcels }
/-- A delivered message leaves the wires, and its ejection ends its count in the fabric (R245); one that no agent of the model
sent comes from the environment. -/
def take (f : Flit) (s : State) : State :=
  { s with wires := (arrivals f).foldl List.erase s.wires, live := (arrivals f).foldl List.erase s.live }

/-- Has everything sent before a flit between the same stops, on the same network and channel, arrived (R82, R237)? What the wires
do not hold was sent last. -/
def inOrder (s : State) (f : Flit) : Bool :=
  (arrivals f).all (fun p => (s.wires.takeWhile (fun g => !(decide (g = p)))).all (fun g => !(sameWay p g)))

/-- Is a flit the data of a request? -/
def dataOf (f g : Flit) : Bool :=
  decide (f.net = .req) && decide (dataOp f.op ≠ 0) && decide (g.net = .dat) && decide (g.op = dataOp f.op) && decide (g.src = f.src) &&
  decide (g.dst = f.dst) && decide (g.txn = f.txn)

/-- A refused or discarded message leaves the wires; the data that follows a refused request goes with it. -/
def scrap (f : Flit) (s : State) : State :=
  let h := if f.net = .req ∧ dataOp f.op ≠ 0 then header f else f
  let out := fun (l : List Flit) => (l.erase h).eraseP (dataOf f)
  { s with wires := out s.wires, live := out s.live }

/-- The first `f` of a list becomes `g`; at the end where the list has none. -/
def swapFlit (f g : Flit) : List Flit → List Flit
  | [] => [g]
  | x :: t => if x = f then g :: t else x :: swapFlit f g t

/-- An error record of a refused or discarded flit: PART is the flit's (R582). -/
def flitErr (frame ty : Nat) (consq : Bool) (f : Flit) : Err :=
  { frame := frame, ty := ty, cls := 1, consq := consq, part := f.part, addr := some f.addr, agent := some f.src,
    fpart := f.part, info := f.op }

/-! ### Visibility (R307, R546, R548) -/

/-- Does partition `p` see a frame? Partition 15 sees every listed frame. -/
def seesFrame (s : State) (p f : Nat) : Bool :=
  let k := frameKind f
  if k.1 = 0 then false
  else if p = 15 then true
  else match k.1 with
    | 0x01 => true
    | 0x12 => decide (s.vis.rpP.getD k.2 15 = p)
    | 0x17 => (List.range 4).any (fun i => decide (mget s.vis.probeP (4 * k.2 + i) = p + 1))
    | 0x18 => (List.range 4).any (fun i => decide (mget s.vis.probeP (4 * k.2 + i) = p + 1))
    | 0x20 => decide (k.2 = p)
    | 0x21 => decide (k.2 = p)
    | 0x22 => decide (k.2 = p)
    | 0x23 => decide (k.2 = p)
    | 0x24 => decide (k.2 = p)
    | 0x25 => decide (k.2 = p)
    | 0x26 => decide (k.2 = p)
    | 0x27 => decide (s.vis.mgr = some p)
    | 0x30 => decide (s.vis.dieP.getD k.2 15 = p)
    | 0x31 => decide (s.vis.dieP.getD k.2 15 = p)
    | 0x40 => decide (s.vis.dieP.getD (k.2 / 48) 15 = p)
    | 0x41 => decide (k.2 = p)
    | _ => false

/-- The class of an address for a partition (Table 2.2). -/
inductive Pma where
  | main | io (t : IoTarget) | vacant
  deriving DecidableEq, Repr, Inhabited

/-- The physical memory attribute class of an address for partition `p` (R35). -/
def pma (s : State) (p pa : Nat) : Pma :=
  if slabOwner s pa = some p then .main
  else
    let t := ioTarget pa
    let ok := match t with
      | .ecam r _ => decide (s.vis.rpP.getD r 15 = p)
      | .rpMem r _ _ => decide (s.vis.rpP.getD r 15 = p)
      | .vfCfg _ _ => true
      | .vfBar v _ => decide (mget s.vis.vfP v = p + 1)
      | .drs f _ => seesFrame s p f
      | .none => false
    if ok then .io t else .vacant

/-- May an I/O-class access of this width and alignment leave the hart (R36, R549)? -/
def ioSizeOk (t : IoTarget) (pa size : Nat) : Bool :=
  [1, 2, 4, 8].contains size && decide (pa % size = 0) &&
  match t with
  | .drs f _ =>
    if (frameKind f).1 = 0x40 ∨ (frameKind f).1 = 0x41 then decide (size = 4) || decide (size = 8) else decide (size = 8)
  | _ => true

end Sys2Proof.Machine
end

