-- ==== Sys2Proof/Machine/FlitBits.lean ====
section
/-! DEFINITION. The bits of a flit (Tables 4.5, 4.6, 4.9, 4.10) and the check code of a lane's codeword (R190). -/

namespace Sys2Proof.Machine

/-- Bits [47:0] of every flit, at offsets in the header for DAT (Table 4.5). -/
def commonBits (f : Flit) : Nat :=
  f.op % 64 + (f.src % 4096) * 2 ^ 6 + (f.dst % 4096) * 2 ^ 18 + (f.txn % 4096) * 2 ^ 30 + (f.part % 16) * 2 ^ 42 +
  b2n f.epoch * 2 ^ 46 + b2n f.sys * 2 ^ 47

/-- The payload of a response (Table 4.9). -/
def rspPayload (f : Flit) : Nat :=
  if f.op = oComp ∨ f.op = oCompAck then f.st.code + b2n f.rgn * 8
  else if f.op = oSnpRsp then f.st.code + b2n f.fwdd * 8 + b2n f.wb * 16 + (f.ndata % 128) * 32
  else if f.op = oEvictAck then b2n f.stale
  else if f.op = oFault then f.cause % 32
  else if f.op = oIoComp then b2n f.err
  else 0

/-- The bits of a flit, for DAT its 64-bit header (Table 4.6). -/
def flitBits (f : Flit) : Nat :=
  commonBits f +
  match f.net with
  | .req => (f.addr % 2 ^ 52) * 2 ^ 48 + (f.datadst % 4096) * 2 ^ 100 + (f.datatxn % 4096) * 2 ^ 112 +
      b2n f.rgnok * 2 ^ 124 + b2n f.rsv * 2 ^ 125 + (f.size % 4) * 2 ^ 126
  | .snp => (f.addr % 2 ^ 52) * 2 ^ 48 + (f.fwd % 4096) * 2 ^ 100 + (f.ftxn % 4096) * 2 ^ 112 + b2n f.fcomp * 2 ^ 124
  | .rsp => rspPayload f * 2 ^ 48
  | .dat => f.st.code * 2 ^ 48 + b2n f.rgn * 2 ^ 51 + b2n f.comp * 2 ^ 52 + b2n f.poison * 2 ^ 53 + (f.idx % 64) * 2 ^ 56

/-- A flit with its common fields read from bits. -/
def readCommon (n : Nat) (f : Flit) : Flit :=
  { f with op := bits n 0 6, src := bits n 6 12, dst := bits n 18 12, txn := bits n 30 12, part := bits n 42 4,
           epoch := bit n 46, sys := bit n 47 }

/-- The state a flit's code names; a reserved code reads as I. -/
def stOf (n : Nat) : St := (St.ofCode n).getD .i

/-- A flit with its fields read from bits; `f` gives the network and what the bits do not hold. -/
def readFlit (n : Nat) (f : Flit) : Flit :=
  let c := readCommon n f
  match f.net with
  | .req => { c with addr := bits n 48 52, datadst := bits n 100 12, datatxn := bits n 112 12, rgnok := bit n 124,
                     rsv := bit n 125, size := bits n 126 2 }
  | .snp => { c with addr := bits n 48 52, fwd := bits n 100 12, ftxn := bits n 112 12, fcomp := bit n 124 }
  | .rsp =>
    let p := bits n 48 16
    if c.op = oComp ∨ c.op = oCompAck then { c with st := stOf (p % 8), rgn := bit p 3 }
    else if c.op = oSnpRsp then { c with st := stOf (p % 8), fwdd := bit p 3, wb := bit p 4, ndata := bits p 5 7 }
    else if c.op = oEvictAck then { c with stale := bit p 0 }
    else if c.op = oFault then { c with cause := p % 32 }
    else if c.op = oIoComp then { c with err := bit p 0 }
    else c
  | .dat => { c with st := stOf (bits n 48 3), rgn := bit n 51, comp := bit n 52, poison := bit n 53, idx := bits n 56 6 }

/-- Is a flit one that its bits can spell: every field within its width? -/
def flitWf (f : Flit) : Bool :=
  decide (f.op < 64) && decide (f.src < 4096) && decide (f.dst < 4096) && decide (f.txn < 4096) && decide (f.part < 16) &&
  match f.net with
  | .req => decide (f.addr < 2 ^ 52) && decide (f.datadst < 4096) && decide (f.datatxn < 4096) && decide (f.size < 4)
  | .snp => decide (f.addr < 2 ^ 52) && decide (f.fwd < 4096) && decide (f.ftxn < 4096)
  | .rsp => decide (f.ndata < 128) && decide (f.cause < 32)
  | .dat => decide (f.idx < 64)

/-! ### The SECDED (72,64) code (R190, Table 6.4) -/

/-- The 8-bit numbers of weight 3, in rising order. -/
def weight3 : List Nat := (List.range 256).filter (fun n => popcount 8 n = 3)
/-- Column of data bit `i`. -/
def col (i : Nat) : Nat := (weight3 ++ [0x1F, 0x2F, 0x37, 0x3B, 0x3D, 0x3E, 0x4F, 0x57]).getD i 0
/-- Check bits of 64 data bits. -/
def checkBits (d : Nat) : Nat := (List.range 64).foldl (fun a i => if bit d i then a ^^^ col i else a) 0

/-- What decoding a codeword gives. -/
inductive Dec where
  | ok | check (j : Nat) | fixed (i : Nat) | bad
  deriving DecidableEq, Repr, Inhabited

/-- The syndrome of received data and check bits. -/
def syndrome (d c : Nat) : Nat := (c % 256) ^^^ checkBits d
/-- Decode a syndrome (Table 6.4). -/
def decodeSyn (s : Nat) : Dec :=
  if s = 0 then .ok
  else if popcount 8 s = 1 then .check (((List.range 8).find? (fun j => bit s j)).getD 0)
  else match (List.range 64).find? (fun i => col i = s) with
    | some i => .fixed i
    | none => .bad
/-- The data after correction. -/
def correct (d : Nat) (r : Dec) : Nat :=
  match r with
  | .fixed i => putBit d i (!(bit d i))
  | _ => d
/-- The signal of a wire group on which a correction falls (R187, R190): PL0 to PL31, then CK0 to CK3. -/
def decSignal (r : Dec) : Nat :=
  match r with
  | .fixed i => i % 32
  | .check j => 32 + j % 4
  | _ => 0x3F

/-- Lanes of a channel of each network (R193). -/
def laneCount (n : Net) : Nat :=
  match n with
  | .dat => 9 | .req => 2 | .snp => 2 | .rsp => 1

/-- The 64 data bits of lane `k` of a flit (R193). -/
def laneWord (f : Flit) (k : Nat) : Nat :=
  match f.net with
  | .dat => if k < 8 then bits f.data.toNat (64 * k) 64 else flitBits f
  | .rsp => flitBits f
  | _ => bits (flitBits f) (64 * k) 64

end Sys2Proof.Machine
end

