-- ==== Sys2Proof/Machine/LinkOps.lean ====
section
/-! DEFINITION. The Agdel link of each die: its states, channels, credits, check decoding, training, repair and width
agreement (chapter 6).
Log entries with the choices and readings made here: 11, 46, 48, 49, 174, 180, 186, 192, 209. -/

namespace Sys2Proof.Machine

/-- The link of die `d`. -/
def lnk (s : State) (d : Nat) : Link := mget s.links d
/-- Change the link of die `d`. -/
def updLink (d : Nat) (g : Link → Link) (s : State) : State := { s with links := mupd s.links d g }

/-- Link states (Table 6.9). -/
def lOFF : Nat := 0
def lSBUP : Nat := 1
def lTRAIN : Nat := 2
def lL0 : Nat := 3
def lLP : Nat := 4
def lWAKE : Nat := 5
def lRETRAIN : Nat := 6
def lHOLD : Nat := 7

/-- Frame of an end's link registers. -/
def frEnd (d : Nat) (dieEnd : Bool) : Nat := if dieEnd then frDie d else frAp d
/-- The state of an end; the I/O-die end's is the link's (R206). -/
def linkSt (s : State) (d : Nat) (dieEnd : Bool) : Nat := fld s (frEnd d dieEnd) 0x400 0 4
/-- Both ends enter a state. -/
def setLinkSt (d n : Nat) (s : State) : State := setFld (frDie d) 0x400 0 4 n (setFld (frAp d) 0x400 0 4 n s)

/-- A link error at one end: ADDR names wire group, direction and signal (R222). -/
def linkErr (s : State) (d : Nat) (dieEnd : Bool) (ty cls wg : Nat) (out : Bool) (sig : Nat) : Err :=
  { frame := frEnd d dieEnd, ty := ty, cls := cls, part := diePart s d, addr := some (wg + b2n out * 128 + sig * 256) }

/-- Send a sideband message; `up` from the die. -/
def sbSend (d : Nat) (up : Bool) (ty body : Nat) (s : State) : State :=
  updLink d (fun l => { l with sb := l.sb ++ [{ up := up, ty := ty, body := body }] }) s
/-- A sideband message has arrived. -/
def sbTake (d : Nat) (up : Bool) (ty body : Nat) (s : State) : State :=
  updLink d (fun l => { l with sb := l.sb.erase { up := up, ty := ty, body := body } }) s
/-- A message type of one end has its answer (R204). -/
def answered (d : Nat) (dieEnd : Bool) (ty : Nat) (s : State) : State :=
  updLink d (fun l => { l with unans := mset l.unans (ty + b2n dieEnd * 256) 0 }) s
/-- Does the sideband work: in every state except OFF (R202)? -/
def sbWorks (s : State) (d : Nat) : Bool := decide (d < 12) && decide (linkSt s d false ≠ lOFF)
/-- Send a REPAIR, which waits for its answer (R204). -/
def sbRepair (d : Nat) (dieEnd : Bool) (body : Nat) (s : State) : State :=
  sbSend d dieEnd 0x18 body (updLink d (fun l => { l with asked := l.asked ++ [(dieEnd, body)] }) s)

/-! ### Width (R197 to R199, R214) -/

/-- Channels of a quarter in a cut word: DAT, MID, RSPN (Table 6.16). -/
def cutQ (c q : Nat) : Nat × Nat × Nat := (bits c (9 * q) 2, bits c (9 * q + 2) 3, bits c (9 * q + 5) 4)
/-- The rule of R197 for one quarter. -/
def cutOk (x : Nat × Nat × Nat) : Bool := decide (9 * x.1 + 2 * x.2.1 + x.2.2 ≤ 24)
/-- Remove channels until the cut fits `u` usable groups (R199). -/
def degrade (u : Nat) : Nat → Nat × Nat × Nat → Option (Nat × Nat × Nat)
  | 0, _ => none
  | n + 1, x =>
    if 9 * x.1 + 2 * x.2.1 + x.2.2 ≤ u then some x
    else if 1 < x.2.2 then degrade u n (x.1, x.2.1, x.2.2 - 1)
    else if 1 < x.2.1 then degrade u n (x.1, x.2.1 - 1, x.2.2)
    else if 1 < x.1 then degrade u n (x.1 - 1, x.2.1, x.2.2)
    else none
/-- Position of a quarter's mask. -/
def maskIx (out : Bool) (q : Nat) : Nat := 4 * b2n out + q
/-- The failed-group mask that an end holds for a quarter. -/
def maskOf (l : Link) (dieEnd out : Bool) (q : Nat) : Nat := (if dieEnd then l.maskD else l.maskI).getD (maskIx out q) 0
/-- The cut in force at an end for a direction. -/
def cutWord (l : Link) (dieEnd out : Bool) : Nat :=
  let c := if dieEnd then l.cutD else l.cutI
  if out then c.2 else c.1
/-- Groups of a quarter that are not failed, in rising order. -/
def usable (m : Nat) : List Nat := (List.range 24).filter (fun i => !(bit m i))
/-- Channels of a quarter left after degradation. -/
def chans (l : Link) (dieEnd out : Bool) (q : Nat) : Option (Nat × Nat × Nat) :=
  degrade (usable (maskOf l dieEnd out q)).length 40 (cutQ (cutWord l dieEnd out) q)

/-- Role, channel and lane of each group of a quarter (R198): 0 spare, 1 DAT, 2 SNP or REQ, 3 RSP, 4 failed. -/
def roleOf (l : Link) (dieEnd out : Bool) (q g : Nat) : Nat × Nat × Nat :=
  let m := maskOf l dieEnd out q
  if bit m g then (4, 0, 0)
  else match chans l dieEnd out q with
    | none => (0, 0, 0)
    | some (nd, nm, nr) =>
      let k := ((usable m).idxOf g)
      if k < 9 * nd then (1, k / 9, k % 9)
      else if k < 9 * nd + 2 * nm then (2, (k - 9 * nd) / 2, (k - 9 * nd) % 2)
      else if k < 9 * nd + 2 * nm + nr then (3, k - 9 * nd - 2 * nm, 0)
      else (0, 0, 0)

/-- The wire group of lane `k` of channel `ch` of a network in a quarter (R198). -/
def laneWg (l : Link) (dieEnd out : Bool) (q : Nat) (n : Net) (ch k : Nat) : Nat :=
  let u := usable (maskOf l dieEnd out q)
  let c := (chans l dieEnd out q).getD (1, 1, 1)
  let i := match n with
    | .dat => 9 * ch + k
    | .rsp => 9 * c.1 + 2 * c.2.1 + ch
    | _ => 9 * c.1 + 2 * ch + k
  24 * q + u.getD i 0

/-- Channels of a network in a quarter. -/
def chanCount (l : Link) (dieEnd out : Bool) (q : Nat) (n : Net) : Nat :=
  let c := (chans l dieEnd out q).getD (1, 1, 1)
  match n with
  | .dat => c.1
  | .rsp => c.2.2
  | _ => c.2.1

/-- Does every quarter of both directions hold at least one channel of each role (R199)? -/
def widthFits (l : Link) : Bool :=
  (List.range 4).all (fun q => (chans l false false q).isSome && (chans l false true q).isSome)

/-- The width record of a quarter (Table 6.11), as an end holds it. -/
def widthRec (s : State) (d : Nat) (dieEnd out : Bool) (q : Nat) : Nat :=
  let l := lnk s d
  let c := cutQ (cutWord l dieEnd out) q
  let gen := if dieEnd then l.genD else fld s (frAp d) 0x400 8 8
  q + b2n out * 4 + maskOf l dieEnd out q * 8 + c.1 * 2 ^ 27 + c.2.1 * 2 ^ 29 + c.2.2 * 2 ^ 32 + gen * 2 ^ 36

/-- Send the eight beacons. -/
def sendBeacons (d : Nat) (s : State) : State :=
  (List.range 8).foldl (fun s i => sbSend d false 0x10 (widthRec s d false (decide (4 ≤ i)) (i % 4)) s) s

/-- GEN rises by one, modulo 256. -/
def genUp (d : Nat) (s : State) : State := setFld (frAp d) 0x400 8 8 (fld s (frAp d) 0x400 8 8 + 1) s

/-- The I/O-die end adds failed groups to its stored masks; GEN rises when they change (R214). -/
def mergeMasks (d : Nat) (found : List Nat) (s : State) : State :=
  let l := lnk s d
  let m := (List.range 8).map (fun i => l.maskI.getD i 0 ||| found.getD i 0)
  if m = l.maskI then s else genUp d (updLink d (fun l => { l with maskI := m }) s)

/-! ### States (R206, R220, R221) -/

/-- The link enters HOLD: SB_ISO_N goes low (R221). -/
def linkHold (d : Nat) (s : State) : State :=
  updLink d (fun l => { l with isoN := false, tstep := 0, waking := false, pend := [], recal := [] }) (updDie d (fun x => { x with failed := true }) (setLinkSt d lHOLD s))

/-- The I/O-die end takes the die as lost (R220). -/
def linkLost (d : Nat) (s : State) : State :=
  logErr (linkErr s d false 0x08 2 0 false 0x3F) (linkHold d s)

/-- Training failed: HOLD, and a record that is UCD for a running partition (R207). -/
def trainFail (d : Nat) (s : State) : State :=
  logErr (linkErr s d false 0x09 (if ucdTarget s (diePart s d) then 2 else 1) 0 false 0x3F) (linkHold d s)

/-- Width agreement failed, or a beacon mismatched in L0 (R215, R216). -/
def widthFail (d : Nat) (s : State) : State :=
  logErr (linkErr s d false 0x0A 2 0 false 0x3F) (linkHold d s)

/-- The link enters L0: credits are loaded, the link cycle counter starts at 0, correction windows begin (Table 6.10 step
10, Table 6.12 step 4), and the die aligns its copy of the timebase to within 2 ns, never back (R495). -/
def enterL0 (d : Nat) (s : State) : State :=
  let s := setLinkSt d lL0 s
  let s := setFld (frDie d) 0x400 8 8 (lnk s d).genD s
  let t := s.tb
  updLink d (fun l => { l with tstep := 0, waking := false, used := [], ret := [], cnt := [], pend := [], recal := [], slot := [], l0at := some t }) (updDie d (fun x => { x with tbc := max x.tbc (t - 2 + Config.freeNat s.free % 5) }) { s with free := s.free + 1 })

/-- The link cycle count (R212): fabric cycles since L0 entry, of 0.5 ns; 0 before the first entry since the reset of the link. -/
def lcc (s : State) (d : Nat) : Nat :=
  match (lnk s d).l0at with
  | some t => 2 * (s.tb - t) % 2 ^ 32
  | none => 0

/-- Is T ahead of a count (R212)? -/
def ahead (t n : Nat) : Bool :=
  let x := (t + 2 ^ 32 - n % 2 ^ 32) % 2 ^ 32
  decide (1 ≤ x) && decide (x < 2 ^ 31)

/-! ### Repair and recalibration (R210 to R213) -/

/-- Key of a wire group. -/
def wgKey (out : Bool) (g : Nat) : Nat := 96 * b2n out + g
/-- Change a wire group. -/
def updWg (d key : Nat) (g : Wg → Wg) (s : State) : State := updLink d (fun l => { l with wg := mupd l.wg key g }) s

/-- A spare of a group that carries nothing, is usable and is not promised: SP0 (`false`) before SP1. -/
def freeSpare (l : Link) (key : Nat) : Option Bool :=
  let w := mget l.wg key
  let busy := fun (x : Bool) => l.pend.any (fun p => decide (p.key = key) && p.spare == x)
  if !w.sp0Bad && decide (w.rep0 = 0x3F) && !(busy false) then some false
  else if !w.sp1Bad && decide (w.rep1 = 0x3F) && !(busy true) then some true
  else none

/-- The body of a REPAIR (Table 6.8). -/
def repairBody (key sig : Nat) (spare : Bool) (op t : Nat) : Nat :=
  key % 96 + (key / 96) * 128 + sig * 256 + b2n spare * 2 ^ 14 + op * 2 ^ 15 + t * 2 ^ 16

/-- The receiver of a group asks for a repair at a count T that it chooses (R211, R212); `cal` for a recalibration (R213). -/
def askRepair (d key sig : Nat) (spare cal : Bool) (s : State) : State :=
  let r := drawNat s
  let t := (lcc s d + 4096 + r.1 % 61441) % 2 ^ 32
  let s := updLink d (fun l => { l with pend := l.pend ++ [{ key := key, sig := sig, spare := spare, t := t, cal := cal }] }) r.2
  sbRepair d (decide (key < 96)) (repairBody key sig spare 1 t) s

/-- The temperature that a die's hottest sensor shows, in units of 1/16 °C, before its offset. -/
def sensorMax (s : State) (d : Nat) : Option Int :=
  (List.range 8).foldl (fun a i => match mfind s.card.temp (16 * d + i) with
    | some t => some (max (a.getD t) t)
    | none => a) none

/-- A sweep has centred a signal of a group: its delay code, and the temperature of the calibration (Table 6.10 step 4, R213). -/
def noteCode (d key sig code : Nat) (s : State) : State :=
  let t := sensorMax s d
  updWg d key (fun w => { w with codes := mset w.codes sig code, calT := t }) s

/-- A correction is attributed to a signal (R190, R211). -/
def noteFix (d key sig : Nat) (s : State) : State :=
  let dieEnd := decide (key < 96)
  let s := updWg d key (fun w => { w with cecnt := min (w.cecnt + 1) 0xFFFF }) s
  let s := count (frEnd d dieEnd) 11 1 (logErr (linkErr s d dieEnd 0x01 0 (key % 96) (!dieEnd) sig) s)
  let l := lnk s d
  let n := mget l.cnt (64 * key + sig) + 1
  let s := updLink d (fun l => { l with cnt := mset l.cnt (64 * key + sig) n }) s
  if n = fld s (frEnd d dieEnd) 0x408 8 8 ∧ linkSt s d false = lL0 then
    match freeSpare l key with
    | some x => askRepair d key sig x false s
    | none => logErr (linkErr s d dieEnd 0x0D 0 (key % 96) (!dieEnd) sig) s
  else s

/-- Begin the in-band recalibration of a group (R213). -/
def startRecal (d key : Nat) (s : State) : State :=
  let l := lnk s d
  match freeSpare l key with
  | some x => if linkSt s d false = lL0 ∧ (l.recal.all (fun e => e.1 ≠ key)) then
      askRepair d key 0 x true (updLink d (fun l => { l with recal := l.recal ++ [(key, 0)] }) s) else s
  | none => s

/-- A receiver reaches the count T of a repair (R211 step 3, R213): nothing happens while T is still ahead. In a recalibration the wire
that the spare relieves is swept and centred anew, at a code that the model leaves free. -/
def repairSwitch (d key : Nat) (s : State) : State :=
  let l := lnk s d
  let n := lcc s d
  match l.pend.find? (fun p => decide (p.key = key) && !(ahead p.t n)) with
  | none => s
  | some p =>
    let drop := updLink d (fun l => { l with pend := l.pend.erase p }) s
    let dieEnd := decide (key < 96)
    let noCal := updLink d (fun l => { l with recal := l.recal.filter (fun e => e.1 ≠ key) })
    let put := fun (v : Nat) (s : State) => updWg d key (fun w => if p.spare then { w with rep1 := v } else { w with rep0 := v }) s
    if !p.acked then (if p.cal then noCal drop else drop)
    else if !p.cal then logErr (linkErr s d dieEnd 0x0C 0 (key % 96) (!dieEnd) p.sig) (put p.sig drop)
    else if !p.back then
      let q := drawNat drop
      let c := drawNat q.2
      let t := (n + 4096 + q.1 % 61441) % 2 ^ 32
      updLink d (fun l => { l with pend := l.pend ++ [{ p with t := t, back := true }] })
        (logErr (linkErr s d dieEnd 0x0C 0 (key % 96) (!dieEnd) p.sig) (noteCode d key p.sig (c.1 % 64) (put p.sig c.2)))
    else
      let s := sbRepair d dieEnd (repairBody key p.sig p.spare 0 p.t) (put 0x3F drop)
      let i := ((l.recal.find? (fun e => e.1 = key)).map (·.2)).getD 36
      let s := noCal s
      if i < 36 then askRepair d key (i + 1) p.spare true (updLink d (fun l => { l with recal := l.recal ++ [(key, i + 1)] }) s) else s

/-- A transmitter takes a REPAIR (R210 to R212): it mirrors the signal from T onward, at once in training. DESIGN CHOICE: a REPAIR with OP 0
is answered although its T lies behind; R212 leaves unanswered a T that is not ahead, and R213 sends OP 0 after its T. -/
def repairTake (d : Nat) (dieEnd : Bool) (body : Nat) (s : State) : State :=
  let key := bits body 0 7 + 96 * bits body 7 1
  let sig := bits body 8 6
  let spare := bit body 14
  let t := bits body 16 32
  let mine := decide (bits body 0 7 < 96) && (dieEnd == bit body 7) && decide (sig ≤ 36)
  let rest := fun (w : Wg) => w.mirror.filter (fun m => !(decide (m.sig = sig) && m.spare == spare))
  if !mine then s
  else if bit body 15 = false ∧ (lnk s d).tstep ≠ 5 then
    sbSend d dieEnd 0x19 body (updWg d key (fun w => { w with mirror := rest w }) s)
  else if (lnk s d).tstep = 5 ∨ ahead t (lcc s d) = true then
    sbSend d dieEnd 0x19 body (updWg d key (fun w => { w with mirror := rest w ++ [{ sig := sig, spare := spare, t := t }] }) s)
  else s

/-- Is a count C from T onward (R212)? -/
def fromOn (c t : Nat) : Bool := decide ((c + 2 ^ 32 - t % 2 ^ 32) % 2 ^ 32 < 2 ^ 31)

/-- The signals that a transmitter drives on a spare of a group now: those whose T the count has reached (R211, R212). -/
def onSpare (s : State) (d key : Nat) : List Mirror :=
  (mget (lnk s d).wg key).mirror.filter (fun m => decide (m.t = 0) || fromOn (lcc s d) m.t)

/-! ### Training (Table 6.10, R207 to R215, R218) -/

/-- A training starts at a step, in a state. -/
def trainStart (d st step : Nat) (s : State) : State :=
  let s := setFld (frAp d) 0x400 16 2 0 (setLinkSt d st s)
  updLink d (fun l => { l with tstep := step, okI := false, okD := false, found := List.replicate 8 0, reps := 0, isoN := true }) s

/-- A group is failed in this training. -/
def failGroup (d key : Nat) (s : State) : State :=
  let ix := 4 * (key / 96) + key % 96 / 24
  updLink d (fun l => { l with found := l.found.set ix (putBit (l.found.getD ix 0) (key % 96 % 24) true) }) s

/-- What a receiver found on one of its groups in step 3 or 4 (R207, R210). -/
def noteFind (d : Nat) (dieEnd : Bool) (step : Nat) (f : WgFind) (s : State) : State :=
  let key := wgKey (!dieEnd) (f.wg % 96)
  if step = 3 then
    let s := updWg d key (fun w => { w with clkFail := f.clkFail }) s
    if f.clkFail then failGroup d key s else s
  else if step = 4 then
    let e := min f.eye 63
    updWg d key (fun w =>
      let w := { w with eyeMin := some (min (w.eyeMin.getD e) e) }
      if f.sig = 37 then { w with sp0Bad := decide (e < 12) }
      else if f.sig = 38 then { w with sp1Bad := decide (e < 12) }
      else if e < 12 then { w with bad := w.bad ++ [f.sig] } else w) (noteCode d key f.sig (f.code % 64) s)
  else if step = 9 then failGroup d key s
  else s

/-- Step 5 at one receiver: steer each failed signal onto a usable spare, or fail the group. -/
def steer (d : Nat) (dieEnd : Bool) (s : State) : State :=
  (List.range 96).foldl (fun s g =>
    let key := wgKey (!dieEnd) g
    let w := mget (lnk s d).wg key
    let sp := (if w.sp0Bad then [] else [false]) ++ (if w.sp1Bad then [] else [true])
    if w.bad = [] then s
    else if sp.length < w.bad.length then failGroup d key s
    else (w.bad.zip sp).foldl (fun s e =>
      sbRepair d dieEnd (repairBody key e.1 e.2 1 0)
        (updWg d key (fun w => if e.2 then { w with rep1 := e.1 } else { w with rep0 := e.1 }) s)) s) s

/-- The receivers start the sweep anew: what an earlier training found on their groups is discarded. -/
def clearWgs (d : Nat) (s : State) : State :=
  updLink d (fun l => { l with wg := l.wg.map (fun e => (e.1, { cecnt := e.2.cecnt })) |>.filter (fun e => e.2 ≠ default) }) s

/-- Width agreement begins (step 8): a new cut comes into force, and the beacons go out (R214, R215). -/
def beginWidth (d : Nat) (s : State) : State :=
  let c := ((reg s (frAp d) 0x410).toNat, (reg s (frAp d) 0x418).toNat)
  let s := if c = (lnk s d).cutI then s else genUp d (updLink d (fun l => { l with cutI := c }) s)
  if widthFits (lnk s d) then sendBeacons d (updLink d (fun l => { l with tstep := 8, okI := false, okD := false, reps := 0 }) s)
  else trainFail d s

/-- An attempt at agreement has failed (R215). -/
def attemptFail (d : Nat) (found : List Nat) (s : State) : State :=
  let n := fld s (frAp d) 0x400 16 2 + 1
  let s := setFld (frAp d) 0x400 16 2 n s
  if 3 ≤ n then widthFail d s else beginWidth d (mergeMasks d found s)

/-- A step is complete at both ends: go on to the next. The receivers steer when the sweep is done, and step 6 begins when every REPAIR is
acknowledged (Table 6.10 steps 5 and 6). -/
def trainNext (d : Nat) (s : State) : State :=
  let n := (lnk s d).tstep
  let s := updLink d (fun l => { l with tstep := n + 1, okI := false, okD := false }) s
  if n = 4 then steer d true (steer d false s)
  else if n = 6 then mergeMasks d (lnk s d).found s
  else if n = 7 then beginWidth d s
  else if n = 10 then enterL0 d s
  else s

/-- A TRAIN_STEP report of one end (R207). In WAKE the steps are those of Table 6.12. -/
def trainStep (d : Nat) (dieEnd : Bool) (step : Nat) (pass : Bool) (finds : List WgFind) (s : State) : State :=
  let l := lnk s d
  let mark := updLink d (fun l => if dieEnd then { l with okD := true } else { l with okI := true })
  let both := fun (s : State) => (lnk s d).okI && (lnk s d).okD
  if l.tstep = 0 ∨ step ≠ l.tstep then s
  else if l.waking then
    if !pass then
      updLink d (fun l => { l with waking := false }) (clearWgs d (trainStart d lTRAIN 3 s))
    else
      let s := mark s
      if both s then (if step = 4 then enterL0 d s
        else updLink d (fun l => { l with tstep := step + 1, okI := false, okD := false }) s) else s
  else if step = 1 ∨ step = 8 then s
  else if step = 9 ∧ pass = false then
    let s := updLink d (fun l => { l with found := List.replicate 8 0 }) s
    let s := finds.foldl (fun s f => noteFind d dieEnd 9 f s) s
    attemptFail d (lnk s d).found s
  else if !pass then trainFail d s
  else
    let s := finds.foldl (fun s f => noteFind d dieEnd step f s) s
    let s := mark s
    if both s && (decide (step ≠ 5) || (lnk s d).asked.isEmpty) then trainNext d s else s

/-- The die end takes a beacon (R215, R216). -/
def beaconTake (d body : Nat) (s : State) : State :=
  let l := lnk s d
  let q := bits body 0 2
  let out := bit body 2
  if l.tstep = 8 then
    let c := fun (w : Nat) => setBits (setBits (setBits w (9 * q) 2 (bits body 27 2)) (9 * q + 2) 3 (bits body 29 3)) (9 * q + 5) 4 (bits body 32 4)
    let s := updLink d (fun l => { l with
      maskD := l.maskD.set (maskIx out q) (bits body 3 24)
      cutD := if out then (l.cutD.1, c l.cutD.2) else (c l.cutD.1, l.cutD.2)
      genD := bits body 36 8 }) s
    let s := setReg (frDie d) 0x410 (BitVec.ofNat 64 (lnk s d).cutD.1) (setReg (frDie d) 0x418 (BitVec.ofNat 64 (lnk s d).cutD.2) s)
    sbSend d true 0x11 (widthRec s d true out q) s
  else if linkSt s d true = lL0 then
    let mine := widthRec s d true out q
    if body % 2 ^ 44 = mine then s
    else logErr (linkErr s d true 0x0A 1 0 out 0x3F) (sbSend d true 0x11 mine s)
  else s

/-- The I/O-die end takes a report (R215, R216). -/
def reportTake (d body : Nat) (s : State) : State :=
  let l := lnk s d
  let q := bits body 0 2
  let out := bit body 2
  let same := decide (body % 2 ^ 44 = widthRec s d false out q)
  if l.tstep = 6 then
    (List.range 24).foldl (fun s g => if bit (bits body 3 24) g then failGroup d (wgKey out (24 * q + g)) s else s) s
  else if l.tstep = 8 then
    if same then
      let s := answered d false 0x10 (updLink d (fun l => { l with reps := putBit l.reps (maskIx out q) true }) s)
      if (lnk s d).reps = 255 then updLink d (fun l => { l with tstep := 9, okI := false, okD := false, setI := true, setD := true }) s else s
    else attemptFail d ((List.replicate 8 0).set (maskIx out q) (bits body 3 24)) s
  else if linkSt s d false = lL0 ∧ same = false then widthFail d s
  else s

/-- A HELLO reaches the I/O-die end (R207, R220). -/
def helloTake (d body : Nat) (s : State) : State :=
  let st := linkSt s d false
  if st = lL0 ∨ st = lLP ∨ st = lWAKE then linkLost d s
  else if st = lSBUP ∧ (lnk s d).tstep = 1 then
    if s.dieIds.getD d (0, 0) = (bits body 0 16, bits body 16 16) then sbSend d false 0x09 (d + 16) s
    else
      let s := sbSend d false 0x09 d (updLink d (fun l => { l with tstep := 0 }) s)
      logErr (linkErr s d false 0x0E 1 0 false 0x3F) (setBit (frAp d) 0x400 19 s)
  else s

/-- The die end takes the answer to its HELLO (R207, R208). -/
def helloAckTake (d : Nat) (accept : Bool) (s : State) : State :=
  let s := answered d true 0x08 s
  if linkSt s d true = lSBUP ∧ (lnk s d).tstep = 1 ∧ accept = true then
    if (lnk s d).warm then updLink d (fun l => { l with warm := false }) (trainStart d lTRAIN 6 s)
    else clearWgs d (trainStart d lTRAIN 2 s)
  else s

/-! ### Crossing (R188 to R201) -/

/-- The quarter of a flit (R194). -/
def quarterOf (out : Bool) (f : Flit) : Nat := if out then f.dst % 4 else f.src % 4
/-- Number of a network in pools and counters. -/
def netIx (n : Net) : Nat :=
  match n with
  | .req => 0 | .rsp => 1 | .snp => 2 | .dat => 3
/-- Number of a credit pool. -/
def poolIx (out : Bool) (q : Nat) (n : Net) : Nat := (4 * b2n out + q) * 4 + netIx n
/-- Credits of a pool at L0 entry (R200). -/
def poolCap (l : Link) (out : Bool) (q : Nat) (n : Net) : Nat :=
  let c := (chans l (out) out q).getD (0, 0, 0)
  match n with
  | .dat => 32 * c.1
  | .rsp => 32 * c.2.2
  | .snp => if out then 0 else 32 * c.2.1
  | .req => if out then 32 * c.2.1 else 16

/-- The channel that the next flit of a pool takes: flits of one nanosecond take the channels in ascending order, cycle by cycle (R195). -/
def nextChan (s : State) (d : Nat) (out : Bool) (q : Nat) (n : Net) : Nat :=
  let e := mget (lnk s d).slot (poolIx out q n)
  if e.1 = s.tb then e.2 % max 1 (chanCount (lnk s d) out out q n) else 0

/-- A flit of a pool has been launched. -/
def launched (d : Nat) (out : Bool) (q : Nat) (n : Net) (s : State) : State :=
  let t := s.tb
  updLink d (fun l =>
    let e := mget l.slot (poolIx out q n)
    { l with slot := mset l.slot (poolIx out q n) (t, if e.1 = t then e.2 + 1 else 1) }) s

/-- The injection that an armed end makes on a flit it launches, and the register after it (R223). -/
def injectLink (d : Nat) (out : Bool) (q : Nat) (n : Net) (ch : Nat) (s : State) : List (Nat × Nat) × State :=
  let fr := frEnd d out
  if fbit s fr 0x530 16 = false ∨ 2 * (s.tb - mget s.flt.injAt fr) < fld s fr 0x530 32 16 then ([], s)
  else
    let hit := (List.range (laneCount n)).filter (fun k => laneWg (lnk s d) out out q n ch k = fld s fr 0x530 0 7)
    match hit with
    | [] => ([], s)
    | _ => (hit.map (fun k => (k, fld s fr 0x530 8 8)), if fbit s fr 0x530 17 then s else clrBit fr 0x530 16 s)

/-- May a flit cross in a direction: inbound no request but the opcodes 0x20 to 0x26, outbound no snoop (R196)? -/
def mayCross (out : Bool) (f : Flit) : Bool :=
  match f.net with
  | .req => out || decide (0x20 ≤ f.op)
  | .snp => !out
  | _ => true

/-- An engine places a flit on its channel when it holds a credit of the pool, else the flit waits (R195, R196, R200). -/
def linkSend (d : Nat) (out : Bool) (f : Flit) (s : State) : State :=
  let q := quarterOf out f
  let l := lnk s d
  let p := poolIx out q f.net
  let fr := frEnd d out
  if linkSt s d out ≠ lL0 ∨ mayCross out f = false then s
  else if poolCap l out q f.net ≤ mget l.used p then count fr 8 1 s
  else
    let ch := nextChan s d out q f.net
    let r := injectLink d out q f.net ch s
    let s := updLink d (fun l => { l with used := mset l.used p (mget l.used p + 1), fly := l.fly ++ [{ out := out, q := q, ch := ch, f := f, inj := r.1 }] }) r.2
    count fr (netIx f.net) 1 (launched d out q f.net s)

/-- What the decoder makes of lane `k` of a codeword `w` with check bits `c`, after an injection and what nature did: the data after
correction, and the syndrome. -/
def codeDecode (w c : Nat) (inj : List (Nat × Nat)) (errs : List LaneErr) (k : Nat) : Nat × Nat × Dec :=
  let d := errs.foldl (fun a e => if e.lane = k then a ^^^ e.data.toNat else a) w
  let c := errs.foldl (fun a e => if e.lane = k then a ^^^ e.chk.toNat else a) c
  let c := inj.foldl (fun a e => if e.1 = k then a ^^^ e.2 else a) c
  let syn := syndrome d c
  (correct d (decodeSyn syn), syn, decodeSyn syn)

/-- A lane of a flit in flight, decoded. -/
def laneDecode (x : Fly) (errs : List LaneErr) (k : Nat) : Nat × Nat × Dec :=
  codeDecode (laneWord x.f k) (checkBits (laneWord x.f k)) x.inj errs k

/-- How many of the three indications of R191 say that a flit is present: the frame bits of lane 0, inverted where nature did, and a
syndrome other than that of the idle codeword. -/
def presence (sent : Bool) (errs : List LaneErr) (syn : Nat) : Nat :=
  let e0 := errs.filter (fun e => e.lane = 0)
  b2n (sent != (e0.any (·.frm0))) + b2n (sent != (e0.any (·.frm1))) + b2n (decide (syn ≠ 0xFF))

/-- The data of a flit from its lanes `b` to `b + 7`. -/
def laneData (ws : List Nat) (b : Nat) : Line :=
  BitVec.ofNat 512 ((List.range 8).foldl (fun a k => a + (ws.getD (b + k) 0) * 2 ^ (64 * k)) 0)

/-- The flit that the corrected lanes spell. -/
def rebuild (x : Flit) (ws : List Nat) (poison : Bool) : Flit :=
  let g := match x.net with
    | .dat => { readFlit (ws.getD 8 0) x with data := laneData ws 0 }
    | .rsp => readFlit (ws.getD 0 0) x
    | _ => readFlit (ws.getD 0 0 + (ws.getD 1 0) * 2 ^ 64) x
  { g with poison := g.poison || poison }

/-- A receiving end looks at lane 0 of channel 0 in a cycle in which no flit was sent (R191): a disagreement makes a CE, and where two
indications say that a flit is present, what is received can be no flit and is discarded with its UCD. -/
def idleReceive (d : Nat) (out : Bool) (q : Nat) (net : Net) (errs : List LaneErr) (s : State) : State :=
  let dieEnd := !out
  let n := presence false errs (codeDecode 0 0xFF [] errs 0).2.1
  let wg := laneWg (lnk s d) dieEnd out q net 0 0
  if n = 0 ∨ linkSt s d dieEnd ≠ lL0 then s
  else
    let s := if n = 3 then s else logErr (linkErr s d dieEnd 0x02 0 wg out 36) s
    if 2 ≤ n then logErr (linkErr s d dieEnd 0x04 2 wg out 0x3F) s else s

/-- The I/O-die end or the die end receives the oldest flit of a direction, quarter and network (R191, R192, R195, R200). -/
def linkReceive (d : Nat) (out : Bool) (q : Nat) (net : Net) (errs : List LaneErr) (s : State) : State :=
  let l := lnk s d
  match l.fly.find? (fun x => x.out == out && decide (x.q = q) && decide (x.f.net = net)) with
  | none => idleReceive d out q net errs s
  | some x =>
    let dieEnd := !out
    let fr := frEnd d dieEnd
    let p := poolIx out q net
    let held := l.used
    let wg := laneWg l dieEnd out q net x.ch
    let s := updLink d (fun l => { l with fly := l.fly.erase x }) s
    let gone := fun (s : State) => scrap x.f s
    let credit := fun (s : State) => updLink d (fun l => { l with ret := mset l.ret p (mget l.ret p + 1) }) s
    if linkSt s d dieEnd = lHOLD then gone s
    else
      let n := laneCount net
      let rs := (List.range n).map (laneDecode x errs)
      let votes := presence true errs (rs.getD 0 default).2.1
      let plane := decide (net = .dat) && errs.any (fun e => decide (e.lane = 1) && (e.frm0 != e.frm1))
      let s := if votes = 3 then s else logErr (linkErr s d dieEnd 0x02 0 (wg 0) out 36) s
      let s := if plane then logErr (linkErr s d dieEnd 0x02 0 (wg 1) out 36) s else s
      if votes < 2 then gone s
      else
        let s := count fr (4 + netIx net) 1 s
        if mget held p = 0 then gone (logErr (linkErr s d dieEnd 0x05 2 (wg 0) out 0x3F) s)
        else
          let s := credit s
          let s := (List.range n).foldl (fun s k =>
            match (rs.getD k default).2.2 with
            | .fixed i => noteFix d (wgKey out (wg k)) (decSignal (.fixed i)) s
            | .check j => noteFix d (wgKey out (wg k)) (decSignal (.check j)) s
            | _ => s) s
          let bad := (List.range n).filter (fun k => (rs.getD k default).2.2 = .bad)
          let isData := fun (k : Nat) => decide (net = .dat) && decide (k < 8)
          match bad.find? (fun k => !(isData k)) with
          | some k => gone (logErr (linkErr s d dieEnd 0x04 2 (wg k) out 0x3F) s)
          | none =>
            let s := match bad with
              | [] => s
              | k :: _ => logErr (linkErr s d dieEnd 0x03 1 (wg k) out 0x3F) s
            let g := rebuild x.f (rs.map (·.1)) (!bad.isEmpty)
            let g := if plane then { g with plane0 := true } else g
            if g = x.f then s else { s with wires := swapFlit x.f g s.wires, live := s.live.erase x.f }

/-- The codeword of a LinkCredit: OPC 0x3F, and the credits of REQ, SNP, RSP and DAT in ten bits each (R201). -/
def creditWord (ns : List Nat) : Nat :=
  0x3F + (ns.zipIdx).foldl (fun a e => a + (e.1 % 1024) * 2 ^ (6 + 10 * e.2)) 0

/-- A LinkCredit returns the credits of the pools of a quarter to their transmitter (R191, R192, R201): it carries no more than the receiver
holds for return, crosses on an RSP channel of the opposite direction, and is discarded when its lane is uncorrectable. `ns` are the counts of
REQ, SNP, RSP and DAT. -/
def creditTake (d : Nat) (out : Bool) (q : Nat) (ns : List Nat) (errs : List LaneErr) (s : State) : State :=
  let txEnd := out
  let ch := nextChan s d (!out) q .rsp
  let nets : List Net := [.req, .snp, .rsp, .dat]
  let due := (nets.zip ns).map (fun e => min e.2 (mget (lnk s d).ret (poolIx out q e.1)))
  if due.all (· = 0) ∨ linkSt s d (!out) ≠ lL0 then s
  else
    let r := injectLink d (!out) q .rsp ch s
    let s := count (frEnd d (!out)) 9 1 (launched d (!out) q .rsp r.2)
    let s := (nets.zip due).foldl (fun s e => updLink d (fun l => { l with ret := mset l.ret (poolIx out q e.1) (mget l.ret (poolIx out q e.1) - e.2) }) s) s
    let w := creditWord due
    let x := codeDecode w (checkBits w) r.1 errs 0
    let wg := laneWg (lnk s d) txEnd (!out) q .rsp ch 0
    let votes := presence true errs x.2.1
    let s := if votes = 3 then s else logErr (linkErr s d txEnd 0x02 0 wg (!out) 36) s
    if votes < 2 then s
    else match x.2.2 with
      | .bad => logErr (linkErr s d txEnd 0x04 2 wg (!out) 0x3F) s
      | c =>
        let s := match c with
          | .fixed _ => noteFix d (wgKey (!out) wg) (decSignal c) s
          | .check _ => noteFix d (wgKey (!out) wg) (decSignal c) s
          | _ => s
        (nets.zip due).foldl (fun s e => updLink d (fun l => { l with used := mset l.used (poolIx out q e.1) (mget l.used (poolIx out q e.1) - e.2) }) s) s

/-! ### Registers -/

/-- `LNK_WGSTAT` of the group that an end's `LNK_WGSEL` selects (Table 6.17). -/
def wgStat (s : State) (d : Nat) (dieEnd : Bool) : Nat :=
  let fr := frEnd d dieEnd
  let g := fld s fr 0x420 0 7
  let out := fbit s fr 0x420 7
  if 96 ≤ g then 0
  else
    let l := lnk s d
    let w := mget l.wg (wgKey out g)
    let q := g / 24
    let r := if (if dieEnd then l.setD else l.setI) then roleOf l dieEnd out q (g % 24) else (0, 0, 0)
    b2n (bit (maskOf l dieEnd out q) (g % 24)) + b2n w.clkFail * 2 + w.rep0 * 4 + w.rep1 * 256 + r.1 * 2 ^ 14 +
      r.2.1 * 2 ^ 17 + r.2.2 * 2 ^ 21 + w.eyeMin.getD 0 * 2 ^ 32 + (if dieEnd == !out then w.cecnt * 2 ^ 48 else 0)

/-- A signed field of `w` bits. -/
def signedFld (w v : Nat) : Int := if bit v (w - 1) then (v : Int) - 2 ^ w else v

/-- The effective code of R209. -/
def effCode (nom ofs_ lo hi : Nat) (w : Nat) : Nat := (min (max ((nom : Int) + signedFld w ofs_) lo) hi).toNat

/-- `LNK_TUNE` as it reads, with the effective codes (Table 6.18). -/
def lnkTune (s : State) (fr : Nat) : Nat :=
  let t := (reg s fr 0x430).toNat
  let f := (Config.factory fr 0x438).toNat
  bits t 0 6 + bits t 8 4 * 256 +
    (effCode (bits f 0 6) (bits t 0 6) (bits f 6 6) (bits f 12 6) 6 % 64) * 2 ^ 16 +
    (effCode (bits f 18 4) (bits t 8 4) (bits f 22 4) (bits f 26 4) 4 % 16) * 2 ^ 24

/-- A write of a cut register at the I/O-die end (R12, R197, R226). -/
def cutWrite (d : Nat) (out : Bool) (v : Nat) (s : State) : State :=
  let off := if out then 0x418 else 0x410
  let old := (reg s (frAp d) off).toNat
  let new := (List.range 4).foldl (fun w q =>
    let x := cutQ v q
    let w := if x.1 = 0 ∨ x.1 = 3 then w else setBits w (9 * q) 2 x.1
    let w := if x.2.1 = 0 then w else setBits w (9 * q + 2) 3 x.2.1
    if x.2.2 = 0 then w else setBits w (9 * q + 5) 4 x.2.2) old
  if !s.lockOpen then s
  else if (List.range 4).all (fun q => cutOk (cutQ new q)) then setReg (frAp d) off (BitVec.ofNat 64 new) s
  else setBit (frAp d) 0x400 18 s

/-- CHKMASK bits that an injection may set, by KIND of the frame (Table 15.7). -/
def injMask (k : Nat) : Nat :=
  if k = 0x11 ∨ k = 0x30 ∨ k = 0x31 ∨ k = 0x10 ∨ k = 0x07 ∨ k = 0x04 then 0xFF
  else if k = 0x13 then 0xF
  else if k = 0x14 then 3
  else 0

/-- Would a value be refused by the injection register of a frame (R525)? -/
def injRefused (f : Nat) (v : Nat) : Bool :=
  let m := bits v 8 8
  (bit v 16 && !(decide (popcount 8 m = 1) || decide (popcount 8 m = 2))) || decide (m &&& injMask (keyKind f) ≠ m)

/-- A write of an injection register (R223, R525). DESIGN CHOICE: a WG of 96 to 127, which names no group and which the spec does not call
reserved, is stored, and the injection never fires. -/
def injWrite (f part v : Nat) (s : State) : State :=
  if part = 15 ∧ fbit s frFlt 8 0 = true ∧ hasErrBank (keyKind f) = true ∧ injRefused f v = false then
    let w := bits v 0 7 + bits v 8 10 * 256 + bits v 32 16 * 2 ^ 32
    { setReg f 0x530 (BitVec.ofNat 64 w) s with flt := { s.flt with injAt := mset s.flt.injAt f (if bit v 16 then s.tb else 0) } }
  else s

end Sys2Proof.Machine
end

