-- ==== Sys2Proof/Machine/FabOps.lean ====
section
/-! DEFINITION. The I/O-die fabric: route entries, epochs and stops, what an Agdel port does with flits of its die and
for its die, fences, parking and probes (chapter 7).
Log entries with the choices and readings made here: 9, 10, 30, 43, 50, 61, 201. -/

namespace Sys2Proof.Machine

/-! ### Routes (R232, R240 to R243) -/

/-- The stop of a flit's destination; 96 for the pair-partner proxy (R232). -/
def dstStop (a : Nat) : Nat :=
  if agDie a < 12 then unitStop (0x20 + agDie a) else if agDie a = 12 then unitStop (agUnit a) else 96

/-- Segments of a SEG value: direction and hops (R241). -/
def segsOf (n : Nat) : List (Nat × Nat) := (List.range 6).map (fun i => (bits n (6 * i) 2, bits n (6 * i + 2) 4))

/-- Walk segments from (x, y): where they end, or none when they leave the mesh, when a nonzero segment follows a zero
one, or when a west segment follows another direction (R242). -/
def walkSegs : List (Nat × Nat) → Nat → Nat → Bool → Bool → Option (Nat × Nat)
  | [], x, y, _, _ => some (x, y)
  | (d, n) :: t, x, y, ended, turned =>
    if n = 0 then walkSegs t x y true turned
    else if ended ∨ 11 < n ∨ (d = 1 ∧ turned = true) then none
    else if d = 0 then (if x + n ≤ 11 then walkSegs t (x + n) y false true else none)
    else if d = 1 then (if n ≤ x then walkSegs t (x - n) y false turned else none)
    else if d = 2 then (if n ≤ y then walkSegs t x (y - n) false true else none)
    else (if y + n ≤ 7 then walkSegs t x (y + n) false true else none)

/-- Stops that segments pass, the last included. -/
def passSegs : List (Nat × Nat) → Nat → Nat → List Nat
  | [], _, _ => []
  | (d, n) :: t, x, y =>
    if d = 0 then (List.range n).map (fun i => 12 * y + x + i + 1) ++ passSegs t (x + n) y
    else if d = 1 then (List.range n).map (fun i => 12 * y + (x - i - 1)) ++ passSegs t (x - n) y
    else if d = 2 then (List.range n).map (fun i => 12 * (y - i - 1) + x) ++ passSegs t x (y - n)
    else (List.range n).map (fun i => 12 * (y + i + 1) + x) ++ passSegs t x (y + n)

/-- A SEG value of segments. -/
def segWord (ss : List (Nat × Nat)) : Nat := ((ss.zipIdx).foldl (fun a e => a + (e.1.1 + 4 * e.1.2) * 2 ^ (6 * e.2)) 0)

/-- Stop at the end of `n` hops in direction `d` from stop `q`, when the mesh has it (R241). -/
def hopTo (q d n : Nat) : Option Nat :=
  if d = 0 then (if q % 12 + n ≤ 11 then some (q + n) else none)
  else if d = 1 then (if n ≤ q % 12 then some (q - n) else none)
  else if d = 2 then (if 12 * n ≤ q then some (q - 12 * n) else none)
  else if q / 12 + n ≤ 7 then some (q + 12 * n) else none

/-- Stops that routes reach, each with the segments that lead to it: every known route is lengthened by one segment in one of the
directions `ds` that passes none of `shut` but may end at `e`. -/
def growRoutes (shut : List Nat) (e : Nat) (ds : List Nat) (l : List (Nat × List (Nat × Nat))) : List (Nat × List (Nat × Nat)) :=
  l.foldl (fun acc c => if 6 ≤ c.2.length then acc else
    (ds.flatMap (fun d => (List.range 11).map (fun n => (d, n + 1)))).foldl (fun acc z =>
      match hopTo c.1 z.1 z.2 with
      | none => acc
      | some q =>
        if acc.any (fun k => k.1 = q) || (passSegs [z] (c.1 % 12) (c.1 / 12)).any (fun x => x ≠ e && shut.contains x) then acc
        else acc ++ [(q, c.2 ++ [z])]) acc) l

/-- A route from stop `t` to stop `e` that obeys R242 and passes none of `shut`: the XY path if it is open, else one of the fewest
segments. -/
def findRoute (shut : List Nat) (t e : Nat) : Option Nat :=
  let x := t % 12
  let y := t / 12
  let ex := e % 12
  let ey := e / 12
  let v : Nat × Nat := if y ≤ ey then (3, ey - y) else (2, y - ey)
  let h : Nat × Nat := if ex ≤ x then (1, x - ex) else (0, ex - x)
  let xy := [h, v].filter (fun z => z.2 ≠ 0)
  if (passSegs xy x y).all (fun q => q = e || !(shut.contains q)) then some (segWord xy)
  else
    let l := growRoutes shut e [1] [(t, [])]
    let l := (List.range 6).foldl (fun l _ => if l.any (fun k => k.1 = e) then l else growRoutes shut e [0, 2, 3] l) l
    (l.find? (fun k => k.1 = e)).map (fun k => segWord k.2)

/-- Which partitions' flits the Cox's routes lead to a stop, beside the system's: homes, interrupt controllers, the
Boathouse and the Cox serve every partition with a layout; an Agdel port, a root port or a probe stop its owner. -/
def reachMask (v : Vis) (e : Nat) : Nat :=
  let u := stopUnit e
  let some_ := (List.range 12).filter (fun p => v.dieP.any (· = p))
  let ps :=
    if u < 0x20 ∨ (0x60 ≤ u ∧ u < 0x64) ∨ (0x68 ≤ u ∧ u < 0x6C) ∨ u = 0x70 then some_
    else if 0x20 ≤ u ∧ u < 0x2C then (List.range 12).filter (fun p => v.dieP.getD (u - 0x20) 15 = p)
    else if 0x30 ≤ u ∧ u < 0x3C then (List.range 12).filter (fun p => v.rpP.getD (u - 0x30) 15 = p)
    else if 0x78 ≤ u ∧ u < 0x7C then (List.range 12).filter (fun p => (List.range 4).any (fun i => mget v.probeP (4 * (u - 0x78) + i) = p + 1))
    else []
  ps.foldl (fun m p => m + 2 ^ p) (2 ^ 15)

/-- The entry that the Cox's route set puts at a stop (Table 7.4). -/
def setEnt (r : RouteSet) (t e : Nat) : Nat :=
  if !r.written ∨ 96 < e then 0
  else
    let dst := if e < 96 then some e else r.pair
    match dst with
    | none => 0
    | some q =>
      if r.shut.contains q then 0
      else match findRoute (r.shut.erase t) t q with
        | none => 0
        | some g => g + (if e < 96 then reachMask r.vis e else 2 ^ 15) * 2 ^ 36 + 2 ^ 52

/-- Key of a single route entry. -/
def entKey (b t e : Nat) : Nat := b * 16384 + t * 128 + e
/-- Entry `e` of bank `b` of stop `t`: the one written last. -/
def routeEnt (s : State) (b t e : Nat) : Nat :=
  match mfind s.fab.ents (entKey b t e) with
  | some w => w.toNat
  | none => setEnt (if b = 0 then s.fab.set0 else s.fab.set1) t e

/-- The route bank in force. -/
def bank (s : State) : Nat := fld s frIof 0x008 0 1
/-- SYS 1 flits of the old epoch on the I/O die (R245). -/
def oldCnt (s : State) : Nat := (s.live.filter (fun f => b2n f.epoch ≠ bank s)).length

/-- Is a route entry's word one that an NI refuses with VALID set (R242)? -/
def routeBad (t e v : Nat) : Bool :=
  match walkSegs (segsOf v) (t % 12) (t / 12) false false with
  | none => true
  | some (x, y) =>
    if e < 96 then decide (12 * y + x ≠ e)
    else !(decide (0x30 ≤ stopUnit (12 * y + x)) && decide (stopUnit (12 * y + x) < 0x3C))

/-- A write of a route entry (R242, R243). -/
def routeWrite (t b e v : Nat) (s : State) : State :=
  if 96 ≤ t ∨ 96 < e ∨ 2 ≤ b then s
  else if b = bank s ∨ (bit v 52 = true ∧ routeBad t e v = true) then setBit (frNi t) 0x000 1 s
  else { s with fab := { s.fab with ents := mins s.fab.ents (entKey b t e) (BitVec.ofNat 64 (v % 2 ^ 53)) } }

/-- The Cox writes a complete route set into the idle bank; single entries of that bank written before go (Table 7.6 step 3). -/
def writeRoutes (r : RouteSet) (s : State) : State :=
  let i := 1 - bank s
  let es := s.fab.ents.filter (fun e => e.1 / 16384 ≠ i)
  if i = 0 then { s with fab := { s.fab with set0 := r, ents := es } } else { s with fab := { s.fab with set1 := r, ents := es } }

/-- A write of SWITCH (R244): every NI changes its bank, and what each partition sees follows the routes (R307). -/
def epochSwitch (s : State) : State :=
  if oldCnt s ≠ 0 then setBit frIof 0x008 1 s
  else
    let n := 1 - bank s
    let r := if n = 0 then s.fab.set0 else s.fab.set1
    let s := setFld frIof 0x008 0 1 n s
    if r.written then { s with vis := r.vis } else s

/-- State of a stop: 0 in service, 1 offline, 2 disabled (R246). -/
def stopState (s : State) (t : Nat) : Nat := fld s frIof (0x100 + 8 * t) 0 2

/-- A write of `IOF_STOP_CTL` (R12, R246). -/
def stopWrite (t v : Nat) (s : State) : State :=
  if 96 ≤ t ∨ v % 4 = 3 then s
  else if v % 4 = 2 ∧ oldCnt s ≠ 0 then setBit frIof 0x008 1 s
  else setFld frIof (0x100 + 8 * t) 0 2 (v % 4) s

/-! ### Ports -/

/-- Number of fence MODE in force: soft fence set. -/
def hardFenced (s : State) (n : Nat) : Bool := (port s n).fenced && fbit s (frPort n) 0x600 1
/-- A soft fence is in force or under way. -/
def softFenced (s : State) (n : Nat) : Bool :=
  ((port s n).fenced && !(fbit s (frPort n) 0x600 1)) || (port s n).soft

/-- Does the AP of a die park now (R254)? -/
def parks (s : State) (d : Nat) : Bool :=
  let st := linkSt s d false
  (die s d).d3 || decide (st = lLP) || decide (st = lWAKE) || ((decide (st = lTRAIN) || decide (st = lRETRAIN)) && softFenced s d)
/-- `AP_FENCE_STAT.PARKING` (R257): it parks, or parked flits are still to be sent. -/
def parking (s : State) (d : Nat) : Bool := parks s d || !((port s d).park.isEmpty) || !((port s d).wait.isEmpty)
/-- `PARKFULL` (R255). -/
def parkFull (s : State) (d : Nat) : Bool := decide (128 ≤ (port s d).park.length)
/-- Is an AP offline (R258)? -/
def apOffline (s : State) (d : Nat) : Bool :=
  let st := linkSt s d false
  !(hardFenced s d) &&
  ((port s d).retired || decide (st = lHOLD) || decide (st = lOFF) || decide (st = lSBUP) ||
   ((decide (st = lTRAIN) || decide (st = lRETRAIN)) && !(softFenced s d)))

/-- The frame whose bank records the errors of a port or stop (Table 17.1: AP_ERR and NI_ERR). -/
def frStop (unit : Nat) : Nat := frNi (unitStop unit)

/-- A flit meets a stop that is offline, or a hard-fenced or offline port: a request is answered with Fault, and a record
is made (R246, R253, R258). -/
def offlineAns (unit : Nat) (consq : Bool) (f : Flit) (s : State) : State :=
  let s := logErr (flitErr (frStop unit) 0x03 consq f) (scrap f s)
  if f.net = .req then send (faultRsp (agent 12 unit) cDOMAIN_OFF f) s else s

/-! ### Injection (R240, R247, R255) -/

/-- Does the NI hold a routed flit of the new epoch until the old one has drained (R247)? -/
def epochHolds (s : State) (t : Nat) (f : Flit) : Bool :=
  f.sys && decide (b2n f.epoch = bank s) && decide (oldCnt s ≠ 0) && decide (routeEnt s 0 t (dstStop f.dst) ≠ routeEnt s 1 t (dstStop f.dst))
/-- Must the NI hold a routed flit: for the old epoch to drain, or for a full parking buffer? -/
def mustHoldNi (s : State) (t : Nat) (f : Flit) : Bool :=
  epochHolds s t f ||
  (decide (agDie f.dst < 12) && parkFull s (agDie f.dst))

/-- An NI refuses a flit at injection (R240). -/
def niRefuse (t cause : Nat) (f : Flit) (s : State) : State :=
  let s := scrap f s
  if f.net = .req then send (faultRsp (agent 12 (stopUnit t)) cause f) s
  else logErr (flitErr (frNi t) 0x02 false f) s

/-- Is a flit held on its way: at its NI, or at a port that parks? The wires keep its place among the flits of its way. -/
def waitsOnWay (s : State) (f : Flit) : Bool :=
  s.fab.held.any (fun e => decide (e.2 = f)) ||
  (decide (agDie f.dst < 12) && ((port s (agDie f.dst)).park.contains f || (port s (agDie f.dst)).wait.contains f))

/-- May a message reach its agent now: nothing holds it, and what was sent before it has arrived (R82, R237)? -/
def mayArrive (s : State) (f : Flit) : Bool := inOrder s f && (arrivals f).all (fun p => !(waitsOnWay s p))

/-- A flit enters the mesh at stop `t`. -/
def niInject (t : Nat) (f : Flit) (s : State) : State :=
  let hold := fun (g : Flit) (s : State) => { s with fab := { s.fab with held := s.fab.held ++ [(t, g)] } }
  if 96 ≤ t ∨ waitsOnWay s f = true then s
  else if !f.sys then (if mustHoldNi s t f then hold f s else s)
  else
    let w := routeEnt s (bank s) t (dstStop f.dst)
    if bit w 52 = false then niRefuse t cROUTE_FAULT f s
    else if bit w (36 + f.part) = false then niRefuse t cPARTITION f s
    else
      let g := { f with epoch := decide (bank s = 1) }
      let s := { s with live := s.live ++ [g], wires := swapFlit f g s.wires }
      if mustHoldNi s t g then hold g s else s

/-- The NIs send the flits that nothing holds back any longer. -/
def niRelease (s : State) : State := { s with fab := { s.fab with held := s.fab.held.filter (fun e => mustHoldNi s e.1 e.2) } }

/-- A DISABLED stop's router refuses a SYS 1 flit (R248). -/
def disabledRefuse (t : Nat) (f : Flit) (s : State) : State :=
  if stopState s t = 2 ∧ f.sys = true then
    let s := logErr { flitErr (frNi t) 0x01 false f with info := f.dst + f.op * 2 ^ 12 + b2n f.epoch * 2 ^ 18 } (scrap f s)
    if f.net = .req then send (faultRsp (agent 12 (stopUnit t)) cROUTE_FAULT f) s else s
  else s

/-! ### Agdel ports (R155, R250 to R258) -/

/-- Does a request end with a CompAck (R139)? -/
def endsWithAck (op : Nat) : Bool := op = oRdShared || op = oRdOwn || op = oUpgrade || op = oClaimOwn || op = oRdRgn

/-- How OPENTX names a request (R250). -/
def openKey (f : Flit) : Nat × Nat := (f.src, 2 * f.txn + b2n (endsWithAck f.op))
/-- A request of a port's agent leaves: OPENTX rises (R250). -/
def openTx (n : Nat) (f : Flit) (s : State) : State :=
  updPort n (fun p => if p.opentx.contains (openKey f) then p else { p with opentx := p.opentx ++ [openKey f] }) s
/-- The requests of a die that are on their way to its port or past it. -/
def leaving (s : State) (d : Nat) : List Flit :=
  s.wires.filter (fun f => decide (f.net = .req) && decide (agDie f.src = d) && decide (agDie f.dst ≠ d))

/-- A response passes toward a port's agent, or a CompAck outward: OPENTX falls for the request it completes (R250). -/
def closeTxn (n : Nat) (f : Flit) (outward : Bool) (s : State) : State :=
  let plain := !outward && ((f.net = .rsp && [oComp, oEvictAck, oIoComp, oFault].contains f.op) ||
    (f.net = .dat && [oDataCopy, oIoData, oData].contains f.op))
  let acked := if outward then decide (f.net = .rsp) && decide (f.op = oCompAck) else f.net = .rsp && f.op = oFault
  let a := if outward then f.src else f.dst
  updPort n (fun p => { p with opentx := p.opentx.filter (fun e =>
    !((plain && decide (e = (a, 2 * f.txn))) || (acked && decide (e = (a, 2 * f.txn + 1))))) }) s

/-- What the fabric does with a SYS 1 flit that is delivered: its route entry may be missing or shut to its partition, the NI may hold it
for the old epoch, and a DISABLED stop may be the first that it enters, or one that it passes (R240, R246 to R248). A flit that already
left the fabric, for a link, meets none of it. -/
def meshRefuses (f : Flit) (s : State) : Option (State → State) :=
  let a := agDie f.src
  let b := agDie f.dst
  if f.sys = false ∨ 12 < a ∨ 12 < b ∨ (a = b ∧ a < 12) then none
  else if b < 12 && (lnk s b).fly.any (fun x => !x.out && decide (x.f = f)) then none
  else
    let t := dstStop f.src
    let known := s.live.contains f
    let w := routeEnt s (if known then b2n f.epoch else bank s) t (dstStop f.dst)
    if stopState s t = 2 then some (disabledRefuse t f)
    else if !known && !(bit w 52) then some (niRefuse t cROUTE_FAULT f)
    else if !known && !(bit w (36 + f.part)) then some (niRefuse t cPARTITION f)
    else if !known && epochHolds s t { f with epoch := decide (bank s = 1) } then some (fun s => (arrivals f).foldl (fun s g => niInject t g s) s)
    else ((passSegs (segsOf w) (t % 12) (t / 12)).find? (fun q => stopState s q = 2)).map (fun q => disabledRefuse q f)

/-- The path of a flit through the I/O die: X then Y with SYS 0, and its source route with SYS 1; a flit of a compute die starts at the
stop of its port (R234, R239). -/
def ioPath (s : State) (f : Flit) : List (Nat × Nat) :=
  let t := dstStop f.src
  let e := dstStop f.dst
  if f.sys then (passSegs (segsOf (routeEnt s (if s.live.contains f then b2n f.epoch else bank s) t e)) (t % 12) (t / 12)).map ioStop
  else xyPath (ioStop t) (ioStop e)

/-- The router inputs of the I/O die that a flit passes, from the local input of the stop where it enters (R234, Table 7.9). -/
def passInputs (s : State) (f : Flit) : List ((Nat × Nat) × Nat) :=
  if agDie f.src < 12 ∧ agDie f.src = agDie f.dst then []
  else (ioStop (dstStop f.src), 4) :: inputsOn (ioStop (dstStop f.src)) (ioPath s f)

/-- The ingress port of a home on which a request arrives: the direction of its last hop (R159, R239). -/
def ingressPort (s : State) (f : Flit) : Nat := (((passInputs s f).getLast?).map (·.2)).getD 4

/-- Does the port of a die admit a flit of it: with the die's PART, or an answer of E4 or E5 with PART 15 (R155)? -/
def admits (s : State) (d : Nat) (f : Flit) : Bool :=
  decide ((die s d).asg = some f.part) ||
  ((f.net = .rsp || f.net = .dat) && decide (f.part = 15) && (decide (f.src = agent d 100) || decide (f.src = agent d 101)) && decide (agDie f.dst = 12))

/-- A port refuses a flit with a foreign PART (R155). -/
def partRefuse (d : Nat) (f : Flit) (s : State) : State :=
  logErr { flitErr (frStop (0x20 + d)) 0x04 false f with part := diePart s d } (scrap f s)

/-- A flit from its die reaches an AP (R155, R251, R253). -/
def apInbound (d : Nat) (f : Flit) (s : State) : State :=
  if 12 ≤ d then s
  else if hardFenced s d then scrap f s
  else if !(admits s d f) then partRefuse d f s
  else if f.net = .req ∧ (port s d).fenced = true then
    logErr (flitErr (frStop (0x20 + d)) 0x08 false f) (send (faultRsp (agent 12 (0x20 + d)) cUNSUPPORTED f) (scrap f s))
  else
    let s := if f.net = .req then openTx d f s else s
    closeTxn d f true s

/-- A pattern is seen on a wake line, that of the die (`fromDie`, which the I/O-die end watches) or that to it: only the exact pattern wakes a
link in LP, and any other activity is counted (R218). -/
def wakePattern (d : Nat) (fromDie : Bool) (pat : Nat) (s : State) : State :=
  if sbWorks s d = false then s
  else if pat ≠ 0xCA then updLink d (fun l => if fromDie then { l with wakeIgn := l.wakeIgn + 1 } else { l with wakeIgnD := l.wakeIgnD + 1 }) s
  else if linkSt s d false = lLP then updLink d (fun l => { l with waking := true }) (trainStart d lWAKE 1 s)
  else s

/-- The AP takes a flit for its die: refused while hard-fenced or offline, parked, or placed on the link. A flit that parks while the link
is in LP wakes it (R256). -/
def apOutbound (d : Nat) (f : Flit) (s : State) : State :=
  if 12 ≤ d ∨ agDie f.dst ≠ d ∨ waitsOnWay s f = true then s
  else if hardFenced s d ∨ apOffline s d = true then offlineAns (0x20 + d) true f s
  else if stopState s (unitStop (0x20 + d)) ≠ 0 then offlineAns (0x20 + d) true f s
  else if parking s d then
    let s := if s.wires.contains f then s else { s with wires := s.wires ++ [f] }
    let s := if parkFull s d then updPort d (fun p => { p with wait := p.wait ++ [f] }) s else updPort d (fun p => { p with park := p.park ++ [f] }) s
    if linkSt s d false = lLP then wakePattern d false 0xCA s else s
  else
    let s := closeTxn d f false { s with live := s.live.erase f }
    linkSend d false f s

/-- A message on its way to a port that parks: the port of its die counts a request (R250), the mesh routes a SYS 1 flit (R240), and each
of its flits parks. -/
def parkOnWay (f : Flit) (s : State) : State :=
  let s := if agDie f.src < 12 ∧ f.net = .req then openTx (agDie f.src) f s else s
  (arrivals f).foldl (fun s g =>
    let routed := f.sys && !(s.live.contains g)
    let h := if routed then { g with epoch := decide (bank s = 1) } else g
    apOutbound (agDie f.dst) h (if routed then { s with live := s.live ++ [h], wires := swapFlit g h s.wires } else s)) s

/-- What the port of its sender does with a delivered message: a hard-fenced port or one in HOLD discards the flits of its agent, a port
refuses a foreign PART, and a fenced port a request of its die (R155, R221, R251, R253). The Fault that a root port's port itself sent is
no flit of its agent. -/
def portMeets (f : Flit) (s : State) : Option (State → State) :=
  let a := agDie f.src
  let b := agDie f.dst
  let ra := agUnit f.src - 0x30
  if a = b ∧ a < 12 then none
  else if a < 12 && (hardFenced s a || decide (linkSt s a false = lHOLD)) then some (scrap f)
  else if a < 12 && !(admits s a f) then some (partRefuse a f)
  else if a < 12 && decide (f.net = .req) && (port s a).fenced && !((port s a).opentx.contains (openKey f)) then some (apInbound a f)
  else if a = 12 ∧ 0x30 ≤ agUnit f.src ∧ ra < 12 ∧ hardFenced s (16 + ra) = true ∧ !(f.op = oFault ∧ f.cause = cDOMAIN_OFF) then some (scrap f)
  else none

/-- What the port or stop of its receiver does with a delivered message: requests to a fenced or offline agent are answered and other
flits to it are discarded, and a port that parks keeps them (R246, R253, R254, R258). -/
def endMeets (f : Flit) (s : State) : Option (State → State) :=
  let b := agDie f.dst
  let rb := agUnit f.dst - 0x30
  if agDie f.src = b ∧ b < 12 then none
  else if b < 12 && (hardFenced s b || apOffline s b || decide (stopState s (unitStop (0x20 + b)) ≠ 0)) then some (offlineAns (0x20 + b) true f)
  else if b < 12 && parking s b then some (parkOnWay f)
  else if b = 12 ∧ 0x30 ≤ agUnit f.dst ∧ rb < 12 ∧ hardFenced s (16 + rb) = true then some (offlineAns (agUnit f.dst) true f)
  else if b = 12 ∧ stopState s (unitStop (agUnit f.dst)) ≠ 0 then some (offlineAns (agUnit f.dst) true f)
  else none

/-- What becomes of a delivered message between the port of its sender and its receiver: first in the mesh, then at the mesh's end. -/
def meshMeets (f : Flit) (s : State) : Option (State → State) := (meshRefuses f s).orElse (fun _ => endMeets f s)

/-- The parking buffer has room: what waits enters it, and the NIs send what they hold (R255). -/
def parkRefill (d : Nat) (s : State) : State :=
  let p := port s d
  let n := 128 - p.park.length
  niRelease (updPort d (fun p => { p with park := p.park ++ p.wait.take n, wait := p.wait.drop n }) s)

/-- Can a flit be placed on the link now? -/
def linkRoom (s : State) (d : Nat) (f : Flit) : Bool :=
  let l := lnk s d
  decide (linkSt s d false = lL0) && decide (mget l.used (poolIx false (quarterOf false f) f.net) < poolCap l false (quarterOf false f) f.net)

/-- The link is in L0: send parked flits in arrival order as far as credits go (R256). -/
def parkRelease : Nat → Nat → State → State
  | 0, _, s => s
  | n + 1, d, s =>
    let s := parkRefill d s
    match (port s d).park with
    | [] => s
    | f :: t =>
      if parks s d then s
      else if apOffline s d ∨ hardFenced s d = true then
        parkRelease n d (offlineAns (0x20 + d) true f (updPort d (fun p => { p with park := t }) s))
      else if linkRoom s d f then
        let s := updPort d (fun p => { p with park := t }) s
        let s := closeTxn d f false { s with live := s.live.erase f }
        parkRelease n d (linkSend d false f s)
      else s

/-- A CoxCmd of the system to E4 of a die; its first data byte names it (1 FENCE, 2 UNFENCE, 3 range invalidation). -/
def coxCmdFlit (src d code : Nat) : Flit :=
  { net := .req, op := oCoxCmd, src := src, dst := agent d 100, txn := 0, part := 15, sys := true, datadst := src,
    data := BitVec.ofNat 512 code }

/-- CoxCmds of the Cox outstanding at E4 of a die: on the way, waiting or running there, or with their answer on the way. -/
def coxOut (s : State) (d : Nat) : Nat :=
  (s.wires.filter (fun f => (decide (f.net = .req) && decide (f.op = oCoxCmd) && decide (f.src = coxAgent) && decide (f.dst = agent d 100)) ||
    (decide (f.net = .rsp) && decide (f.op = oIoComp) && decide (f.src = agent d 100) && decide (f.dst = coxAgent)))).length +
  (die s d).coxq.length + b2n (die s d).ri.isSome

/-- The Cox commands E4 of a die; at most 8 commands are outstanding at one E4 (R85). -/
def coxCommand (f : Flit) (s : State) : State :=
  if coxOut s (agDie f.dst) < 8 ∧ s.cox.cmds.all (fun g => decide (g.dst ≠ f.dst)) then send f s
  else { s with cox := { s.cox with cmds := s.cox.cmds ++ [f] } }
/-- The CoxCmds that may go now go. -/
def coxCommands (s : State) : State := s.cox.cmds.foldl (fun s f => coxCommand f s) { s with cox := { s.cox with cmds := [] } }

/-- E4 answers a CoxCmd, with the PART that it carried (R155). -/
def cmdAnswer (d : Nat) (f : Flit) (s : State) : State := send (rsp oIoComp (agent d 100) f.src f.txn f) s

/-- The unit of a port. -/
def portUnit (n : Nat) : Nat := if n < 16 then 0x20 + n else 0x30 + (n - 16)
/-- Is there such a port? -/
def portOk (n : Nat) : Bool := decide (n < 12) || (decide (16 ≤ n) && decide (n < 28))

/-- A soft fence begins (Table 7.7 step 1). -/
def softFence (n : Nat) (s : State) : State :=
  if (port s n).fenced ∨ (port s n).soft = true then s
  else
    let s := updPort n (fun p => { p with soft := true }) (setFld (frPort n) 0x600 0 2 1 s)
    if n < 16 then send (coxCmdFlit (agent 12 (0x20 + n)) n 1) s else s

/-- Steps 2 and 3 of Table 7.7 hold: the port is fenced. -/
def fencedNow (n : Nat) (s : State) : State :=
  let p := port s n
  let quiet := p.opentx.isEmpty && (if n < 16 then (die s n).gate && (lnk s n).fly.all (fun x => !x.out) && (leaving s n).isEmpty else true)
  if p.soft && quiet then updPort n (fun p => { p with soft := false, fenced := true }) s else s

/-- The fence is lifted: the agent is released (R252). -/
def fenceLift (n : Nat) (s : State) : State :=
  let was := (port s n).fenced || (port s n).soft
  let s := updPort n (fun p => { p with soft := false, fenced := false }) (setFld (frPort n) 0x600 0 1 0 s)
  if was && decide (n < 16) then send (coxCmdFlit (agent 12 (0x20 + n)) n 2) s else s

/-- A step of a soft fence exceeds its bound (R251). -/
def fenceTimeout (n : Nat) (s : State) : State :=
  if (port s n).soft then
    let s := setBit (frPort n) 0x608 1 (fenceLift n s)
    logErr { frame := frStop (portUnit n), ty := 0x05, cls := 1, consq := true,
             part := if n < 16 then diePart s n else rpPart s (n - 16) } s
  else s

/-! ### Probes (R260 to R262) -/

/-- NET code of a flit's network for a probe (Table 7.9, R235). -/
def probeNet (f : Flit) : Nat :=
  match f.net with
  | .req => b2n f.sys
  | .rsp => 2
  | .snp => 3
  | .dat => 4 + ioPlane f

/-- MATCH and MASK of probe `k` as they act (R261). -/
def probeMatch (s : State) (k : Nat) : Nat × Nat :=
  let fr := frPb (k / 4)
  let o := 0x100 + 0x40 * (k % 4)
  let m := fld s fr (o + 8) 0 48
  let w := fld s fr (o + 16) 0 48
  let p := mget s.vis.probeP k
  if fbit s fr o 17 ∧ p ≠ 0 then (setBits m 42 4 (p - 1), setBits w 42 4 0xF) else (m, w)

/-- Probe `k` sees a flit pass. -/
def probeSee (stop prt netc : Nat) (f : Flit) (k : Nat) (s : State) : State :=
  let fr := frPb (k / 4)
  let o := 0x100 + 0x40 * (k % 4)
  let m := probeMatch s k
  if fld s fr o 0 7 = stop ∧ fld s fr o 7 3 = prt ∧ fld s fr o 10 3 = netc ∧
      ((flitBits f % 2 ^ 48) ^^^ m.1) &&& m.2 = 0 then
    let s := if fbit s fr o 13 then setFld fr (o + 0x18) 0 48 (fld s fr (o + 0x18) 0 48 + 1) s else s
    if fbit s fr o 14 then
      let ts := mget s.trace k
      let two := f.net = .req || f.net = .snp
      let r : TrcRec := { time := BitVec.ofNat 64 s.tb, at_ := BitVec.ofNat 64 (stop + prt * 128 + netc * 1024), lo := BitVec.ofNat 64 (flitBits f), hi := if two then BitVec.ofNat 64 (flitBits f / 2 ^ 64) else 0 }
      if ts.length < 512 then { s with trace := mset s.trace k (ts ++ [r]) }
      else if fbit s fr o 15 then { s with trace := mset s.trace k (ts.drop 1 ++ [r]) }
      else setBit fr o 16 s
    else s
  else s

end Sys2Proof.Machine
end

