-- ==== Sys2Proof/Machine/CsrOps.lean ====
section
/-! DEFINITION. The performance counters of a hart, its Buoy sampler, and its control and status registers (R31, R69 to R78, R532 to
R538).
Log entries with the choices and readings made here: 71, 169, 171, 172, 182, 183, 184. -/

namespace Sys2Proof.Machine

/-! ### Counters and the Buoy sampler (R532 to R538) -/

/-- Is counting inhibited for counter event register `ev` in a mode (Table 16.1)? -/
def evInhibited (ev : Word) (p : Priv) : Bool :=
  match p with
  | .m => ev.getLsbD 62
  | .s => ev.getLsbD 61
  | .u => ev.getLsbD 60
  | .vs => ev.getLsbD 59
  | .vu => ev.getLsbD 58

/-- What a counter adds when its event presents `v` (R533). -/
def evAdd (ev : Word) (prev v : Nat) : Nat :=
  let thr := bits ev.toNat 12 6
  let t := max thr 1
  if ev.getLsbD 10 then b2n (decide (t ≤ v) && decide (prev < t))
  else if thr = 0 then v else b2n (decide (thr ≤ v))

/-- A counter counts `v` of its event; a wrap sets OF and makes the counter-overflow interrupt pending (R536). -/
def hpmAdd (n v : Nat) (x : Hart) : Hart :=
  let c := mget x.hpm n
  let a := evAdd c.ev c.prev v
  let t := c.cnt.toNat + a
  let wrap := decide (2 ^ 64 ≤ t)
  let ev := if wrap then c.ev ||| (1#64 <<< 63) else c.ev
  { x with
    hpm := mset x.hpm n { ev := ev, cnt := BitVec.ofNat 64 t, prev := v }
    lcofi := x.lcofi || (wrap && !(c.ev.getLsbD 63)) }

/-- An event of Table 16.2 presents `v` in a core cycle: every counter that selects it counts, while the hart is out of
sleep (R535). -/
def event (code v : Nat) (x : Hart) : Hart :=
  if x.st ≠ .run then x
  else (List.range 8).foldl (fun y i =>
    let n := i + 3
    let c := mget y.hpm n
    if bits c.ev.toNat 0 10 = code ∧ code ≠ 0 ∧ evInhibited c.ev y.priv = false ∧ y.mcountinhibit.getLsbD n = false then
      hpmAdd n v y
    else y) x

/-- Is the mode one that the Buoy samples (Table 2.8)? M-mode never is (R77). -/
def buoyMode (x : Hart) : Bool :=
  match x.priv with
  | .m => false
  | .s => x.rnbuoyctl.getLsbD 3
  | .u => x.rnbuoyctl.getLsbD 2
  | .vu => x.rnbuoyctl.getLsbD 2
  | .vs => x.rnbuoyctl.getLsbD 4

/-- A decoded instruction passes the Buoy: at the tag point it is tagged, or LOST is set while VALID is 1 (R77, R537). DESIGN CHOICE:
where the tag point of a new period comes while an earlier tagged instruction is in flight and VALID is 0, the spec says nothing; the
new instruction takes the tag, so the earlier one leaves no record, and LOST is as before. -/
def buoyDecode (seq : Nat) (x : Hart) : Hart :=
  if x.rnbuoyctl.getLsbD 0 = false ∨ x.priv = .m ∨ x.buoy.left = 0 then x
  else
    let b := x.buoy
    let due := b.armed && decide (b.pos = 0)
    let b1 := { b with left := b.left - 1, pos := b.pos - 1 }
    if due && buoyMode x then
      if x.rnbuoyctl.getLsbD 63 then { x with buoy := { b1 with armed := false }, rnbuoyctl := x.rnbuoyctl ||| (1#64 <<< 62) }
      else { x with buoy := { b1 with armed := false, tagged := some seq, mode := x.priv } }
    else { x with buoy := b1 }

/-- The PRIV code of `rnbuoyev` (Table 2.10). -/
def privCode (p : Priv) : Nat :=
  match p with
  | .m => 0 | .u => 0 | .s => 1 | .vu => 4 | .vs => 5

/-- What the Buoy records of an instruction beside its latencies (Tables 2.10 and 2.11). -/
structure BuoyRec where
  ea : Nat := 0
  mem : Bool := false
  ld : Bool := false
  st : Bool := false
  l1m : Bool := false
  l2m : Bool := false
  tlb : Bool := false
  src : Nat := 0
  deriving DecidableEq, Repr, Inhabited

/-- The tagged instruction retires (`ret`) or is squashed: the record is latched (R76, R78, R538). The program counter, the latencies
and the misses of the instruction's own fetch are free values; MEM is 0 for an instruction that is no memory operation. -/
def buoyLatch (h seq : Nat) (r : BuoyRec) (ret : Bool) (s : State) : State :=
  let x := hart s h
  if x.buoy.tagged = some seq then
    let lat := (Config.freeWord (s.free + 1) &&& (if r.mem then 0xFFFFFFFFFFFF#64 else 0xFFFF0000FFFF#64))
    let miss := Config.freeNat (s.free + 2) % 8
    let ev := b2n ret + b2n r.ld * 8 + b2n r.st * 16 + b2n (r.l1m || bit miss 0) * 32 + b2n (r.l2m || bit miss 1) * 64 +
      b2n (r.tlb || bit miss 2) * 128 + r.src * 256 + privCode x.buoy.mode * 4096
    updHart h (fun x => { x with
      buoy := { x.buoy with tagged := none }
      rnbuoyctl := x.rnbuoyctl ||| (1#64 <<< 63)
      rnbuoypc := Config.freeWord s.free, rnbuoyea := BitVec.ofNat 64 r.ea, rnbuoylat := lat, rnbuoyev := BitVec.ofNat 64 ev
      lcofi := x.lcofi || x.rnbuoyctl.getLsbD 1 }) { s with free := s.free + 3 }
  else s

/-- Event codes of Table 16.2. -/
def eventCode (n : Nat) : Bool :=
  [0x001, 0x002, 0x010, 0x011, 0x012, 0x013, 0x014, 0x020, 0x021, 0x022, 0x023, 0x024, 0x025, 0x026, 0x027, 0x028, 0x029,
   0x02A, 0x02B, 0x02C, 0x02D, 0x02E, 0x02F, 0x044, 0x045, 0x046, 0x047, 0x048, 0x050, 0x051, 0x060, 0x061, 0x062].contains n

/-- Write `mhpmeventn` (R532): an unlisted code writes 0; reserved bits read zero. -/
def hpmEventWrite (n : Nat) (v : Word) (x : Hart) : Hart :=
  let e := bits v.toNat 0 10
  let w := v &&& 0xFC0000000003F400#64
  let w := w ||| BitVec.ofNat 64 (if eventCode e then e else 0)
  if 3 ≤ n ∧ n ≤ 10 then { x with hpm := mset x.hpm n { mget x.hpm n with ev := w, prev := 0 } } else x

/-- Write a counter: 0 is `mcycle`, 2 `minstret`, 3 to 10 the programmable counters; the others read zero (R31, R535). -/
def hpmCounterPut (n : Nat) (v : Word) (x : Hart) : Hart :=
  if n = 0 then { x with mcycle := v }
  else if n = 2 then { x with minstret := v }
  else if 3 ≤ n ∧ n ≤ 10 then { x with hpm := mset x.hpm n { mget x.hpm n with cnt := v } }
  else x

/-- Read a counter. -/
def hpmCounterGet (n : Nat) (x : Hart) : Word :=
  if n = 0 then x.mcycle else if n = 2 then x.minstret else if 3 ≤ n ∧ n ≤ 10 then (mget x.hpm n).cnt else 0

/-- Write `rnbuoyctl` (Table 2.8): PERIOD 0 is reserved; VALID and LOST clear on a 1. DESIGN CHOICE: clearing EN drops the tag of an
instruction in flight, which then leaves no record; the spec does not say what becomes of it. -/
def buoyCtl (v : Word) (x : Hart) : Hart :=
  let n := v.toNat
  let o := x.rnbuoyctl.toNat
  let o := setBits o 0 5 (bits n 0 5)
  let o := if bits n 8 12 = 0 then o else setBits o 8 12 (bits n 8 12)
  let o := if bit n 62 then putBit o 62 false else o
  let o := if bit n 63 then putBit o 63 false else o
  let on := bit n 0 && !(x.rnbuoyctl.getLsbD 0)
  { x with rnbuoyctl := BitVec.ofNat 64 o, buoy := if on || !(bit n 0) then {} else x.buoy }

/-! ### The CSRs of the ratified specifications (R30 to R33)

The numbers, the places of the fields and the privilege rules are those of the ratified RISC-V specifications, which R30 names
(PRESUMED: the specification gives the parameters of Table 2.1 and no layout). -/

/-- The identity registers of Table 2.1; `mhartid` is as given by R21. -/
def idCsr (h csr : Nat) : Option Nat :=
  match csr with
  | 0xF11 => some 0xA53
  | 0xF12 => some 0x8000000000000576
  | 0xF13 => some 0xA02
  | 0xF14 => some h
  | _ => none

/-- The `time` that a hart reads: its die's copy of the timebase plus `DIE_TOFS` (R433, R495). -/
def hartTime (s : State) (h : Nat) : Word := BitVec.ofNat 64 (die s (h / 48)).tbc + reg s (frDie (h / 48)) 0x700

/-- The CSR that an S-level number names in VS-mode. -/
def csrAlias (x : Hart) (csr : Nat) : Nat :=
  if x.priv = .vs then
    match csr with
    | 0x104 => 0x204
    | 0x144 => 0x244
    | 0x14D => 0x24D
    | 0x180 => 0x280
    | n => n
  else csr

/-- CSRs held as they are written, within a mask: the counter enables, `mcountinhibit` aside; `htimedelta`; the address-translation
registers with their ASID of 16 and VMID of 14 bits; PMP of 16 entries with a granularity of 4 KiB, and `mseccfg` (Table 2.1). -/
def csrMask (csr : Nat) : Option Word :=
  if csr = 0x106 ∨ csr = 0x306 ∨ csr = 0x606 then some 0xFFFFFFFF
  else if csr = 0x605 then some (BitVec.allOnes 64)
  else if csr = 0x180 ∨ csr = 0x280 then some (BitVec.allOnes 64)
  else if csr = 0x680 then some 0xF3FFFFFFFFFFFFFF#64
  else if csr = 0x3A0 ∨ csr = 0x3A2 then some 0x9F9F9F9F9F9F9F9F#64
  else if 0x3B0 ≤ csr ∧ csr < 0x3C0 then some 0x3FFFFFFFFFFFFF#64
  else if csr = 0x747 then some 7
  else none

/-- Is a CSR one that this model holds beside the vendor CSRs? -/
def stdCsr (h csr : Nat) : Bool :=
  (idCsr h csr).isSome || (csrMask csr).isSome ||
  [0x104, 0x144, 0x204, 0x244, 0x14D, 0x24D, 0x300, 0x304, 0x30A, 0x30C, 0x320, 0x344, 0x600, 0x60C].contains csr ||
  (decide (0x323 ≤ csr) && decide (csr < 0x340)) || (decide (0xB00 ≤ csr) && decide (csr < 0xB20) && decide (csr ≠ 0xB01)) ||
  (decide (0xC00 ≤ csr) && decide (csr < 0xC20))

/-- May a mode read a counter CSR (`mcounteren`, `hcounteren`, `scounteren`)? The exception, if it may not. -/
def counterTrap (x : Hart) (n : Nat) : Option Nat :=
  let m := (mget x.csr 0x306).getLsbD n
  let hv := (mget x.csr 0x606).getLsbD n
  let sv := (mget x.csr 0x106).getLsbD n
  match x.priv with
  | .m => none
  | .s => if m then none else some 2
  | .u => if m && sv then none else some 2
  | .vs => if !m then some 2 else if hv then none else some 22
  | .vu => if !m then some 2 else if hv && sv then none else some 22

/-- The lowest mode that a CSR number admits, by its bits [9:8]: 22 where a virtual mode reaches for what HS-mode may access. -/
def levelTrap (x : Hart) (csr : Nat) : Option Nat :=
  let lvl := csr / 256 % 4
  match x.priv with
  | .m => none
  | .s => if lvl ≤ 2 then none else some 2
  | .u => if lvl = 0 then none else some 2
  | .vs => if lvl ≤ 1 then none else if lvl = 2 then some 22 else some 2
  | .vu => if lvl = 0 then none else if lvl ≤ 2 then some 22 else some 2

/-- The exception that a CSR access raises: 2 illegal, 22 virtual instruction (R69, R70). -/
def csrTrap (x : Hart) (csr : Nat) (wr : Bool) : Option Nat :=
  if [0x5C0, 0x5C1, 0x5C4, 0xDC0, 0xDC1, 0xDC2, 0xDC3].contains csr then
    if wr && decide (0xDC0 ≤ csr) then some 2
    else match x.priv with
      | .m => none
      | .s => if x.mstateenC then none else some 2
      | .vs => if !x.mstateenC then some 2 else if x.hstateenC then none else some 22
      | .u => some 2
      | .vu => some 2
  else if stdCsr 0 csr = false ∨ (wr = true ∧ 0xC00 ≤ csr) then some 2
  else if 0xC00 ≤ csr ∧ csr < 0xC20 then counterTrap x (csr - 0xC00)
  else levelTrap x csr

/-- The pending bits: counter overflow (13), the timer (5), the external interrupts of the IMSIC files (11 and 9). -/
def mipOf (x : Hart) : Word :=
  BitVec.ofNat 64 (b2n x.lcofi * 2 ^ 13 + b2n x.timer * 2 ^ 5 + b2n (decide (mget x.topei 0 ≠ 0)) * 2 ^ 11 + b2n (decide (mget x.topei 1 ≠ 0)) * 2 ^ 9)

/-- Value of a CSR. -/
def csrRead (s : State) (h csr : Nat) : Word :=
  let x := hart s h
  match csrAlias x csr with
  | 0x5C0 => x.rnslp
  | 0x5C1 => x.rnlatol
  | 0x5C4 => x.rnbuoyctl
  | 0xDC0 => x.rnbuoypc
  | 0xDC1 => x.rnbuoyea
  | 0xDC2 => x.rnbuoylat
  | 0xDC3 => x.rnbuoyev
  | 0x104 => x.mie &&& 0x2222
  | 0x144 => mipOf x &&& 0x2222
  | 0x204 => (x.mie >>> 1) &&& 0x222
  | 0x244 => 0
  | 0x304 => x.mie
  | 0x344 => mipOf x
  | 0x14D => x.stimecmp.getD 0
  | 0x24D => x.vstimecmp.getD 0
  | 0x300 => BitVec.ofNat 64 (b2n x.tw * 2 ^ 21)
  | 0x600 => BitVec.ofNat 64 (b2n x.vtw * 2 ^ 21)
  | 0x30A => BitVec.ofNat 64 (b2n x.adue * 2 ^ 61 + b2n x.cbie * 48)
  | 0x30C => BitVec.ofNat 64 (b2n x.mstateenC)
  | 0x60C => BitVec.ofNat 64 (b2n x.hstateenC)
  | 0x320 => x.mcountinhibit
  | 0xC01 => hartTime s h + (if x.priv = .vs ∨ x.priv = .vu then mget x.csr 0x605 else 0)
  | n =>
    if 0x323 ≤ n ∧ n < 0x340 then (mget x.hpm (n - 0x320)).ev
    else if 0xB00 ≤ n ∧ n < 0xB20 then hpmCounterGet (n - 0xB00) x
    else if 0xC00 ≤ n ∧ n < 0xC20 then hpmCounterGet (n - 0xC00) x
    else match idCsr h n with
      | some v => BitVec.ofNat 64 v
      | none => mget x.csr n

/-- A translation mode of a `satp` or `hgatp`: Bare, Sv39, Sv48 and Sv57, and their G-stage forms (Table 2.1). -/
def atpMode (v : Word) : Bool := [0, 8, 9, 10].contains (bits v.toNat 60 4)

/-- Write a CSR (Tables 2.6, 2.7, 2.8): reserved MODE values leave MODE as it is (R12). A write of a timer compare withdraws its
interrupt. -/
def csrWrite (csr : Nat) (v : Word) (x : Hart) : Hart :=
  match csrAlias x csr with
  | 0x5C0 => if bits v.toNat 0 3 ≤ 4 then { x with rnslp := BitVec.ofNat 64 (setBits x.rnslp.toNat 0 3 (bits v.toNat 0 3)) } else x
  | 0x5C1 => { x with rnlatol := BitVec.ofNat 64 (bits v.toNat 0 24) }
  | 0x5C4 => buoyCtl v x
  | 0x104 => { x with mie := (x.mie &&& ~~~0x2222#64) ||| (v &&& 0x2222) }
  | 0x204 => { x with mie := (x.mie &&& ~~~0x444#64) ||| ((v &&& 0x222) <<< 1) }
  | 0x304 => { x with mie := v &&& 0x3EEE }
  | 0x144 => { x with lcofi := v.getLsbD 13 }
  | 0x344 => { x with lcofi := v.getLsbD 13 }
  | 0x14D => { x with stimecmp := some v, timer := false }
  | 0x24D => { x with vstimecmp := some v, timer := false }
  | 0x300 => { x with tw := v.getLsbD 21 }
  | 0x600 => { x with vtw := v.getLsbD 21 }
  | 0x30A => { x with adue := v.getLsbD 61, cbie := decide (bits v.toNat 4 2 ≠ 0) }
  | 0x30C => { x with mstateenC := v.getLsbD 0 }
  | 0x60C => { x with hstateenC := v.getLsbD 0 }
  | 0x320 => { x with mcountinhibit := v &&& 0x7FD }
  | n =>
    if 0x323 ≤ n ∧ n < 0x340 then hpmEventWrite (n - 0x320) v x
    else if 0xB00 ≤ n ∧ n < 0xB20 then hpmCounterPut (n - 0xB00) v x
    else match csrMask n with
      | some k => if (n = 0x180 ∨ n = 0x280 ∨ n = 0x680) ∧ atpMode v = false then x else { x with csr := mset x.csr n (v &&& k) }
      | none => x

/-- Write an integer register: `x0` discards, and `x10` and `x11` are the argument registers that a start sets. -/
def setX (n : Nat) (v : Word) (x : Hart) : Hart :=
  if n = 0 then x
  else if n = 10 then { x with a0 := v }
  else if n = 11 then { x with a1 := v }
  else { x with xr := mset x.xr n v }

/-- Bytes `off` up of a 256-bit vector register replaced by the `size` low bytes of `v`. -/
def vecPut (d : BitVec 256) (off size v : Nat) : BitVec 256 :=
  let m := BitVec.ofNat 256 (2 ^ (8 * size) - 1) <<< (8 * off)
  (d &&& ~~~m) ||| ((BitVec.ofNat 256 v <<< (8 * off)) &&& m)

/-- A value of `size` bytes as a 64-bit register holds it, sign-extended. -/
def sext (size v : Nat) : Nat :=
  if size < 8 ∧ v.testBit (8 * size - 1) then v + (2 ^ 64 - 2 ^ (8 * size)) else v

/-- The result of an instruction goes to its destination register; `amocas.q` writes a pair. A narrow floating-point value is NaN-boxed. -/
def setRd (r : Rd) (size v : Nat) (x : Hart) : Hart :=
  match r with
  | .none => x
  | .x n sgn =>
    let y := setX n (BitVec.ofNat 64 (if sgn then sext size v else v)) x
    if size = 16 ∧ n ≠ 0 then setX (n + 1) (BitVec.ofNat 64 (v / 2 ^ 64)) y else y
  | .f n => { x with fr := mset x.fr n (BitVec.ofNat 64 (if size < 8 then 2 ^ 64 - 2 ^ (8 * size) + v % 2 ^ (8 * size) else v)) }
  | .v n off => { x with vr := mset x.vr n (vecPut (mget x.vr n) off size v) }

end Sys2Proof.Machine
end

