-- ==== Sys2Proof/Machine/Imsic.lean ====
section
/-! DEFINITION. The IMSIC files that the interrupt controllers hold, and a hart's access to them (R347 to R349).
Log entries with the choices and readings made here: 77, 78. -/

namespace Sys2Proof.Machine

/-! ### IMSIC files -/

/-- Key of file `file` of hart `h`: 0 M-level, 1 S-level, 1 + g guest file g. -/
def imKey (h file : Nat) : Nat := 16 * h + file
/-- The file. -/
def imsic (s : State) (h file : Nat) : Imsic := mget s.imsic (imKey h file)

/-- The highest-priority identity that a file delivers, 0 for none: the lowest pending and enabled identity below the
threshold while `eidelivery` is 1. -/
def imTop (x : Imsic) : Nat :=
  if x.deliv ≠ 1 then 0
  else ((List.range 2048).find? (fun i => decide (0 < i) && bit x.pend i && bit x.en i && (decide (x.thr = 0) || decide (i < x.thr)))).getD 0

/-- Interrupt controller of hart `h`: its agent. -/
def icAgent (h : Nat) : Nat := agent 12 (0x60 + h / 144)

/-- The address of a file in the DRS (R347). -/
def imAddr (h file : Nat) : Nat := drsBase + (0x800 + h) * 65536 + 0x1000 * file

/-- The update of a file that a controller sends to the hart's core (R349): the page of ADDR names the file. -/
def imUpdate (s : State) (h file id : Nat) : Flit :=
  { net := .req, op := oIntMsg, src := icAgent h, dst := hartAgent h, part := hartPart s h, sys := true, addr := 4096 * file,
    datadst := icAgent h, size := 2, data := BitVec.ofNat 512 id }

/-- Change a file, and send an update when its highest-priority deliverable identity changes. -/
def updImsic (h file : Nat) (g : Imsic → Imsic) (s : State) : State :=
  if h < 576 ∧ file < 9 then
    let x := g (imsic s h file)
    let t := imTop x
    let s := if t = x.sent then s else send (imUpdate s h file t) s
    { s with imsic := mset s.imsic (imKey h file) { x with sent := t } }
  else s

/-- An identity becomes pending. -/
def imPend (h file id : Nat) (s : State) : State :=
  if 0 < id ∧ id < 2048 then updImsic h file (fun x => { x with pend := putBit x.pend id true }) s else s

/-- The Cox clears the files of a hart: every register takes its reset value (R347). -/
def imClear (h : Nat) (s : State) : State :=
  (List.range 9).foldl (fun s file => updImsic h file (fun x => { sent := x.sent }) s) s

/-- Indirect access of a hart to a file, by the AIA's select number: 0x70 `eidelivery`, 0x72 `eithreshold`, 0x80 up the
pending array and 0xC0 up the enable array, 64 bits at each even number. Select 0 is the claim through `*topei`, which clears
the identity it reports (R349). -/
def imAccess (h file sel : Nat) (wr : Bool) (v : Nat) (s : State) : Nat × State :=
  let x := imsic s h file
  let i := 64 * (sel % 64 / 2)
  if sel = 0 then
    let t := imTop x
    (t * 65536 + t, if wr ∧ t ≠ 0 then updImsic h file (fun x => { x with pend := putBit x.pend t false }) s else s)
  else if sel = 0x70 then (x.deliv, if wr ∧ v < 2 then updImsic h file (fun x => { x with deliv := v }) s else s)
  else if sel = 0x72 then (x.thr, if wr then updImsic h file (fun x => { x with thr := v % 2048 }) s else s)
  else if 0x80 ≤ sel ∧ sel < 0xC0 ∧ sel % 2 = 0 then
    (bits x.pend i 64, if wr then updImsic h file (fun x => { x with pend := putBit (setBits x.pend i 64 v) 0 false }) s else s)
  else if 0xC0 ≤ sel ∧ sel < 0x100 ∧ sel % 2 = 0 then
    (bits x.en i 64, if wr then updImsic h file (fun x => { x with en := putBit (setBits x.en i 64 v) 0 false }) s else s)
  else (0, s)

end Sys2Proof.Machine
end

