-- ==== Sys2Proof/Machine/HartOps.lean ====
section
/-! DEFINITION. The shared operations of a core: its private caches, the store buffer, the miss handlers, and the attempt to complete
each instruction of its reorder window (chapter 2).
Log entries with the choices and readings made here: 22, 23, 67, 69, 70, 169, 188, 189, 190. -/

namespace Sys2Proof.Machine

/-! ### Addresses of an access -/

/-- The physical addresses of the bytes of an access, page by page (R33). -/
def accBytes (m : MemAcc) : List Nat :=
  (List.range m.size).map (fun i =>
    if (m.va + i) / 4096 = m.va / 4096 then m.pa + i else m.pa2 + ((m.va + i) % 4096))

/-- The lines of an access, each once. -/
def accLines (m : MemAcc) : List Nat := ((accBytes m).map lineOf).eraseDups

/-- The L1 set that an access to a line looks in: bits [13:6] of the virtual address, which choose the colour (R39). -/
def accSet (m : MemAcc) (l : Nat) : Nat :=
  if l = lineOf m.pa then m.va / 64 % 256 else (m.va + m.size - 1) / 64 % 256

/-- Byte `i` of a line. -/
def lineByte (d : Line) (i : Nat) : BitVec 8 := (d >>> (8 * i)).truncate 8
/-- Line with byte `i` replaced. -/
def setLineByte (d : Line) (i : Nat) (b : BitVec 8) : Line :=
  (d &&& ~~~((0xFF : Line) <<< (8 * i))) ||| ((b.zeroExtend 512) <<< (8 * i))
/-- Replace the bytes of `d` that `mask` names by those of `v`. -/
def mergeLine (d v : Line) (mask : BitVec 64) : Line :=
  (List.range 64).foldl (fun a i => if mask.getLsbD i then setLineByte a i (lineByte v i) else a) d
/-- Bytes as one little-endian number (R9). -/
def leNat (bs : List (BitVec 8)) : Nat := bs.foldr (fun b a => b.toNat + 256 * a) 0
/-- The low `n` bytes of a number, little-endian. -/
def leBytes (n v : Nat) : List (BitVec 8) := (List.range n).map (fun i => BitVec.ofNat 8 (v / 256 ^ i))
/-! ### The L2 and the L1s -/

/-- The way of the L2 that holds a line, as a key of the table. -/
def l2Key (x : Hart) (l : Nat) : Option Nat :=
  ((List.range 8).map (8 * l2Set l + ·)).find? (fun k => (mget x.l2 k).st ≠ .i ∧ (mget x.l2 k).line = l)
/-- The L2's copy of a line. -/
def l2Find (x : Hart) (l : Nat) : Option L2Line := (l2Key x l).map (mget x.l2)
/-- The state of a line in the L2 (Table 4.1). -/
def l2St (x : Hart) (l : Nat) : St := ((l2Find x l).map (·.st)).getD .i
/-- Does the L2 hold the line in an owned state (R115)? -/
def l2Owned (x : Hart) (l : Nat) : Bool := l2St x l = .e || l2St x l = .m

/-- Tree pseudo-LRU of 8 ways, 7 bits: point the path to way `w` at it (`towards`) or away from it. -/
def plruPoint (t w : Nat) (towards : Bool) : Nat :=
  let b2 := bit w 2
  let b1 := bit w 1
  let b0 := bit w 0
  let n1 := 1 + b2n b2
  let n2 := 3 + 2 * b2n b2 + b2n b1
  putBit (putBit (putBit t 0 (b2 == towards)) n1 (b1 == towards)) n2 (b0 == towards)
/-- The way that the tree points at. -/
def plruVictim (t : Nat) : Nat :=
  let b2 := bit t 0
  let b1 := bit t (1 + b2n b2)
  let b0 := bit t (3 + 2 * b2n b2 + b2n b1)
  4 * b2n b2 + 2 * b2n b1 + b2n b0

/-- Mark a way used. -/
def l2Touch (k : Nat) (x : Hart) : Hart :=
  { x with plru := mset x.plru (k / 8) (plruPoint (mget x.plru (k / 8)) (k % 8) false) }

/-- The line is lost to the L2: the L1 copies and a reservation on it go with it (R40, R61). -/
def l2Drop (l : Nat) (x : Hart) : Hart :=
  match l2Key x l with
  | none => x
  | some k => { x with
      l2 := mdel x.l2 k
      resv := if (x.resv.map (fun r => lineOf r.addr)) = some l then none else x.resv }

/-- Lowest write-back buffer tag that is free (64 to 79), while fewer than 16 are busy (Table 2.3). -/
def wbTag (x : Hart) : Option Nat :=
  ((List.range 16).map (64 + ·)).find? (fun t => x.wb.all (fun e => e.txn ≠ t))

/-- A request of core `h` to the slice of a line. -/
def l2Req (s : State) (h l op txn : Nat) (data : Line) (poison : Bool) : Flit :=
  { net := .req, op := op, src := hartAgent h, dst := sliceAgent (h / 48) (sliceOf (lineRegion l)), txn := txn,
    part := hartPart s h, addr := 64 * l, datadst := hartAgent h, datatxn := txn, data := data, poison := poison }

/-- Announce the eviction of an L2 line (R54, R141): clean data goes with it to the slice, which allocates it (R91). -/
def l2Evict (h k : Nat) (s : State) : State :=
  let x := hart s h
  let e := mget x.l2 k
  match wbTag x with
  | none => s
  | some t =>
    let dirty := e.st = .m || e.st = .sd
    let s := updHart h (fun x => event 0x02A 1 { l2Drop e.line x with
      wb := x.wb ++ [{ txn := t, line := e.line, st := e.st, data := e.data, poison := e.poison }] }) s
    send (l2Req s h e.line (if dirty then oWrBackDirty else oEvictClean) t e.data e.poison) s

/-- The way of a set that a fill takes: an empty way, lowest first, else the tree's victim. -/
def l2FillWay (x : Hart) (l : Nat) : Nat :=
  match ((List.range 8).map (8 * l2Set l + ·)).find? (fun k => (mget x.l2 k).st = .i) with
  | some k => k
  | none => 8 * l2Set l + plruVictim (mget x.plru (l2Set l))

/-- Put a line into the L2; `none` when its victim finds no write-back buffer and the fill waits (R55). -/
def l2Install (h l : Nat) (st : St) (data : Line) (poison nt : Bool) (s : State) : Option State :=
  let x := hart s h
  match l2Key x l with
  | some k => some (updHart h (fun x => l2Touch k { x with l2 := mset x.l2 k { mget x.l2 k with st := st } }) s)
  | none =>
    let k := l2FillWay x l
    let busy := decide ((mget x.l2 k).st ≠ .i)
    if busy && (wbTag x).isNone then none
    else
      let s := if busy then l2Evict h k s else s
      some (updHart h (fun x =>
        let x := { x with l2 := mset x.l2 k { st := st, line := l, data := data, poison := poison } }
        if nt then { x with plru := mset x.plru (k / 8) (plruPoint (mget x.plru (k / 8)) (k % 8) true) }
        else l2Touch k x) s)

/-- Write bytes of a line that the L2 owns: the line becomes M (R116), the L1D copy is updated with it (R43), the L1I
copy is invalidated, and POISON is cleared only by a write of all 64 bytes (R148, Table 15.4). -/
def l2Write (h l : Nat) (mask : BitVec 64) (v : Line) (s : State) : State :=
  updHart h (fun x =>
    match l2Key x l with
    | none => x
    | some k =>
      let e := mget x.l2 k
      let full := decide (mask = BitVec.allOnes 64)
      l2Touch k { x with l2 := mset x.l2 k { e with
        st := .m, data := mergeLine e.data v mask, poison := e.poison && !full, l1i := none } }) s

/-- An L1 takes a line of the L2 in set `set`; at most 4 lines a set, and the line that leaves a full set is the L1's own
choice (a free value). A copy in the other set goes first (R39). -/
def l1Fill (h l set : Nat) (ifetch : Bool) (s : State) : State :=
  let x := hart s h
  let inSet := (x.l2.filter (fun e => (if ifetch then e.2.l1i else e.2.l1d) = some set ∧ e.2.line ≠ l)).map (·.1)
  let r := drawNat s
  let s := if 4 ≤ inSet.length then r.2 else s
  let drop := if 4 ≤ inSet.length then inSet[r.1 % inSet.length]? else none
  updHart h (fun x =>
    let x := match drop with
      | none => x
      | some k =>
        let e := mget x.l2 k
        { x with l2 := mset x.l2 k (if ifetch then { e with l1i := none } else { e with l1d := none }) }
    match l2Key x l with
    | none => x
    | some k =>
      let e := mget x.l2 k
      { x with l2 := mset x.l2 k (if ifetch then { e with l1i := some set } else { e with l1d := some set }) }) s

/-! ### Requests to the L2's slice -/

/-- The lowest free miss handler (Table 2.3: 64). -/
def freeHnd (x : Hart) : Option Nat := (List.range 64).find? (fun i => (mfind x.hnd i).isNone)

/-- Miss handlers in use. -/
def hndBusy (x : Hart) : Nat := x.hnd.length

/-- Is a request for the line open, or its eviction not acknowledged (R166)? -/
def lineBusy (x : Hart) (l : Nat) : Bool := x.hnd.any (fun e => decide (e.2.line = l)) || x.wb.any (fun e => decide (e.line = l))

/-- Does the head of the L2 input queue wait for a miss handler, so that every request behind it waits (R57)? -/
def l2Stalled (x : Hart) : Bool := !x.inq.isEmpty

/-- Put a request into the L2 input queue, once for a line, at most 8 in all (R57). -/
def l2Queue (h : Nat) (q : L2Q) (s : State) : State :=
  updHart h (fun x => if x.inq.any (fun e => decide (e.line = q.line)) ∨ 8 ≤ x.inq.length then x else { x with inq := x.inq ++ [q] }) s

/-- A request takes miss handler `i` and leaves the core. -/
def l2Open (h i : Nat) (q : L2Q) (s : State) : State :=
  let pf := decide (q.by_ = .pf)
  let s := updHart h (fun x => event (if pf then 0x02C else 0x024) 1 (event 0x023 1 { x with
    hnd := mins x.hnd i { line := q.line, op := q.op, pf := pf, sent := true, nt := q.nt, by_ := q.by_ } })) s
  send (l2Req s h q.line q.op i 0 false) s

/-- Ask for a line, unless its request is open already: a prefetch needs 8 free handlers (R56); behind a waiting head, or with no
handler free, the request waits in the input queue (R57). -/
def l2Ask (h : Nat) (q : L2Q) (s : State) : State :=
  let x := hart s h
  if lineBusy x q.line then s
  else if q.by_ = .pf ∧ 56 < hndBusy x then updHart h (event 0x02D 1) s
  else match freeHnd x with
    | none => l2Queue h q s
    | some i => if l2Stalled x then l2Queue h q s else l2Open h i q s

/-- The L2 takes the requests of its input queue in order: one that needs a handler waits at the head until one is free, and one
whose line the L2 holds, or has asked for, is taken at once (R57). -/
def inqStep (h : Nat) (s : State) : State :=
  (hart s h).inq.foldl (fun s q =>
    let x := hart s h
    if x.inq.head? ≠ some q then s
    else
      let rest := fun (s : State) => updHart h (fun x => { x with inq := x.inq.tail }) s
      let served := match q.op with
        | 0x01 => (l2Find x q.line).isSome || lineBusy x q.line
        | 0x0B => false
        | 0x0C => false
        | _ => l2Owned x q.line || lineBusy x q.line
      if served then rest s
      else if lineBusy x q.line then s
      else match freeHnd x with
        | none => s
        | some i => l2Open h i q (rest s)) s

/-- The request for ownership of a line: `full` asks without data when the line is absent (R53), a held copy is upgraded. -/
def ownReq (x : Hart) (l : Nat) (full : Bool) (by_ : AskBy) : L2Q :=
  { line := l, op := if l2St x l = .s ∨ l2St x l = .sd then oUpgrade else if full then oClaimOwn else oRdOwn, by_ := by_ }

/-- Ask for ownership. -/
def l2AskOwn (h l : Nat) (full : Bool) (by_ : AskBy) (s : State) : State := l2Ask h (ownReq (hart s h) l full by_) s

/-! ### Completing instructions -/

/-- What class of access an instruction makes, for ordering. -/
inductive OpCls where
  | load | store | atomic | cbo | ioLoad | ioStore | other
  deriving DecidableEq, Repr, Inhabited

/-- The access of an instruction. -/
def insAcc (i : Instr) : Option MemAcc :=
  match i with
  | .load m _ => some m
  | .store m _ => some m
  | .amo m _ _ _ _ => some m
  | .lr m _ _ => some m
  | .sc m _ _ _ => some m
  | .amocas m _ _ _ _ => some m
  | .cboClean m => some m
  | .cboFlush m => some m
  | .cboInval m => some m
  | .cboZero m => some m
  | .prefetchI m => some m
  | .prefetchR m => some m
  | .prefetchW m => some m
  | _ => none

/-- Does the access fall on I/O-class addresses? -/
def accIo (s : State) (m : MemAcc) : Bool :=
  match pma s (hartPart s m.hart) m.pa with
  | .io _ => true
  | _ => false

/-- The ordering class of an instruction. -/
def insCls (s : State) (i : Instr) : OpCls :=
  match i with
  | .load m _ => if accIo s m then .ioLoad else .load
  | .store m _ => if accIo s m then .ioStore else .store
  | .amo _ _ _ _ _ => .atomic
  | .lr _ _ _ => .atomic
  | .sc _ _ _ _ => .atomic
  | .amocas _ _ _ _ _ => .atomic
  | .cboClean _ => .cbo
  | .cboFlush _ => .cbo
  | .cboInval _ => .cbo
  | .cboZero _ => .cbo
  | _ => .other

/-- Is the instruction an atomic with `aq`? -/
def insAq (i : Instr) : Bool :=
  match i with
  | .amo _ _ _ aq _ => aq
  | .lr _ aq _ => aq
  | .sc _ _ aq _ => aq
  | .amocas _ _ _ aq _ => aq
  | _ => false

/-- The fence that an instruction is, if it is one: predecessor and successor sets (R65). -/
def insFence (i : Instr) : Option FenceSet :=
  match i with
  | .fence _ fs _ => some fs
  | .sfenceWInval _ => some { pw := true, sw := true }
  | .sfenceInvalIr _ => some { pr := true, sr := true }
  | _ => none

/-- Does an older incomplete instruction hold back a younger access of class `c` (R37, R60, R65, R583)? -/
def heldBack (s : State) (older : List HOp) (c : OpCls) : Bool :=
  older.any (fun o =>
    insAq o.ins ||
    (match insFence o.ins with
      | none => false
      | some f => match c with
        | .load => f.sr
        | .store => f.sw
        | .ioLoad => f.si
        | .ioStore => f.so
        | .atomic => f.sr || f.sw
        | .cbo => f.sw
        | .other => false) ||
    (match c with
      | .store => insCls s o.ins = .store
      | _ => false))

/-- Is an instruction a read, a write or both, for the Buoy record (Table 2.10)? -/
def insLdSt (s : State) (i : Instr) : Bool × Bool :=
  match i with
  | .lr _ _ _ => (true, false)
  | .sc _ _ _ _ => (false, true)
  | _ => match insCls s i with
    | .load => (true, false)
    | .ioLoad => (true, false)
    | .store => (false, true)
    | .ioStore => (false, true)
    | .atomic => (true, true)
    | .cbo => (false, true)
    | .other => (false, false)

/-- What the Buoy records of an instruction. A load's source is the deepest that answered it (Table 2.11). -/
def buoyRec (s : State) (o : HOp) : BuoyRec :=
  let ls := insLdSt s o.ins
  let isLoad := ls.1 && !ls.2
  { ea := ((insAcc o.ins).map (·.va)).getD 0
    mem := (insAcc o.ins).isSome
    ld := ls.1, st := ls.2, l1m := o.l1m, l2m := o.l2m, tlb := o.tlb
    src := if isLoad then o.src else 0 }

/-- An instruction retires with its result, which goes to its destination register (R34). -/
def retire (h : Nat) (o : HOp) (val : Nat) (s : State) : State :=
  let s := updHart h (fun x => event 0x002 1 { x with
    done := x.done ++ [{ seq := o.seq, val := val }]
    minstret := if x.mcountinhibit.getLsbD 2 then x.minstret else x.minstret + 1 }) s
  let s := match insAcc o.ins with
    | some m => if (insLdSt s o.ins).1 || decide (insCls s o.ins = .atomic) then updHart h (setRd m.rd m.size val) s else s
    | none => s
  let s := if insCls s o.ins = .atomic then updHart h (event 0x060 1) s else s
  buoyLatch h o.seq (buoyRec s o) true s

/-- An instruction takes an exception: nothing retires, the reservation is lost (R61), the store buffer drains (R45), and what a
younger store put into it is gone. The use of poisoned data is recorded (R513, R514). -/
def trap (h : Nat) (o : HOp) (e : Exc) (s : State) : State :=
  let s := match e.pa with
    | some pa => logErr { frame := frDlog (h / 48), ty := 0x05, cls := 1, consq := true, part := linePart s pa, addr := some pa,
                          fpart := hartPart s h, info := h % 48 / 2 } s
    | none => s
  let s := updHart h (fun x => { x with
    done := x.done ++ [{ seq := o.seq, cause := some e.cause, tval := e.tval }]
    resv := none
    sb := x.sb.filter (fun y => decide (y.seq < o.seq))
    drain := !(x.sb.filter (fun y => decide (y.seq < o.seq))).isEmpty }) s
  buoyLatch h o.seq (buoyRec s o) false s

/-- What an attempt at an instruction comes to: it waits as it then stands, it is complete with a value, it retires before it is complete,
or it raises an exception. -/
inductive Try where
  | wait (o : HOp) | fin (o : HOp) (val : Nat) | early (o : HOp) | exc (o : HOp) (e : Exc)
  deriving DecidableEq, Repr

/-- The outcome of an attempt. -/
abbrev Tried := State × Try

/-- Complete with a value. -/
def fin (o : HOp) (val : Nat) (s : State) : Tried := (s, .fin o val)
/-- Wait. -/
def wait (o : HOp) (s : State) : Tried := (s, .wait o)

/-- The use of poisoned data at `pa`: the precise hardware-error exception (R513, R514). -/
def poisonExc (o : HOp) (m : MemAcc) (pa : Nat) (s : State) : Tried := (s, .exc o { cause := 19, tval := m.va, pa := some pa })

/-- The store buffer entries older than an instruction. -/
def olderSb (x : Hart) (seq : Nat) : List SbEnt := x.sb.filter (fun e => decide (e.seq < seq))

/-- The youngest store buffer entry older than `seq` that holds a byte. -/
def sbByte (x : Hart) (seq a : Nat) : Option (BitVec 8) :=
  ((olderSb x seq).reverse.find? (fun e => decide (e.line = lineOf a) && e.mask.getLsbD (a % 64))).map
    (fun e => lineByte e.data (a % 64))

/-- Some of the bytes lie in the store buffer. -/
def sbTouches (x : Hart) (seq : Nat) (bs : List Nat) : Bool := bs.any (fun a => (sbByte x seq a).isSome)

/-- A byte of a line that the L2 holds. -/
def l2Byte (x : Hart) (a : Nat) : BitVec 8 := ((l2Find x (lineOf a)).map (fun e => lineByte e.data (a % 64))).getD 0

/-- Is a line present in the L1D at the set the access looks in? -/
def l1dHit (x : Hart) (m : MemAcc) (l : Nat) : Bool :=
  match l2Find x l with
  | some e => decide (e.l1d = some (accSet m l))
  | none => false

/-- Does the L2 hold poisoned data of a line? -/
def l2Poison (x : Hart) (l : Nat) : Bool := ((l2Find x l).map (·.poison)).getD false

/-- A load misses the L1D on a line: it takes or joins a miss buffer, asks the L2's slice when the L2 misses too, and
prefetches the next line of the page, which goes no further than the L1 while fewer than 8 miss handlers are free (R42, R50, R56). -/
def l1Miss (h l set : Nat) (nt : Bool) (s : State) : State :=
  let x := hart s h
  let ask := fun (s : State) => if l2Stalled x || decide (l2St x l = .i) then l2Ask h { line := l, op := oRdShared, nt := nt } s else s
  if x.mb.any (fun e => decide (e.1 = l)) then ask s
  else if 16 ≤ x.mb.length then s
  else
    let s := ask (updHart h (fun x => event (if l2St x l = .i then 0 else 0x023) 1 (event 0x021 1 { x with mb := x.mb ++ [(l, set)] })) s)
    let x := hart s h
    let n := l + 1
    if lineRegion n ≠ lineRegion l ∨ x.mb.any (fun e => decide (e.1 = n)) ∨ (((l2Find x n).bind (·.l1d)).isSome) ∨
       16 < x.mb.length + 4 then s
    else if 56 < hndBusy x ∨ lineBusy x n = true ∨ l2Stalled x = true then updHart h (event 0x02D 1) s
    else
      let s := updHart h (fun x => { x with mb := x.mb ++ [(n, (set + 1) % 256)] }) s
      if l2St x n ≠ .i then updHart h (event 0x02C 1) s else l2Ask h { line := n, op := oRdShared, by_ := .pf } s

/-- The I/O request of a load or store (R37), under the TXN tag 80. -/
def ioReq (s : State) (h : Nat) (m : MemAcc) (wr : Bool) (v : Nat) : Flit :=
  let dst := match pma s (hartPart s h) m.pa with
    | .io (.ecam r _) => rpAgent r
    | .io (.rpMem r _ _) => rpAgent r
    | .io (.vfCfg _ _) => agent 12 0x68
    | .io (.vfBar _ _) => agent 12 0x68
    | .io (.drs f _) =>
      match frameKind f with
      | (0x10, n) => haAgent n
      | (0x11, n) => agent 12 (0x20 + n)
      | (0x12, n) => rpAgent n
      | (0x17, n) => agent 12 (0x78 + n)
      | (0x18, n) => agent 12 (0x78 + n)
      | (0x25, _) => agent 12 0x68
      | (0x30, n) => agent n 100
      | (0x31, n) => agent n 100
      | (0x40, n) => agent 12 (0x60 + n / 144)
      | (0x41, n) => agent 12 (0x60 + n / 3)
      | _ => coxAgent
    | _ => coxAgent
  { net := .req, op := if wr then oIoWr else oIoRd, src := hartAgent h, dst := dst, txn := 80, part := hartPart s h,
    sys := true, addr := m.pa, datadst := hartAgent h, datatxn := 80,
    size := (if m.size = 1 then 0 else if m.size = 2 then 1 else if m.size = 4 then 2 else 3),
    data := BitVec.ofNat 512 (v % 2 ^ (8 * m.size)) <<< (8 * (m.pa % 64)) }

/-- Attempt an I/O-class access (R37): it leaves the core when every older instruction is complete, so that no exception of an older one
can follow it, and it is complete when it is answered. -/
def tryIo (h : Nat) (older : List HOp) (o : HOp) (m : MemAcc) (wr : Bool) (v : Nat) (s : State) : Tried :=
  if o.got then fin { o with src := 8 } (if wr then 0 else o.val) s
  else if o.sent || !older.isEmpty || (die s (h / 48)).gate then wait o s
  else wait { o with sent := true } (send (ioReq s h m wr v) s)

/-- Must an older instruction on a line of the access complete before a load: one that writes the line, or another load of it? -/
def before (s : State) (o : HOp) (m : MemAcc) : Bool :=
  (match o.ins with
    | .cboZero _ => true
    | i => insCls s i = .load || insCls s i = .store || insCls s i = .atomic) &&
  (((insAcc o.ins).map accLines).getD []).any (fun l => (accLines m).contains l)

/-- Attempt a load (R33, R37, R42, R47). An older store, atomic or load of the same line that is not complete holds it back. -/
def tryLoad (h : Nat) (older : List HOp) (o : HOp) (m : MemAcc) (nt : Bool) (s : State) : Tried :=
  let x := hart s h
  let bs := accBytes m
  if accIo s m then tryIo h older o m false 0 s
  else if heldBack s older .load || older.any (fun p => before s p m) then wait o s
  else if bs.all (fun a => (sbByte x o.seq a).isSome) then
    fin { o with src := 1 } (leNat (bs.map (fun a => (sbByte x o.seq a).getD 0))) s
  else if sbTouches x o.seq bs then wait o s
  else
    match (accLines m).find? (fun l => !(l1dHit x m l)) with
    | some l =>
      let miss2 := decide (l2St x l = .i)
      wait { o with l1m := true, l2m := o.l2m || miss2 } (l1Miss h l (accSet m l) nt s)
    | none =>
      let s := updHart h (event 0x020 1) s
      match (accLines m).find? (l2Poison x) with
      | some l => poisonExc o m (64 * l) s
      | none => fin { o with src := if o.src ≠ 0 then o.src else if o.l1m then 3 else 2 } (leNat (bs.map (l2Byte x))) s

/-- The part of a store that falls on one line: byte mask and data. -/
def storePart (m : MemAcc) (v : Line) (l : Nat) : BitVec 64 × Line :=
  ((accBytes m).zipIdx).foldl (fun a e =>
    if lineOf e.1 = l then (a.1 ||| (1#64 <<< (e.1 % 64)), setLineByte a.2 (e.1 % 64) (lineByte v e.2)) else a) (0, 0)

/-- The store buffer entry that takes a store to a line: the youngest, when it covers the line and has not begun to drain (R44). -/
def sbMerge (x : Hart) (l : Nat) : Option SbEnt := x.sb.getLast?.filter (fun e => decide (e.line = l) && !e.draining)

/-- Put one line's part of a store into the store buffer: into the entry it merges with, which keeps its age, else into a new entry (R44). -/
def sbPut (seq l : Nat) (mask : BitVec 64) (v : Line) (x : Hart) : Hart :=
  match sbMerge x l with
  | some e => { x with sb := x.sb.dropLast ++ [{ e with mask := e.mask ||| mask, data := mergeLine e.data v mask }] }
  | none => { x with sb := x.sb ++ [{ seq := seq, line := l, mask := mask, data := v }] }

/-- Does the store buffer have room for a store to these lines? -/
def sbRoom (x : Hart) (ls : List Nat) : Bool :=
  decide (x.sb.length + ls.length - b2n ((ls.head?.bind (sbMerge x)).isSome) ≤ 64)

/-- Would a store merge into an entry older than an instruction that is not complete? It waits then, for the entry must be able to leave
the buffer before that instruction completes (R60, R65, R583). -/
def sbStraddles (x : Hart) (older : List HOp) (ls : List Nat) : Bool :=
  match ls.head?.bind (sbMerge x) with
  | some e => older.any (fun p => decide (e.seq < p.seq))
  | none => false

/-- Attempt a store (R37, R44): it executes into the store buffer. -/
def tryStore (h : Nat) (older : List HOp) (o : HOp) (m : MemAcc) (v : Line) (s : State) : Tried :=
  let x := hart s h
  if accIo s m then tryIo h older o m true v.toNat s
  else if heldBack s older .store || !(sbRoom x (accLines m)) || sbStraddles x older (accLines m) then wait o s
  else
    fin o 0 (updHart h (fun x => (accLines m).foldl (fun x l => let p := storePart m v l; sbPut o.seq l p.1 p.2 x) x) s)

/-- An atomic waits to be the oldest memory operation with the older stores drained (R60). -/
def atomicReady (x : Hart) (older : List HOp) (o : HOp) : Bool := older.isEmpty && (olderSb x o.seq).isEmpty

/-- Bytes of an atomic's operand in the L2. -/
def memVal (x : Hart) (m : MemAcc) : Nat := leNat ((accBytes m).map (l2Byte x))

/-- Write an atomic's result into the owned line. -/
def memPut (h : Nat) (m : MemAcc) (v : Nat) (s : State) : State :=
  let p := storePart m (BitVec.ofNat 512 v) (lineOf m.pa)
  l2Write h (lineOf m.pa) p.1 p.2 s

/-- Signed value of `size` bytes. -/
def toSigned (size v : Nat) : Int := if v.testBit (8 * size - 1) then (v : Int) - 2 ^ (8 * size) else v

/-- The result of an AMO on operands of `size` bytes. -/
def amoResult (op : AmoOp) (size a b : Nat) : Nat :=
  let w := 2 ^ (8 * size)
  let b := b % w
  match op with
  | .swap => b
  | .add => (a + b) % w
  | .xor => a ^^^ b
  | .and => a &&& b
  | .or => a ||| b
  | .min => if toSigned size a ≤ toSigned size b then a else b
  | .max => if toSigned size a ≤ toSigned size b then b else a
  | .minu => min a b
  | .maxu => max a b

/-- Attempt an operation on an owned line: `act` is done once the line is owned; `reads` says that it uses the data, which must then
not be poisoned (R59, R60). -/
def tryOwned (h : Nat) (older : List HOp) (o : HOp) (m : MemAcc) (reads : Bool) (act : State → Tried) (s : State) : Tried :=
  let x := hart s h
  let l := lineOf m.pa
  if !(atomicReady x older o) then wait o s
  else if l2Stalled x || !(l2Owned x l) then wait { o with l2m := o.l2m || decide (l2St x l = .i) } (l2AskOwn h l false .demand s)
  else if reads && l2Poison x l then poisonExc o m (64 * l) s
  else act s

/-- The deferral window of the reservation ends; the snoops it held back can be answered (R62). -/
def closeWindow (x : Hart) : Hart := { x with resv := x.resv.map (fun r => { r with window := false }) }

/-- Execute an LR on a line that the L2 owns: the earlier reservation goes, with its window. While snoops are deferred under that window,
they are answered before the new one opens, for a window covers the snoops of its own LR alone (R61, R62). -/
def doLr (h : Nat) (o : HOp) (m : MemAcc) (s : State) : Tried :=
  if (hart s h).deferred.isEmpty then
    let old := memVal (hart s h) m
    fin { o with src := if o.l2m then o.src else 3 } (sext m.size old) (updHart h (fun x => { x with resv := some { addr := m.pa, window := true } }) s)
  else wait o (updHart h (fun x => { x with resv := none }) s)

/-- Execute an SC on a line that the L2 owns: it succeeds only with a reservation on the very address (R59, R61, R62). -/
def doSc (h : Nat) (o : HOp) (m : MemAcc) (v : Nat) (s : State) : Tried :=
  let hit := match (hart s h).resv with
    | some r => decide (r.addr = m.pa)
    | none => false
  let s1 := updHart h (fun x => { x with resv := none }) s
  if hit then fin o 0 (memPut h m v s1) else fin o 1 (updHart h (event 0x061 1) s1)

/-- Attempt a fence (R65): with R or I before it, every earlier load has its data; with W or O, the store buffer has drained and every
earlier store has entered it; with O, every earlier I/O-class store is complete. -/
def tryFence (h : Nat) (older : List HOp) (o : HOp) (f : FenceSet) (s : State) : Tried :=
  let x := hart s h
  let rd := f.pr || f.pi
  let wr := f.pw || f.po
  let waits := older.any (fun p =>
    match insCls s p.ins with
    | .load => rd
    | .ioLoad => rd
    | .ioStore => f.po
    | .store => wr
    | .atomic => rd || wr
    | .cbo => wr
    | .other => (insFence p.ins).isSome)
  if waits || (wr && !(olderSb x o.seq).isEmpty) then wait o s else fin o 0 s

/-- Attempt a cache-block instruction that the home performs (R66, R583): it waits as a store does, and retires when its request is made. -/
def tryCbo (h : Nat) (older : List HOp) (o : HOp) (m : MemAcc) (op : Nat) (s : State) : Tried :=
  let x := hart s h
  if o.got then fin o 0 s
  else if o.sent || !older.isEmpty || !(olderSb x o.seq).isEmpty || lineBusy x (lineOf m.pa) ||
      x.inq.any (fun q => decide (q.line = lineOf m.pa)) || decide (8 ≤ x.inq.length) then wait o s
  else (l2Ask h { line := lineOf m.pa, op := op, by_ := .cbo } s, .early { o with sent := true })

/-- Attempt `cbo.zero`: ownership without data, then 64 zero bytes (R66). It retires when it asks for ownership. -/
def tryCboZero (h : Nat) (older : List HOp) (o : HOp) (m : MemAcc) (s : State) : Tried :=
  let x := hart s h
  let l := lineOf m.pa
  if o.got then fin o 0 s
  else if !older.isEmpty || !(olderSb x o.seq).isEmpty then wait o s
  else if l2Owned x l && !(l2Stalled x) then fin o 0 (l2Write h l (BitVec.allOnes 64) 0 s)
  else (l2AskOwn h l true .cbo s, if o.ret then .wait o else .early o)

/-- Is an interrupt that `mie` enables pending: the IMSIC's, the counter overflow, a timer, or another source that the environment
reports as enabled? -/
def irqPending (x : Hart) : Bool :=
  x.irq || (x.lcofi && x.mie.getLsbD 13) || (x.timer && (x.mie.getLsbD 5 || x.mie.getLsbD 6 || x.mie.getLsbD 7)) ||
  x.topei.any (fun e => decide (e.2 ≠ 0) && (if e.1 = 0 then x.mie.getLsbD 11 else if e.1 = 1 then x.mie.getLsbD 9 else x.mie.getLsbD 10 || x.mie.getLsbD 12))

/-- Attempt `wrs`: the hart waits in C1 until its reservation is lost or an interrupt is pending (R64). -/
def tryWrs (h : Nat) (older : List HOp) (o : HOp) (s : State) : Tried :=
  let x := hart s h
  if !older.isEmpty then wait o s
  else if o.got || x.resv.isNone || irqPending x then
    fin o 0 (updHart h (fun x => { x with st := if x.st = .wrs then .run else x.st }) s)
  else wait o (updHart h (fun x => { x with st := if x.st = .run then .wrs else x.st }) s)

/-- Attempt a prefetch, which completes at once (R50, R51, R56, R66, R67): `own` asks for ownership into the L2 only, `ifetch` for the
L1I. It is dropped when fewer than 8 miss handlers, or too few miss buffers of its L1, are free. -/
def tryPrefetch (h : Nat) (o : HOp) (m : MemAcc) (own ifetch : Bool) (s : State) : Tried :=
  let x := hart s h
  let l := lineOf m.pa
  let set := m.va / 64 % 256
  let buf := if ifetch then x.fmb else x.mb
  let room := if ifetch then decide (buf.length + 2 ≤ 8) else decide (buf.length + 4 ≤ 16)
  let present := match l2Find x l with
    | some e => decide ((if ifetch then e.l1i else e.l1d) = some set)
    | none => false
  fin o 0 (
    if pma s (hartPart s h) m.pa ≠ .main ∨ (m.x.pte.isSome ∧ m.x.a = false) then s
    else if own then
      if l2Owned x l ∨ lineBusy x l = true then s
      else if 56 < hndBusy x ∨ l2Stalled x = true then updHart h (event 0x02D 1) s
      else l2Ask h { line := l, op := if l2St x l = .s ∨ l2St x l = .sd then oUpgrade else oRdOwn, by_ := .pf } s
    else if present || buf.any (fun e => decide (e.1 = l)) then s
    else if !room || decide (56 < hndBusy x) || l2Stalled x || lineBusy x l then updHart h (event 0x02D 1) s
    else
      let s := updHart h (fun x => if ifetch then { x with fmb := x.fmb ++ [(l, set)] } else { x with mb := x.mb ++ [(l, set)] }) s
      if l2St x l ≠ .i then updHart h (event 0x02C 1) s else l2Ask h { line := l, op := oRdShared, by_ := .pf } s)

/-- Attempt an access to a CSR, in program order: `put` is its write. -/
def tryCsr (h : Nat) (older : List HOp) (o : HOp) (csr : Nat) (wr : Bool) (v : Word) (s : State) : Tried :=
  if !older.isEmpty then wait o s
  else match csrTrap (hart s h) csr wr with
    | some c =>
      let r := drawNat s
      (r.2, .exc o { cause := c, tval := r.1 })
    | none => fin o (csrRead s h csr).toNat (if wr then updHart h (csrWrite csr v) s else s)

/-- The walker's part of an access (R32, R52): it reads the page-table entries that no TLB held through the L2, then sets the A and D
bits it must, atomically in the L2, when the access is the oldest. The access goes on when it answers `none`. -/
def walkStep (h : Nat) (older : List HOp) (o : HOp) (m : MemAcc) (s : State) : Option Tried × HOp :=
  let x := hart s h
  let left := o.walk.dropWhile (fun a => decide (l2St x (lineOf a) ≠ .i))
  let read := o.walk.takeWhile (fun a => decide (l2St x (lineOf a) ≠ .i))
  match read.find? (fun a => l2Poison x (lineOf a)) with
  | some a => (some (poisonExc o m (64 * lineOf a) s), o)
  | none =>
    let o := { o with walk := left, tlb := o.tlb || !o.walk.isEmpty }
    match left with
    | a :: _ => (some (wait o (l2Ask h { line := lineOf a, op := oRdShared } s)), o)
    | [] => match o.ads with
      | [] => (none, o)
      | e :: _ =>
        if !older.isEmpty then (some (wait o s), o)
        else if l2Stalled x || !(l2Owned x (lineOf e.1)) then (some (wait o (l2AskOwn h (lineOf e.1) false .demand s)), o)
        else
          let m1 : MemAcc := { hart := h, pa := e.1, size := 1 }
          (some (wait { o with ads := o.ads.tail } (memPut h m1 (memVal x m1 ||| e.2) s)), o)

/-- Attempt an instruction of the reorder window; `older` are the older ones that are not complete. WFI is attempted by the sleep
rules of `wfiTry`. -/
def attempt (wfiTry : Nat → List HOp → HOp → State → Tried) (h : Nat) (older : List HOp) (o : HOp) (s : State) : Tried :=
  match o.ins with
  | .load m nt => tryLoad h older o m nt s
  | .store m v => tryStore h older o m v s
  | .amo m op v _ _ => tryOwned h older o m true (fun s =>
      let old := memVal (hart s h) m
      fin o (sext m.size old) (memPut h m (amoResult op m.size old v.toNat) s)) s
  | .lr m _ _ => tryOwned h older o m true (doLr h o m) s
  | .sc m v _ _ => tryOwned h older o m false (doSc h o m v.toNat) s
  | .amocas m c n _ _ => tryOwned h older o m true (fun s =>
      let old := memVal (hart s h) m
      let w := 2 ^ (8 * m.size)
      fin o (sext m.size old) (if old = c.toNat % w then memPut h m (n.toNat % w) s else s)) s
  | .cboClean m => tryCbo h older o m oCboClean s
  | .cboFlush m => tryCbo h older o m oCboFlush s
  | .cboInval m => tryCbo h older o m oCboFlush s
  | .cboZero m => tryCboZero h older o m s
  | .prefetchI m => tryPrefetch h o m false true s
  | .prefetchR m => tryPrefetch h o m false false s
  | .prefetchW m => tryPrefetch h o m true false s
  | .fence _ f _ => tryFence h older o f s
  | .sfenceWInval _ => tryFence h older o { pw := true, sw := true } s
  | .sfenceInvalIr _ => tryFence h older o { pr := true, sr := true } s
  | .fenceI _ => tryFence h older o { pw := true } s
  | .wrsNto _ => tryWrs h older o s
  | .wrsSto _ => tryWrs h older o s
  | .wfi _ => wfiTry h older o s
  | .vendorCsrAccess _ csr wr v => tryCsr h older o csr wr v s
  | .rnbuoyctlWrite _ v => tryCsr h older o 0x5C4 true v s
  | .mhpmeventWrite _ n v => tryCsr h older o (0x320 + n) true v s
  | .hpmCounterWrite _ n v => tryCsr h older o (0xB00 + n) true v s
  | .imsicClaim _ file sel wr v =>
    if !older.isEmpty then wait o s
    else
      let r := imAccess h file sel wr v.toNat s
      fin o r.1 r.2
  | _ => fin o 0 s

/-- Go on with an instruction of the window: its walk first, then the instruction itself. -/
def goOn (wfiTry : Nat → List HOp → HOp → State → Tried) (h : Nat) (older : List HOp) (o : HOp) (s : State) : Tried :=
  match insAcc o.ins with
  | some m =>
    let w := walkStep h older o m s
    match w.1 with
    | some t => t
    | none => attempt wfiTry h older w.2 s
  | none => attempt wfiTry h older o s

/-- May a store buffer entry be written: every store in it has retired, and no older instruction is open (R45, R583)? -/
def sbFree (x : Hart) (e : SbEnt) : Bool := x.ops.all (fun o => decide (e.seq < o.seq))

/-- A draining store buffer entry is written once the L2 owns its line (R45, R53). -/
def drainStep (h : Nat) (s : State) : State :=
  let x := hart s h
  match x.sb with
  | [] => s
  | e :: t =>
    if !e.draining || !(sbFree x e) then s
    else if l2Owned x e.line && !(l2Stalled x) then
      let s := l2Write h e.line e.mask e.data s
      updHart h (fun x => { x with sb := t, drain := x.drain && !t.isEmpty }) s
    else l2AskOwn h e.line (decide (e.mask = BitVec.allOnes 64)) .store s

/-- The write that a ClaimOwn was asked for is made as the line is installed, so that no snoop finds it unwritten (R142, R162): the
store buffer's oldest entry, or the zeros of a `cbo.zero`. -/
def claimWrite (h l : Nat) (s : State) : State :=
  let x := hart s h
  let zero := x.ops.any (fun o => o.ret && (match o.ins with
    | .cboZero m => decide (lineOf m.pa = l)
    | _ => false))
  match x.sb with
  | e :: t =>
    if e.draining && decide (e.line = l) then
      updHart h (fun x => { x with sb := t, drain := x.drain && !t.isEmpty }) (l2Write h l e.mask e.data s)
    else if zero then
      updHart h (fun x => { x with ops := x.ops.map (fun o => if o.ret then { o with got := true } else o) }) (l2Write h l (BitVec.allOnes 64) 0 s)
    else s
  | [] =>
    if zero then
      updHart h (fun x => { x with ops := x.ops.map (fun o => if o.ret then { o with got := true } else o) }) (l2Write h l (BitVec.allOnes 64) 0 s)
    else s

/-- A completed miss handler puts its line into the L2 and acknowledges it (R139, R140, R162), unless the victim finds no
write-back buffer (R55). -/
def fillStep (h : Nat) (s : State) : State :=
  (hart s h).hnd.foldl (fun s e =>
    let x := hart s h
    let i := e.1
    let n := e.2
    let have_ := decide (l2St x n.line ≠ .i)
    let comp := n.gotComp && (n.gotData || have_ || decide (n.op = oClaimOwn))
    if n.op = oCboClean ∨ n.op = oCboFlush then s
    else if !comp then s
    else
      match l2Install h n.line n.st n.data n.poison n.nt s with
      | none => s
      | some s =>
        let s := if n.gotData && have_ then updHart h (fun x => match l2Key x n.line with
            | some k => { x with l2 := mset x.l2 k { mget x.l2 k with data := n.data, poison := n.poison } }
            | none => x) s else s
        let s := updHart h (fun x => { x with hnd := mdel x.hnd i }) s
        let s := if n.op = oClaimOwn then claimWrite h n.line s else s
        send { net := .rsp, op := oCompAck, src := hartAgent h, dst := sliceAgent (h / 48) (sliceOf (lineRegion n.line)),
               txn := i, part := hartPart s h, addr := 64 * n.line, st := n.st, rgn := n.rgn } s) s

/-- What a pass over the reorder window carries: the state, what stays in the window, and whether an exception has squashed the rest. -/
structure Pass where
  s : State
  kept : List HOp := []
  cut : Bool := false

/-- Does the hart wait in the instruction, with nothing after it executed: WFI and `wrs`? -/
def insWaits (i : Instr) : Bool :=
  match i with
  | .wfi _ => true
  | .wrsNto _ => true
  | .wrsSto _ => true
  | _ => false

/-- One instruction of the window (R584, Table 2.3): only the first 256 that have not retired are in it. Instructions retire in order; one
that raises an exception does so as the oldest, and the younger ones are squashed. -/
def passOp (wfiTry : Nat → List HOp → HOp → State → Tried) (h : Nat) (a : Pass) (o : HOp) : Pass :=
  let oldest := a.kept.all (·.ret)
  let keep := fun (o : HOp) (s : State) => { a with s := s, kept := a.kept ++ [o] }
  if a.cut then { a with s := buoyLatch h o.seq (buoyRec a.s o) false a.s }
  else if 256 ≤ (a.kept.filter (fun p => !p.ret)).length ∨ a.kept.any (fun p => insWaits p.ins) = true then keep o a.s
  else match o.exc, o.res with
    | some e, _ => if oldest then { a with s := trap h o e a.s, cut := true } else keep o a.s
    | none, some v => if oldest then { a with s := retire h o v a.s } else keep o a.s
    | none, none =>
      let t := goOn wfiTry h (a.kept.filter (fun p => p.res.isNone)) o a.s
      match t.2 with
      | .wait o => keep o t.1
      | .early o => keep { o with ret := true } (retire h o 0 t.1)
      | .fin o v => if o.ret then { a with s := t.1 } else if oldest then { a with s := retire h o v t.1 } else keep { o with res := some v } t.1
      | .exc o e => if oldest then { a with s := trap h o e t.1, cut := true } else keep { o with exc := some e } t.1

/-- The core goes on as far as it can: fills, the input queue, the draining store, then every instruction of the window in program order. -/
def hartPass (wfiTry : Nat → List HOp → HOp → State → Tried) (h : Nat) (s : State) : State :=
  let s := drainStep h (inqStep h (fillStep h s))
  let r := (hart s h).ops.foldl (passOp wfiTry h) { s := s }
  updHart h (fun x => { x with ops := r.kept }) r.s

end Sys2Proof.Machine
end

