-- ==== Sys2Proof/Machine/PairLog.lean ====
section
/-! DEFINITION. The pair's send log, as the agents that put frames into it see it (R410, R416 to R420).
Log entries with the choices and readings made here: 157, 210. -/

namespace Sys2Proof.Machine

/-- What the package keeps of partition `p` for the pair. -/
def pairP (s : State) (p : Nat) : PairP := mget s.pairP p
/-- Change it. -/
def updPairP (p : Nat) (g : PairP → PairP) (s : State) : State := { s with pairP := mupd s.pairP p g }
/-- Pair state of a partition (Table 12.2). -/
def pairSt (s : State) (p : Nat) : PairSt := mget s.pairSt p
/-- Put a partition into a pair state. -/
def setPairSt (p : Nat) (x : PairSt) (s : State) : State := { s with pairSt := mset s.pairSt p x }
/-- Are writes of a partition mirrored (R416)? -/
def mirrored (s : State) (p : Nat) : Bool := pairSt s p = .syncActive || pairSt s p = .active || pairSt s p = .held
/-- Are the outputs of a partition held (Table 12.2)? -/
def pairHolds (s : State) (p : Nat) : Bool := pairSt s p = .active || pairSt s p = .held
/-- Does a close, or what follows it, keep a stopped or sleeping hart of partition `p` where it is (R418, Table 12.3 steps 2 to 5)? -/
def ckptHolds (s : State) (p h : Nat) : Bool :=
  let x := pairP s p
  x.hold || (decide (x.close ≠ 0) && !(x.told.contains (h / 48)))

/-- Last committed epoch of a partition (`PAIR_COMMIT`). -/
def pairCommit (s : State) (p : Nat) : Nat := (reg s (frPpair p) 0x010).toNat

/-- Put a frame into the send log (R417). -/
def pairPut (f : PairFrame) (s : State) : State := { s with pair := { s.pair with send := s.pair.send ++ [f] } }
/-- The bytes of a line, first at the lowest place (R134). -/
def lineBytes (d : Line) : List (BitVec 8) := (List.range 64).map (fun i => d.extractLsb' (8 * i) 8)
/-- A frame of type MIRROR (2) or BULK (3) for a line (Table 12.1). -/
def lineFrame (ty p n e l : Nat) (d : Line) (poison : Bool) : PairFrame :=
  { ty := ty, part := p, stream := n, epoch := e, arg := BitVec.ofNat 64 (l + (if poison then 2 ^ 46 else 0)), data := lineBytes d }
/-- A home's write to memory is copied into its stream when its slab's owner is protected and running (R416). -/
def mirrorWrite (n l : Nat) (d : Line) (poison : Bool) (s : State) : State :=
  let p := linePart s (64 * l)
  if mirrored s p then pairPut (lineFrame 2 p n (pairP s p).epoch l d poison) s else s
/-- Bytes of a frame on the link: its header and payload (R410). -/
def frameBytes (f : PairFrame) : Nat := 16 + f.data.length

end Sys2Proof.Machine
end

