-- ==== Sys2Proof/Machine/HartRun.lean ====
section
/-! DEFINITION. A core in motion: WFI and waking, how the core goes on after an event, how its L2 takes answers and
snoops, and how an instruction is issued (R61 to R64, R70, R73, R139 to R146, R482 to R493, R584).
Log entries with the choices and readings made here: 14, 18, 69, 70, 74, 75, 76, 169, 170, 183, 188, 210. -/

namespace Sys2Proof.Machine

/-! ### WFI and waking (R73, R483, R484) -/

/-- Is a partition protected (R414)? -/
def isProtected (s : State) (p : Nat) : Bool := mget s.pairSt p ≠ .off

/-- Tolerance of a hart in ns (R483); the all-ones value means no limit. -/
def hartTol (s : State) (h : Nat) : Nat :=
  let t := bits (hart s h).rnlatol.toNat 0 24
  let p := fld s (frPart (hartPart s h)) 0x010 0 24
  let lim := fun (n : Nat) => if n = 0xFFFFFF then 2 ^ 64 else n
  min (lim t) (lim p)

/-- The deepest state a hart permits: its MODE, limited to C2 while its partition is protected (R483). -/
def hartCap (s : State) (h : Nat) : Nat :=
  let m := bits (hart s h).rnslp.toNat 0 3
  if isProtected s (hartPart s h) then min m 1 else m

/-- The state that WFI enters: the deepest of C1, C2 and C4 whose wake time is within the tolerance and the cap. -/
def wfiState (s : State) (h : Nat) : Option HState :=
  let t := hartTol s h
  let c := hartCap s h
  if 25000 ≤ t ∧ 2 ≤ c then some .c4 else if 2000 ≤ t ∧ 1 ≤ c then some .c2 else if 30 ≤ t then some .c1 else none

/-- LASTST code of a state (Table 2.6). -/
def lastst (st : HState) : Nat :=
  match st with
  | .c1 => 1
  | .c2 => 2
  | .c4 => 3
  | _ => 0

/-- Write `rnslp.LASTST`. -/
def setLastst (n : Nat) (x : Hart) : Hart := { x with rnslp := BitVec.ofNat 64 (setBits x.rnslp.toNat 8 3 n) }

/-- Attempt a WFI (R61, R73): it waits for the store buffer, retires at once when an interrupt is pending, else sleeps, or waits awake
when no state qualifies. C1 and C2 are entered at once; C4 when the caches are written back, and LASTST is written then (R484). -/
def wfiTry (h : Nat) (older : List HOp) (o : HOp) (s : State) : Tried :=
  let x := hart s h
  let go := fun (n : Nat) (st : HState) => updHart h (fun x => setLastst n { x with st := st, resv := none }) s
  if !older.isEmpty || !x.sb.isEmpty || decide (x.st ≠ .run) then wait o s
  else if o.sent || o.got then fin o 0 s
  else if irqPending x then fin o 0 (go 0 .run)
  else match wfiState s h with
    | none => wait o (go 0 .run)
    | some .c4 => wait { o with sent := true } (go 0 .c4)
    | some st => wait { o with sent := true } (go (lastst st) st)

/-- A hart in C4 writes its private caches back: each line is announced as write-back buffers allow (R74). The state is fully entered
when nothing is left (R484). -/
def c4Flush (h : Nat) (s : State) : State :=
  if (hart s h).st = .c4 then
    let s := (hart s h).l2.foldl (fun s e => l2Evict h e.1 s) s
    let x := hart s h
    if x.l2.isEmpty && x.wb.isEmpty && x.hnd.isEmpty && decide (bits x.rnslp.toNat 8 3 = 0) then updHart h (setLastst 3) s else s
  else s

/-- A hart that parks: when its store buffer has drained and what it had retired is complete, its caches are written back, and when
nothing is left open it is held in hart reset, its architectural state gone (R317). -/
def parkStep (h : Nat) (s : State) : State :=
  let x := hart s h
  if x.st ≠ .parking ∨ x.sb.isEmpty = false ∨ x.ops.isEmpty = false then s
  else
    let s := x.l2.foldl (fun s e => l2Evict h e.1 s) s
    let x := hart s h
    if x.l2.isEmpty && x.wb.isEmpty && x.hnd.isEmpty then updHart h (fun x => { done := x.done, seq := x.seq }) s else s

/-- The core goes on as far as it can. -/
def hartRun (h : Nat) (s : State) : State := parkStep h (c4Flush h (hartPass wfiTry h (hartPass wfiTry h s)))

/-- What a hart that stops keeps: the instructions and the stores that have retired. -/
def retiredOnly (x : Hart) : Hart :=
  { x with
    ops := x.ops.filter (·.ret)
    sb := (x.sb.filter (fun e => x.ops.all (fun o => o.ret || decide (e.seq < o.seq)))).map (fun e => { e with draining := true })
    resv := none, mb := [], fmb := [], inq := x.inq.filter (fun q => decide (q.by_ = .cbo)) }

/-- A hart is parked (R317): it stops at once; what it had not retired is gone, its store buffer drains. -/
def parkHart (h : Nat) (s : State) : State :=
  let x := hart s h
  if x.st = .parked ∨ x.st = .parking then s
  else hartRun h (updHart h (fun x => { retiredOnly x with st := .parking }) s)

/-- A wake event has come for the WFI of a hart. -/
def wfiOver (o : HOp) : HOp :=
  match o.ins with
  | .wfi _ => { o with got := true }
  | _ => o

/-- Does a hart sleep? -/
def asleep (x : Hart) : Bool := x.st = .c1 || x.st = .c2 || x.st = .c4

/-- A wake event for a hart ends its sleep, and a WFI that waits awake; execution resumes after the WFI (R73, Table 14.8). A hart that
sleeps while its die is under a checkpoint wakes when the harts resume (Table 12.3 step 5). -/
def wakeHart (h : Nat) (s : State) : State :=
  let x := hart s h
  if asleep x && ckptHolds s (hartPart s h) h then s
  else if asleep x then hartRun h (updHart h (fun x => { x with st := .run }) s)
  else if x.st = .wrs then hartRun h s
  else if x.st = .run then hartRun h (updHart h (fun x => { x with ops := x.ops.map (fun o => if x.ops.head? = some o then wfiOver o else o) }) s)
  else s

/-! ### Answers to the L2 (R139, R140, R166, R584) -/

/-- The miss handler of a tag. -/
def hndOf (x : Hart) (i : Nat) : Option Hnd := mfind x.hnd i

/-- A Comp reaches the L2. A cache-block request completes with it (Table 2.4). -/
def l2Comp (h : Nat) (f : Flit) (s : State) : State :=
  match hndOf (hart s h) f.txn with
  | none => s
  | some n =>
    if n.op = oCboClean ∨ n.op = oCboFlush then
      hartRun h (updHart h (fun x => { x with
        hnd := mdel x.hnd f.txn
        ops := x.ops.map (fun o =>
          match insAcc o.ins with
          | some m => if insCls s o.ins = .cbo ∧ o.sent ∧ lineOf m.pa = n.line then { o with got := true } else o
          | none => o) }) s)
    else
      let n := { n with gotComp := true, st := if n.gotData && n.st = .m then .m else f.st, rgn := n.rgn || f.rgn }
      hartRun h (updHart h (fun x => { x with hnd := mins x.hnd f.txn n }) s)

/-- The medium that a home reads for an address, as `rnbuoyev.SRC` codes it (Table 2.11): HBM, DDR5 or CXL.mem by the slab's KIND; of
a tiered slab either of the first two, which only the home knows (a free value). -/
def mediumSrc (s : State) (pa : Nat) : Nat :=
  let e := slabEnt s (slabOf pa)
  if slKind e = 2 then 8
  else if slTiered e then 5 + Config.freeNat s.free % 2
  else if slKind e = 0 then 5 else 6

/-- A Data or DataCopy flit reaches the L2 with the state granted (R140). The fill is counted for its source (Table 2.11). -/
def l2Data (h : Nat) (f : Flit) (s : State) : State :=
  match hndOf (hart s h) f.txn with
  | none => s
  | some n =>
    let n := { n with gotData := true, gotComp := n.gotComp || f.comp, st := f.st, rgn := n.rgn || f.rgn, data := f.data, poison := f.poison }
    let src := if agDie f.src = h / 48 then 4 else if agDie f.src < 12 then 7 else mediumSrc s (64 * n.line)
    let seen : HOp → HOp := fun o =>
      if o.l2m && decide (o.src = 0) && (((insAcc o.ins).map accLines).getD []).contains n.line then { o with src := src } else o
    hartRun h (updHart h (fun x => event (0x40 + src) 1 { x with hnd := mins x.hnd f.txn n, ops := x.ops.map seen }) { s with free := s.free + 1 })

/-- An EvictAck frees the write-back buffer entry (R54). -/
def l2EvictAck (h : Nat) (f : Flit) (s : State) : State :=
  hartRun h (updHart h (fun x => { x with wb := x.wb.filter (fun e => e.txn ≠ f.txn) }) s)

/-- The access-fault exception of an instruction (R584). -/
def faultCause (i : Instr) : Nat :=
  match i with
  | .load _ _ => 5
  | .lr _ _ _ => 5
  | _ => 7

/-- The exception of an instruction whose line, or the page-table entry that the walker asked for, was answered with Fault (R33, R584):
`*tval` is the first byte of the access on that line, or on the page that was being translated. -/
def faultExc (s : State) (l : Nat) (o : HOp) : Option Exc :=
  match insAcc o.ins with
  | none => none
  | some m =>
    let page2 := (m.va / 4096 + 1) * 4096
    let at_ := fun (v : Nat) => some { cause := faultCause o.ins, tval := v }
    let next := (o.walk ++ o.ads.map (·.1)).head?
    if next.isSome then
      if next.map lineOf = some l then at_ (if (m.x.walk ++ m.x.pte.toList).contains (next.getD 0) then m.va else page2) else none
    else if insCls s o.ins = .load ∨ insCls s o.ins = .atomic then
      ((List.range m.size).find? (fun i => ((accBytes m).map lineOf)[i]? = some l)).bind (fun i => at_ (m.va + i))
    else none

/-- Mark an instruction that waits on a line answered with Fault. -/
def faulted (s : State) (l : Nat) (o : HOp) : HOp := if o.res.isSome ∨ o.ret = true then o else { o with exc := o.exc.or (faultExc s l o) }

/-- A Fault reaches the L2 for its request of a line, or for an I/O access (R38, R584): what becomes of it depends on what asked. -/
def l2Fault (h : Nat) (f : Flit) (s : State) : State :=
  if f.txn = 80 then
    hartRun h (updHart h (fun x => { x with ops := x.ops.map (fun o =>
      if o.sent ∧ (insCls s o.ins = .ioLoad ∨ insCls s o.ins = .ioStore) then
        { o with got := true, val := 2 ^ (8 * ((insAcc o.ins).map (·.size)).getD 8) - 1 } else o) }) s)
  else if 64 ≤ f.txn then l2EvictAck h f s
  else match hndOf (hart s h) f.txn with
    | none => s
    | some n =>
      let free := fun (x : Hart) => { x with hnd := mdel x.hnd f.txn }
      let noBuf := fun (x : Hart) => { x with mb := x.mb.filter (fun e => e.1 ≠ n.line), fmb := x.fmb.filter (fun e => e.1 ≠ n.line) }
      hartRun h (updHart h (fun x =>
        match n.by_ with
        | .pf => noBuf (free x)
        | .store => { free x with sb := x.sb.filter (fun e => !(e.draining && decide (e.line = n.line))) }
        | .cbo => { free x with ops := x.ops.map (fun o => if o.ret && decide ((insAcc o.ins).map (fun m => lineOf m.pa) = some n.line) then { o with got := true } else o) }
        | .demand => { noBuf (free x) with ops := x.ops.map (faulted s n.line) }) s)

/-- IoData or IoComp completes the hart's I/O access; ERR makes a load read all ones (R37, R38). -/
def l2Io (h : Nat) (f : Flit) (s : State) : State :=
  if f.err then l2Fault h { f with txn := 80 } s
  else hartRun h (updHart h (fun x => { x with ops := x.ops.map (fun o =>
    if o.sent ∧ (insCls s o.ins = .ioLoad ∨ insCls s o.ins = .ioStore) then
      let m := (insAcc o.ins).getD {}
      { o with got := true, val := (f.data.toNat >>> (8 * (m.pa % 64))) % 2 ^ (8 * m.size) } else o) }) s)

/-! ### Snoops of the L2 (R62, R143, R144, R162, R167) -/

/-- Answer from a write-back buffer entry or from the L2, at once. The answer to a BackInv has a clean copy's data beside it, which
the slice allocates when the line is its directory's victim (R91, R99); Table 4.8 gives it no data flit. -/
def l2SnpNow (h : Nat) (f : Flit) (s : State) : State :=
  let x := hart s h
  let l := lineOf f.addr
  let me := hartAgent h
  let ans := fun (st : St) (fwd wb : Bool) (s : State) => send { rsp oSnpRsp me f.src f.txn f with st := st, fwdd := fwd, wb := wb } s
  let give := fun (d : Line) (p : Bool) (s : State) =>
    send (if f.op = oBackInv then { rsp oSnpRsp me f.src f.txn f with comp := true, data := d, poison := p } else rsp oSnpRsp me f.src f.txn f) s
  let fwd := fun (op : Nat) (st : St) (d : Line) (p : Bool) (s : State) =>
    send { dat op me f.fwd f.ftxn f d p with st := st, comp := f.fcomp } s
  let ret := fun (d : Line) (p : Bool) (s : State) => send (dat oSnpData me f.src f.txn f d p) s
  match x.wb.find? (fun e => decide (e.line = l) && !e.gone) with
  | some e =>
    let dirty := e.st = .m || e.st = .sd
    let s := updHart h (fun x => { x with wb := x.wb.map (fun y => if y.txn = e.txn then { y with gone := true } else y) }) s
    if e.st = .s then give e.data e.poison s
    else if f.op = oSnpShared then
      let s := fwd oData (if !dirty then .e else if e.st = .m then .m else .s) e.data e.poison s
      if e.st = .sd then ans .i true true (ret e.data e.poison s) else ans .i true false s
    else if f.op = oSnpOwn then ans .i true false (fwd oData (if dirty then .m else .e) e.data e.poison s)
    else if f.op = oSnpInv then ans .i false false s
    else if f.op = oSnpCur then
      let s := fwd oDataCopy .i e.data e.poison s
      if dirty then ans .i true true (ret e.data e.poison s) else ans .i true false s
    else if dirty then ans .i false true (ret e.data e.poison s)
    else give e.data e.poison s
  | none => match l2Key x l with
    | none => ans .i false false s
    | some k =>
      let e := mget x.l2 k
      let dirty := e.st = .m || e.st = .sd
      let owner := dirty || e.st = .e
      let put := fun (st : St) (s : State) => updHart h (fun x => { x with l2 := mset x.l2 k { e with st := st } }) s
      let gone := fun (s : State) => updHart h (l2Drop l) s
      if f.op = oSnpShared then
        if owner then ans (if dirty then .sd else .s) true false (fwd oData .s e.data e.poison (put (if dirty then .sd else .s) s))
        else ans e.st false false s
      else if f.op = oSnpOwn then
        if owner then ans .i true false (fwd oData (if dirty then .m else .e) e.data e.poison (gone s))
        else ans .i false false (gone s)
      else if f.op = oSnpInv then ans .i false false (gone s)
      else if f.op = oSnpCur then
        if owner then ans e.st true false (fwd oDataCopy .i e.data e.poison s) else ans e.st false false s
      else if f.op = oSnpClean then
        if dirty then
          let st := if e.st = .m then St.e else .s
          ans st false true (ret e.data e.poison (put st s))
        else ans e.st false false s
      else if dirty then ans .i false true (ret e.data e.poison (gone s))
      else give e.data e.poison (gone s)

/-- A snoop that would take the reserved line away, or end its ownership, waits for the deferral window (R62). -/
def defers (x : Hart) (f : Flit) : Bool :=
  match x.resv with
  | some r => r.window && decide (lineOf r.addr = lineOf f.addr) && l2Owned x (lineOf f.addr) &&
      (f.op = oSnpShared || f.op = oSnpOwn || f.op = oSnpInv || f.op = oBackInv)
  | none => false

/-- A ClaimOwn grant whose line is not written yet holds the snoop until the write is made (R142, R162): the write is
made when the line is installed, so no snoop finds it unwritten. -/
def l2SnpTake (h : Nat) (f : Flit) (s : State) : State :=
  let x := hart s h
  let s := updHart h (event 0x02B 1) s
  if defers x f then updHart h (fun x => { x with deferred := x.deferred ++ [f] }) s
  else hartRun h (l2SnpNow h f s)

/-- The deferral window has ended: answer what it held back. -/
def answerDeferred (h : Nat) (s : State) : State :=
  let x := hart s h
  match x.deferred with
  | [] => s
  | ds =>
    let open_ := match x.resv with
      | some r => r.window
      | none => false
    if open_ then s
    else ds.foldl (fun s f => l2SnpNow h f s) (updHart h (fun x => { x with deferred := [] }) s)

/-- Snoops whose window has ended are answered, and the core goes on with what that leaves it: a `wrs` whose reservation is lost (R64). -/
def afterHart (h : Nat) (s : State) : State :=
  if (hart s h).deferred.isEmpty then s
  else
    let s := answerDeferred h s
    if (hart s h).deferred.isEmpty then hartRun h s else s

/-- Go on and then answer deferred snoops. -/
def hartGo (h : Nat) (s : State) : State := afterHart h (hartRun h s)

/-! ### Issue -/

/-- Does the hart execute instructions? -/
def running (s : State) (h : Nat) : Bool := decide (h < 576) && (hart s h).st = .run

/-- Is an access to main memory misaligned for an atomic, or for I/O (R33, R36)? -/
def misaligned (m : MemAcc) : Bool := decide (m.size = 0) || decide (m.pa % m.size ≠ 0)

/-- The exception that an access raises before it is attempted, with its `*tval` (R32, R33, R35, R36, R64, R66): `wr`
says it writes, `kind` 0 a load, 1 a store, 2 LR, 3 another atomic, 4 a cache-block instruction. A page-table entry that is not in main
memory is an access fault of the access. DESIGN CHOICE: where an atomic raises several, the spec gives no order; a page fault comes
before a misaligned address, and that before an access fault. -/
def accTrap (s : State) (m : MemAcc) (wr : Bool) (kind : Nat) : Option (Nat × Nat) :=
  let p := hartPart s m.hart
  let adue := (hart s m.hart).adue
  let pf := if wr ∨ kind = 4 then 15 else 13
  let af := if kind = 0 ∨ kind = 2 then 5 else 7
  let ma := if kind = 2 then 4 else 6
  let bad := fun (x : Xlat) => x.pte.isSome && !adue && (!x.a || (wr && !x.d))
  let off := fun (x : Xlat) => (x.walk ++ x.pte.toList).any (fun a => decide (pma s p a ≠ .main))
  let cross := decide ((m.va + m.size - 1) / 4096 ≠ m.va / 4096)
  let page2 := (m.va / 4096 + 1) * 4096
  if off m.x then some (af, m.va)
  else if bad m.x then some (pf, m.va)
  else if cross && off m.x2 then some (af, page2)
  else if cross && bad m.x2 then some (pf, page2)
  else if (kind = 2 ∨ kind = 3) ∧ misaligned m = true then some (ma, m.va)
  else match pma s p m.pa with
    | .vacant => some (af, m.va)
    | .io t =>
      if kind ≥ 2 ∨ m.vec = true then some (af, m.va)
      else if ioSizeOk t m.pa m.size then none else some (af, m.va)
    | .main =>
      if cross ∧ pma s p m.pa2 ≠ .main then some (af, page2) else none

/-- The page-table entries whose A or D bit the walker must set before the access (R32), with the bits. -/
def walkSets (s : State) (m : MemAcc) (wr : Bool) : List (Nat × Nat) :=
  if !(hart s m.hart).adue then []
  else
    let one := fun (x : Xlat) => match x.pte with
      | some a => if !x.a || (wr && !x.d) then [(a, 0x40 + (if wr then 0x80 else 0))] else []
      | none => []
    one m.x ++ (if (m.va + m.size - 1) / 4096 ≠ m.va / 4096 then one m.x2 else [])

/-- The page-table entries that the walker reads for an access. -/
def walkReads (m : MemAcc) : List Nat := m.x.walk ++ (if (m.va + m.size - 1) / 4096 ≠ m.va / 4096 then m.x2.walk else [])

/-- An instruction is decoded and joins the hart's reorder window; the Buoy and the counters see it. -/
def issueOp (h : Nat) (o : HOp) (s : State) : State :=
  updHart h (fun x => buoyDecode x.seq { x with ops := x.ops ++ [{ o with seq := x.seq }], seq := x.seq + 1 }) s

/-- Issue an instruction that raises an exception when it is the oldest. -/
def issueTrap (h : Nat) (i : Instr) (cause tval : Nat) (s : State) : State :=
  hartGo h (issueOp h { ins := i, exc := some { cause := cause, tval := tval } } s)

/-- Execute an instruction that has no access of its own. A hart that does not execute does nothing. -/
def issue (h : Nat) (i : Instr) (s : State) : State :=
  if running s h then hartGo h (issueOp h { ins := i } s) else s

/-- Execute an access (`kind` as in `accTrap`). -/
def issueAcc (i : Instr) (m : MemAcc) (wr : Bool) (kind : Nat) (s : State) : State :=
  let h := m.hart
  if !(running s h) then s
  else match accTrap s m wr kind with
    | some (c, t) => issueTrap h i c t s
    | none => hartGo h (issueOp h { ins := i, walk := walkReads m, ads := walkSets s m wr } s)

end Sys2Proof.Machine
end

