-- ==== Sys2Proof/Machine/IntOps.lean ====
section
/-! DEFINITION. Interrupts: the IMSIC files that the interrupt controllers hold (R347 to R349), the APLICs (R350) and the
message-signalled interrupts that agents send.
Log entries with the choices and readings made here: 78, 79. -/

namespace Sys2Proof.Machine

/-- A hart's claim or indirect access is an instruction of the hart: it takes its place in program order, and its result is the
hart's (R349). -/
def imClaim (h file sel : Nat) (wr : Bool) (v : Nat) (s : State) : State :=
  if file < 9 then issue h (.imsicClaim h file sel wr (BitVec.ofNat 64 v)) s else s

/-! ### Message-signalled interrupts -/

/-- The IntMsg that agent `src` sends with PART `p` to a file of hart `h` (Table 4.7). -/
def msiFlit (src p h file id : Nat) : Flit :=
  { net := .req, op := oIntMsg, src := src, dst := icAgent h, part := p, sys := true, addr := imAddr h file, datadst := src,
    size := 2, data := BitVec.ofNat 512 id }

/-- Hart and file that an address in the DRS names, when it is an IMSIC file (R347). -/
def imOf (pa : Nat) : Option (Nat × Nat) :=
  if inDrs pa ∧ 0x800 ≤ drsFrame pa ∧ drsFrame pa < 0xA40 ∧ drsOff pa < 0x9000 then some (drsFrame pa - 0x800, drsOff pa / 4096)
  else none

/-- An IntMsg reaches an interrupt controller (R348, R349): only `seteipnum_le`, at offset 0 of a file, is implemented. -/
def intMsgTake (f : Flit) (s : State) : State :=
  let ack := fun (e : Bool) (s : State) => send { rsp oIoComp f.dst f.src f.txn f with err := e } s
  let k := agUnit f.dst - 0x60
  match imOf f.addr with
  | none => ack false s
  | some (h, file) =>
    if f.part = 15 ∨ f.part = hartPart s h then
      let s := ack false s
      if f.addr % 4096 = 0 ∧ h / 144 = k then imPend h file ((f.data.toNat >>> (8 * (f.addr % 64))) % 2 ^ 32) s else s
    else logErr (flitErr (frIc k) 0x01 false f) (ack true s)

/-! ### APLIC -/

/-- APLIC of partition `p`. -/
def aplic (s : State) (p : Nat) : Aplic := mget s.aplic p
/-- Change APLIC `p`. -/
def updAplic (p : Nat) (g : Aplic → Aplic) (s : State) : State := { s with aplic := mupd s.aplic p g }

/-- Owner of a wired source: root port of an INTx, assignment of a GPIO pin, UART1's partition (R350). -/
def aplSrcOwned (s : State) (p src : Nat) : Bool :=
  if src = 0 then false
  else if src ≤ 192 then ownsRp s p ((src - 1) / 16)
  else if src ≤ 224 then decide (bits s.gpioOwn (4 * (src - 193)) 4 = p)
  else src = 225 && decide (s.uart1 = p)

/-- A domain of an APLIC. -/
def aplDom (a : Aplic) (sup : Bool) : AplDom := if sup then a.sup else a.m
/-- Put a domain back. -/
def aplPut (a : Aplic) (sup : Bool) (x : AplDom) : Aplic := if sup then { a with sup := x } else { a with m := x }

/-- Is a source delegated to the S-level domain? -/
def aplDelegated (a : Aplic) (src : Nat) : Bool := bit (mget a.m.cfg src) 10
/-- Source mode in a domain; 0 where the source is not the domain's. -/
def aplMode (a : Aplic) (sup : Bool) (src : Nat) : Nat :=
  if aplDelegated a src = sup then bits (mget (aplDom a sup).cfg src) 0 3 else 0
/-- The rectified input of a source in its mode. -/
def aplInput (a : Aplic) (sup : Bool) (src : Nat) : Bool :=
  let w := bit a.wire src
  match aplMode a sup src with
  | 4 => w | 6 => w | 5 => !w | 7 => !w | _ => false
/-- Is a mode level-sensitive? -/
def aplLevel (m : Nat) : Bool := m = 6 || m = 7

/-- Deliver what a domain can: each pending and enabled source sends its MSI, and is no longer pending (R350). -/
def aplRun (p : Nat) (sup : Bool) (s : State) : State :=
  let x := aplDom (aplic s p) sup
  if !x.ie then s
  else ((List.range 256).filter (fun i => bit x.pend i && bit x.en i && decide (aplMode (aplic s p) sup i ≠ 0))).foldl
    (fun s i =>
      let t := mget x.tgt i
      let s := updAplic p (fun a => let d := aplDom a sup; aplPut a sup { d with pend := putBit d.pend i false }) s
      let h := bits t 18 14
      if h < 576 then send (msiFlit (agent 12 (0x60 + h / 144)) p h (if sup then 1 + bits t 12 6 % 8 else 0) (bits t 0 11)) s else s) s

/-- A wired source changes: an edge makes it pending, and a level source is pending from the rise of its input until its
fall or its MSI. -/
def aplWire (p src : Nat) (level : Bool) (s : State) : State :=
  if p < 12 ∧ src < 256 ∧ aplSrcOwned s p src = true then
    let a := aplic s p
    let sup := aplDelegated a src
    let was := aplInput a sup src
    let a := { a with wire := putBit a.wire src level }
    let now := aplInput a sup src
    let m := aplMode a sup src
    let x := aplDom a sup
    let x := if now && !was then { x with pend := putBit x.pend src true }
      else if aplLevel m && !now then { x with pend := putBit x.pend src false } else x
    aplRun p sup (updAplic p (fun _ => aplPut a sup x) s)
  else s

/-- Software sets a source's pending bit: a detached or edge source at once, a level source only while its input is
asserted. -/
def aplSetPend (a : Aplic) (sup : Bool) (src : Nat) (x : AplDom) : AplDom :=
  let m := aplMode a sup src
  if src = 0 ∨ 256 ≤ src ∨ m = 0 ∨ (aplLevel m && !(aplInput a sup src)) then x else { x with pend := putBit x.pend src true }
/-- Software clears a source's pending bit. -/
def aplClrPend (src : Nat) (x : AplDom) : AplDom := { x with pend := putBit x.pend src false }
/-- The 32 sources of array word `w` that a mask names. -/
def aplWord (w v : Nat) : List Nat := (onesOf 32 v).map (32 * w + ·)

/-- Read of a 32-bit register of an APLIC domain, at its offset in the domain. -/
def aplRead32 (a : Aplic) (sup : Bool) (off : Nat) : Nat :=
  let x := aplDom a sup
  let mine := fun (i : Nat) => decide (i < 256) && decide (aplMode a sup i ≠ 0)
  let word := fun (v w : Nat) => (List.range 32).foldl (fun n i => if mine (32 * w + i) && bit v (32 * w + i) then n + 2 ^ i else n) 0
  if off = 0 then 0x80000004 + b2n x.ie * 256
  else if off < 0x400 ∧ off % 4 = 0 then
    let i := off / 4
    if sup then (if aplDelegated a i then bits (mget x.cfg i) 0 3 else 0) else mget x.cfg i
  else if 0x1C00 ≤ off ∧ off < 0x1C20 then word x.pend ((off - 0x1C00) / 4)
  else if 0x1D00 ≤ off ∧ off < 0x1D20 then (List.range 32).foldl (fun n i => if aplInput a sup (32 * ((off - 0x1D00) / 4) + i) then n + 2 ^ i else n) 0
  else if 0x1E00 ≤ off ∧ off < 0x1E20 then word x.en ((off - 0x1E00) / 4)
  else if 0x3004 ≤ off ∧ off < 0x3400 then (if mine ((off - 0x3000) / 4) then mget x.tgt ((off - 0x3000) / 4) else 0)
  else 0

/-- Write of a 32-bit register of an APLIC domain of partition `p`, in MSI delivery mode. -/
def aplWrite32 (p : Nat) (sup : Bool) (off v : Nat) (s : State) : State :=
  let a := aplic s p
  let put := fun (g : AplDom → AplDom) => aplRun p sup (updAplic p (fun a => aplPut a sup (g (aplDom a sup))) s)
  let act := fun (i : Nat) => decide (0 < i) && decide (i < 256) && decide (aplMode a sup i ≠ 0)
  if off = 0 then put (fun x => { x with ie := bit v 8 })
  else if off < 0x400 ∧ off % 4 = 0 then
    let i := off / 4
    if sup ∧ aplDelegated a i = false then s
    else
      let n := if !sup && bit v 10 then 1024 else (if bits v 0 3 = 2 ∨ bits v 0 3 = 3 then bits (mget (aplDom a sup).cfg i) 0 3 else bits v 0 3)
      let clr := fun (x : AplDom) => if n % 1024 = 0 then { x with pend := putBit x.pend i false, en := putBit x.en i false, tgt := mdel x.tgt i } else x
      let s := updAplic p (fun a => aplPut a sup (clr { aplDom a sup with cfg := mset (aplDom a sup).cfg i n })) s
      if !sup && decide (n ≠ 1024) then updAplic p (fun a => { a with sup := { a.sup with cfg := mdel a.sup.cfg i, pend := putBit a.sup.pend i false, en := putBit a.sup.en i false } }) s
      else s
  else if 0x1C00 ≤ off ∧ off < 0x1C20 then put (fun x => (aplWord ((off - 0x1C00) / 4) v).foldl (fun x i => aplSetPend a sup i x) x)
  else if off = 0x1CDC ∨ off = 0x2000 then put (aplSetPend a sup (v % 2 ^ 32))
  else if 0x1D00 ≤ off ∧ off < 0x1D20 then put (fun x => (aplWord ((off - 0x1D00) / 4) v).foldl (fun x i => aplClrPend i x) x)
  else if off = 0x1DDC then put (aplClrPend (v % 256))
  else if 0x1E00 ≤ off ∧ off < 0x1E20 then
    put (fun x => ((aplWord ((off - 0x1E00) / 4) v).filter act).foldl (fun x i => { x with en := putBit x.en i true }) x)
  else if off = 0x1EDC then put (fun x => if act (v % 2 ^ 32) then { x with en := putBit x.en (v % 256) true } else x)
  else if 0x1F00 ≤ off ∧ off < 0x1F20 then
    put (fun x => (aplWord ((off - 0x1F00) / 4) v).foldl (fun x i => { x with en := putBit x.en i false }) x)
  else if off = 0x1FDC then put (fun x => { x with en := putBit x.en (v % 256) false })
  else if off = 0x3000 then
    let h := bits v 18 14
    if h < 576 then send (msiFlit (icAgent h) p h (if sup then 1 else 0) (bits v 0 11)) s else s
  else if 0x3004 ≤ off ∧ off < 0x3400 then
    let i := (off - 0x3000) / 4
    if act i then put (fun x => { x with tgt := mset x.tgt i (if sup then bits v 0 11 + bits v 12 20 * 4096 else bits v 0 11 + bits v 18 14 * 2 ^ 18) }) else s
  else s

/-- A GPIO input changes: through the APLIC of the partition the pin is assigned to, or as a report to the Cox (R562). -/
def gpioChange (pin : Nat) (level : Bool) (s : State) : State :=
  if pin < 32 then
    let s := { s with gpioIn := putBit s.gpioIn pin level }
    let p := bits s.gpioOwn (4 * pin) 4
    if p < 12 then aplWire p (193 + pin) level s else { s with gpioRep := s.gpioRep ++ [(pin, level)] }
  else s

end Sys2Proof.Machine
end

