-- ==== Sys2Proof/Machine/PartOps.lean ====
section
/-! DEFINITION. Partitions: starting and parking harts (R316 to R319), and the mailbox (R328 to R331).
Log entries with the choices and readings made here: 92, 202. -/

namespace Sys2Proof.Machine

/-- A started hart begins in M-mode at the boot vector, with a0 its hart ID and a1 the boot argument (R316). -/
def startHart (p h : Nat) (s : State) : State :=
  updHart h (fun x => { done := x.done, seq := x.seq, st := .run, pc := fld s (frPart p) 0x018 2 50 * 4, a0 := BitVec.ofNat 64 h,
                        a1 := reg s (frPart p) 0x020 }) s

/-- Set `PART_STAT.CFGERR`. -/
def partCfgErr (p : Nat) (s : State) : State := setBit (frPart p) 0 33 s

/-- A write of `PART_HARTCMD` (R317, R318): OP 0 PARK, 1 START. -/
def hartCmd (p h op : Nat) (s : State) : State :=
  if 12 ≤ p then s
  else if 576 ≤ h ∨ ownsDie s p (h / 48) = false ∨ 2 ≤ op then partCfgErr p s
  else if op = 0 then parkHart h s
  else if (part s p).st = .stopped ∨ (part s p).st = .down ∨ (port s (h / 48)).fenced = true then partCfgErr p s
  else if (hart s h).st = .parked then startHart p h s
  else s

/-- A park has not completed in time (R317). -/
def parkTimeout (h : Nat) (s : State) : State :=
  if h < 576 ∧ (hart s h).st = .parking then
    logErr { frame := frCox, ty := 0x0B, cls := 1, consq := true, part := hartPart s h, agent := some (hartAgent h) } s
  else s

/-- The boot hart of a partition: its lowest-numbered hart (R316). -/
def bootHart (s : State) (p : Nat) : Option Nat := (hartsOf s p).head?

/-! ### Mailbox -/

/-- Inbound queue of a partition. -/
def mbxOf (s : State) (p : Nat) : List Mbx := mget s.mbx p

/-- Send the MSI of a partition's queue register (HART, EIID, EN): a HART outside the partition disables it and sets CFGERR
(R331, R520). `mlvl` targets the M-level file. -/
def queueMsi (p fr off : Nat) (mlvl : Bool) (s : State) : State :=
  if fbit s fr off 63 = false then s
  else
    let h := fld s fr off 0 10
    if h < 576 ∧ ownsDie s p (h / 48) = true then send (msiFlit coxAgent 15 h (if mlvl then 0 else 1) (fld s fr off 12 11)) s
    else partCfgErr p (clrBit fr off 63 s)

/-- A message enters a queue; the MSI goes out when the queue becomes non-empty. -/
def mbxPut (p : Nat) (m : Mbx) (s : State) : State :=
  let q := mbxOf s p
  let s := { s with mbx := mset s.mbx p (q ++ [m]) }
  if q.isEmpty then queueMsi p (frMail p) 0x0D0 false s else s

/-- The Cox sends a system message; to a full queue it waits (R330). -/
def mbxSystem (p : Nat) (d : Line) (s : State) : State :=
  if (mbxOf s p).length < 32 then mbxPut p { src := 15, data := d } s else { s with mbxSys := s.mbxSys ++ [(p, d)] }

/-- A write of SEND: the message leaves for the Cox, and BUSY is set (R328). The request comes from slice 0 of the partition's
lowest die. -/
def mbxSend (p dst : Nat) (s : State) : State :=
  if 12 ≤ p ∨ 12 ≤ dst then s
  else if fbit s (frMail p) 0x048 0 then s
  else
    let d := (diesOf s p).headD 0
    let v := (List.range 8).foldl (fun v i => v + (reg s (frMail p) (8 * i)).toNat * 2 ^ (64 * i)) 0
    let f : Flit := { net := .req, op := oMail, src := sliceAgent d 0, dst := coxAgent, part := p, sys := true, addr := dst,
                      datadst := sliceAgent d 0, data := BitVec.ofNat 512 v }
    send f (setFld (frMail p) 0x048 0 1 1 (setFld (frMail p) 0x040 0 4 dst s))

/-- A Mail request reaches the Cox, which delivers or refuses the message (R328, R329). -/
def mailTake (f : Flit) (s : State) : State :=
  let s := send (rsp oIoComp f.dst f.src f.txn f) s
  let p := f.part
  let q := f.addr % 16
  if 12 ≤ p then s
  else
    let res := if bit (s.mailMx.getD p 0) q = false ∨ 12 ≤ q then 1 else if (part s q).st ≠ .running then 2 else if 32 ≤ (mbxOf s q).length then 3 else 0
    let s := setFld (frMail p) 0x048 0 4 (2 * res) s
    if res = 0 then mbxPut q { src := p, data := f.data } s else s

/-- A write of `MBX_RXPOP` (R331): the head message goes, a waiting system message may enter, and the MSI goes out again
while the queue is non-empty. -/
def mbxPop (p : Nat) (s : State) : State :=
  match mbxOf s p with
  | [] => s
  | _ :: t =>
    if 12 ≤ p then s
    else
      let s := { s with mbx := mset s.mbx p t }
      let s := if t.isEmpty then s else queueMsi p (frMail p) 0x0D0 false s
      match s.mbxSys.find? (fun e => e.1 = p) with
      | some e => mbxPut p { src := 15, data := e.2 } { s with mbxSys := s.mbxSys.erase e }
      | none => s

/-- A write of a queue's MSI register (`MBX_RXIRQ`, `FLT_PIRQ`): a HART outside the partition disables the MSI. EIID 0 is
reserved and leaves its field (R12). -/
def queueIrqWrite (p fr off v : Nat) (extra : List Nat) (s : State) : State :=
  if 12 ≤ p then s
  else
    let h := bits v 0 10
    let own := decide (h < 576) && ownsDie s p (h / 48)
    let s := setFld fr off 0 10 h s
    let s := if bits v 12 11 = 0 then s else setFld fr off 12 11 (bits v 12 11) s
    let s := extra.foldl (fun s i => setFld fr off i 1 (b2n (bit v i)) s) s
    if bit v 63 && !own then partCfgErr p (setFld fr off 63 1 0 s) else setFld fr off 63 1 (b2n (bit v 63)) s

/-- A partition reset empties the mailbox (Table 9.9 step 2). System messages that waited for a slot enter: none is dropped (R330). -/
def mbxClear (p : Nat) (s : State) : State :=
  let ws := (s.mbxSys.filter (fun e => decide (e.1 = p))).take 32
  ws.foldl (fun s e => mbxPut p { src := 15, data := e.2 } { s with mbxSys := s.mbxSys.erase e }) { s with mbx := mset s.mbx p [] }

end Sys2Proof.Machine
end

