-- ==== Sys2Proof/Machine/MgrOps.lean ====
section
/-! DEFINITION. The Cox's command service: manager command frames (R309 to R311), and a switch of routes (Table 7.6, R580).
Log entries with the choices and readings made here: 40, 41, 160. -/

namespace Sys2Proof.Machine

/-! ### Management MSI-X (Table 10.11) -/

/-- The management endpoint makes an MSI-X write. -/
def mgtMsix (v : Nat) (s : State) : State := { s with msix := mset s.msix v (mget s.msix v + 1) }

/-! ### Manager commands -/

/-- Command frame of a manager: 16 the BMC, else the manager partition. -/
def mgrFrame (src : Nat) : Nat := if src = 16 then frBmc else frMgr
/-- Does an agent hold the manager role (R309)? -/
def mgrHas (s : State) (src : Nat) : Bool := if src = 16 then s.bmcMgr else decide (src < 12) && (part s src).manager

/-- Results of Table 9.3. -/
def rDONE : Nat := 0
def rBUSY : Nat := 1
def rSTATE : Nat := 2
def rDENIED : Nat := 3
def rNORES : Nat := 4
def rINVALID : Nat := 5
def rFAILED : Nat := 6

/-- A write of `MGR_CMD` reaches the Cox (R309, R310): ignored while BUSY and from an agent without the role. -/
def mgrPut (op : Nat) (c : MgrCmd) (id : DriveId) (s : State) : State :=
  let fr := mgrFrame c.src
  if mgrHas s c.src = false ∨ fbit s fr 0x028 0 = true then s
  else
    let s := setFld fr 0x028 0 1 1 (setReg fr 0x000 c.a0 (setReg fr 0x008 c.a1 s))
    { s with cox := { s.cox with queue := s.cox.queue ++ [{ op := op, c := c, id := id }] } }

/-- The result of a command in its manager's frame (Table 9.3). Source 17 names the Cox itself, which has none: it notes the result
of a CMD record of the start under way. -/
def mgrResult (c : MgrCmd) (res det : Nat) (s : State) : State :=
  if c.src = 17 then { s with card := { s.card with start := s.card.start.map (fun x => { x with res := res + 1 }) } }
  else
    let s := setFld (mgrFrame c.src) 0x028 0 64 ((c.seq % 256) * 2 ^ 8 + res * 2 ^ 16 + (det % 2 ^ 32) * 2 ^ 32) s
    if c.src = 16 then mgtMsix 0 s else s

/-- The running command ends. -/
def mgrEnd (res det : Nat) (s : State) : State :=
  match s.cox.cur with
  | some pr => mgrResult pr.c res det { s with cox := { s.cox with cur := none } }
  | none => s

/-- The running command goes to another step. -/
def mgrStep (pr : Proc) (s : State) : State := { s with cox := { s.cox with cur := some pr } }

/-- ARG0 and ARG1 of a command. -/
def arg0 (pr : Proc) : Nat := pr.c.a0.toNat
def arg1 (pr : Proc) : Nat := pr.c.a1.toNat

/-! ### Route switches (Table 7.6, R307, R580) -/

/-- What each partition is to see by the layout as it stands (R307, R399). -/
def nowVis (s : State) : Vis :=
  { dieP := (List.range 12).map (fun d => ((List.range 12).find? (fun p => ownsDie s p d)).getD 15),
    rpP := (List.range 12).map (fun r => rpPart s r),
    mgr := managerPart s,
    vfP := s.bh.vfs.map (fun e => (e.1, e.2.owner + 1)),
    probeP := s.vis.probeP }

/-- The route set of a layout: around every stop that is disabled, to an RP stop in the pair role. -/
def routeSet (s : State) (v : Vis) : RouteSet :=
  { written := true, vis := v, shut := (List.range 96).filter (fun t => stopState s t = 2),
    pair := if fbit s (frRp 10) 0 3 then some (unitStop 0x3A) else if fbit s (frRp 11) 0 3 then some (unitStop 0x3B) else none }

/-- Does SYS 1 traffic run between two units (R20, R240)? The Cox's runs everywhere; that of ports, with each other and with the
interrupt controllers and the Boathouse; and that of root ports and the Boathouse with the homes. -/
def sysPair (a b : Nat) : Bool :=
  let dma := fun (u : Nat) => (decide (0x30 ≤ u) && decide (u < 0x3C)) || (decide (0x68 ≤ u) && decide (u < 0x6C))
  let svc := fun (u : Nat) => decide (0x60 ≤ u)
  a = 0x70 || b = 0x70 || (if a < 0x20 then dma b else if b < 0x20 then dma a else !(svc a && svc b) || (dma a && !(dma b)) || (dma b && !(dma a)))

/-- Can every partition be given a route between the stops it needs (R580)? A shared stop that is disabled is none of them, and
only a partition with a VF needs the Boathouse. -/
def routesExist (r : RouteSet) : Bool :=
  r.shut.isEmpty || (List.range 12).all (fun p =>
    let all_ := (List.range 96).filter (fun e => bit (reachMask r.vis e) p)
    let port := fun (e : Nat) => let u := stopUnit e; decide (0x20 ≤ u) && decide (u < 0x3C)
    let bh := fun (e : Nat) => let u := stopUnit e; decide (0x68 ≤ u) && decide (u < 0x6C)
    let need := all_.filter (fun e => port e || (!(r.shut.contains e) && (!(bh e) || r.vis.vfP.any (fun x => x.2 = p + 1))))
    need.all (fun t => !(r.shut.contains t) && need.all (fun e => !(sysPair (stopUnit t) (stopUnit e)) || (findRoute r.shut t e).isSome)))

/-- Write the routes of the layout as it stands into the idle bank and switch. -/
def switchRoutes (s : State) : State := epochSwitch (writeRoutes (routeSet s (nowVis s)) s)
/-- Has the last switch drained (Table 7.6 step 5)? -/
def drained (s : State) : Bool := decide (oldCnt s = 0)

/-- The Cox sends a system message to a partition, when there is one: byte 0, byte 1 and further bytes (R330). -/
def sysMsg (p : Option Nat) (v : Nat) (s : State) : State :=
  match p with
  | some p => mbxSystem p (BitVec.ofNat 512 v) s
  | none => s

end Sys2Proof.Machine
end

