-- ==== Sys2Proof/Machine/HomeOps.lean ====
section
/-! DEFINITION. The shared operations of a home agent: the package directory, acceptance and refusal of requests, the
flows of Table 4.13, region splits, victims, evictions, reservations and the teardown of a partition (chapters 4, 5).
Log entries with the choices and readings made here: 12, 13, 15, 16, 20, 29, 35, 162, 176, 177, 178, 179, 199. -/

namespace Sys2Proof.Machine

/-! ### The package directory (R119) -/

/-- The bits below the check byte of a region-table entry (Table 4.2). -/
def regPayload (e : RegEnt) : Nat :=
  e.g / 2 ^ 16 % 2 ^ 24 + e.g % 2 ^ 5 * 2 ^ 24 + b2n (!e.priv) * 2 ^ 29 + e.holder % 16 * 2 ^ 30 + e.map % 2 ^ 64 * 2 ^ 34 +
  b2n e.opn * 2 ^ 98 + e.age % 4 * 2 ^ 99
/-- The 128 bits of a region-table entry (Table 4.2). -/
def regBits (e : RegEnt) : BitVec 128 := BitVec.ofNat 128 (regPayload e + (Config.dirEcc (regPayload e)).toNat * 2 ^ 120)
/-- The bits below the check byte of a line-table entry (Table 4.3). -/
def linPayload (e : LineEnt) : Nat :=
  e.line / 2 ^ 18 % 2 ^ 28 + e.line / 2 ^ 6 % 2 ^ 5 * 2 ^ 28 + e.st.code * 2 ^ 33 + e.hold % 2 ^ 13 * 2 ^ 36 + e.owner % 16 * 2 ^ 49 +
  e.ioag % 2 ^ 8 * 2 ^ 53 + b2n e.opn * 2 ^ 61 + e.age % 4 * 2 ^ 62
/-- The 80 bits of a line-table entry (Table 4.3). -/
def linBits (e : LineEnt) : BitVec 80 := BitVec.ofNat 80 (linPayload e + (Config.dirEcc (linPayload e)).toNat * 2 ^ 72)
/-- The region that an entry's TAG and its set name (Table 4.2, R124): the set gives bits [15:5]. -/
def regTagOf (w : BitVec 128) (set : Nat) : Nat :=
  (w.extractLsb' 0 24).toNat * 2 ^ 16 + set * 2 ^ 5 + (w.extractLsb' 24 5).toNat
/-- The line that an entry's TAG and its set name (Table 4.3, R124): the set gives bits [17:11] and [5:0] of the line. -/
def linTagOf (w : BitVec 80) (set : Nat) : Nat :=
  (w.extractLsb' 0 28).toNat * 2 ^ 18 + set / 64 * 2 ^ 11 + (w.extractLsb' 28 5).toNat * 2 ^ 6 + set % 64

/-- Key of a region's entry. -/
def regKeyOf (x : Home) (g : Nat) : Option Nat :=
  ((List.range 16).map (16 * homeRset g + ·)).find? (fun k => (mget x.reg k).v && decide ((mget x.reg k).g = g))
/-- A region's entry. -/
def regFind (x : Home) (g : Nat) : Option RegEnt := (regKeyOf x g).map (mget x.reg)
/-- Key of a line's entry. -/
def linKey (x : Home) (l : Nat) : Option Nat :=
  ((List.range 16).map (16 * homeLset l + ·)).find? (fun k => (mget x.lin k).v && decide ((mget x.lin k).line = l))
/-- A line's entry. -/
def linFind (x : Home) (l : Nat) : Option LineEnt := (linKey x l).map (mget x.lin)
/-- Change a region's entry. -/
def updReg (g : Nat) (q : RegEnt → RegEnt) (x : Home) : Home :=
  match regKeyOf x g with
  | some k => { x with reg := mupd x.reg k q }
  | none => x
/-- Change a line's entry. -/
def updLin (l : Nat) (q : LineEnt → LineEnt) (x : Home) : Home :=
  match linKey x l with
  | some k => { x with lin := mupd x.lin k q }
  | none => x
/-- Change a tracker. -/
def updTrk (n id : Nat) (q : Trk → Trk) (s : State) : State :=
  updHome n (fun x => { x with trk := x.trk.map (fun t => if t.id = id then q t else t) }) s

/-- HOLD bit of an agent: its die, or 12 for an I/O-die agent (Table 4.3). -/
def holdBit (a : Nat) : Nat := if agDie a < 12 then agDie a else 12
/-- The agent to snoop for holder `b` of line `l`: the die's slice, or the I/O-die agent `ioag`. -/
def holderAgent (l ioag b : Nat) : Nat := if b < 12 then sliceAgent b (sliceOf (lineRegion l)) else agent 12 ioag
/-- Is an agent a holder of a line (R120)? A line whose entry a conversion has still to make is held under the former PRIV entry. -/
def isHolder (x : Home) (a l : Nat) : Bool :=
  match regFind x (lineRegion l) with
  | some r => if r.priv then decide (agDie a = r.holder) else
    match linFind x l with
    | some e => bit e.hold (holdBit a) && (decide (agDie a < 12) || decide (e.ioag = agUnit a))
    | none => x.split.any (fun p => decide (p.g = lineRegion l) && decide (p.holder = agDie a) && p.todo.contains (l % 64))
  | none => false

/-- Does an open transaction, other than those that wait, name the line? -/
def trkOn (x : Home) (l : Nat) : Bool := x.trk.any (fun t => t.ph ≠ .wait && decide (lineOf t.f.addr = l))
/-- Is the region's own entry in use: by a split, release or recall, or by the transaction that grants it? -/
def rgnUsed (x : Home) (g : Nat) : Bool :=
  x.split.any (fun p => decide (p.g = g)) || x.vic.any (fun v => v.rgn && decide (v.g = g)) ||
  x.trk.any (fun t => t.rgn && decide (lineRegion (lineOf t.f.addr) = g))
/-- Are requests for the region held: by that, or by a page retirement? -/
def rgnOpen (x : Home) (g : Nat) : Bool := x.hold.contains g || rgnUsed x g
/-- Is an entry of the region table open (its OPEN bit)? -/
def regOpen (x : Home) (g : Nat) : Bool :=
  rgnOpen x g || x.trk.any (fun t => t.ph ≠ .wait && decide (lineRegion (lineOf t.f.addr) = g)) || x.vic.any (fun v => decide (lineRegion v.line = g))
/-- Is an entry of the line table open? -/
def linOpen (x : Home) (l : Nat) : Bool := trkOn x l || x.vic.any (fun v => !v.rgn && decide (v.line = l)) || rgnOpen x (lineRegion l)

/-- Entries of a table's set age when one is allocated (R581). -/
def ageReg (x : Home) (key : Nat) : Map RegEnt :=
  ((List.range 16).map (key / 16 * 16 + ·)).foldl (fun m q =>
    let e := mget m q
    if q ≠ key ∧ e.v ∧ regOpen x e.g = false ∧ e.age < 3 then mset m q { e with age := e.age + 1 } else m) x.reg
/-- The same for the line table. -/
def ageLin (x : Home) (key : Nat) : Map LineEnt :=
  ((List.range 16).map (key / 16 * 16 + ·)).foldl (fun m q =>
    let e := mget m q
    if q ≠ key ∧ e.v ∧ linOpen x e.line = false ∧ e.age < 3 then mset m q { e with age := e.age + 1 } else m) x.lin

/-- Ways of a set that are held empty for a requester: one that has its credit, or will get it as a victim leaves, or whose request
has come and waits (R172, R173). -/
def rsvWays (x : Home) (line : Bool) (set : Nat) : Nat :=
  (x.rsv.filter (fun r => r.cause = .set line set)).length + (x.rq.filter (fun r => r.busy && decide (r.cause = .set line set))).length +
  (x.trk.filter (fun t => t.way = some (line, set))).length
/-- Empty ways of a region-table set. -/
def regFree (x : Home) (set : Nat) : List Nat := ((List.range 16).map (16 * set + ·)).filter (fun k => !(mget x.reg k).v)
/-- Empty ways of a line-table set. -/
def linFree (x : Home) (set : Nat) : List Nat := ((List.range 16).map (16 * set + ·)).filter (fun k => !(mget x.lin k).v)
/-- An empty way that a request may take: one that is held, only where it is held for that request. -/
def freeWay (x : Home) (line : Bool) (set : Nat) (mine : Option (Bool × Nat)) : Option Nat :=
  let ws := if line then linFree x set else regFree x set
  if ws.length ≤ rsvWays x line set - b2n (decide (mine = some (line, set))) then none else ws.head?

/-- The victim of a full region-table set (R132): fewest MAP bits, highest AGE, lowest way. -/
def regVictim (x : Home) (set : Nat) : Option Nat :=
  let c := ((List.range 16).map (16 * set + ·)).filter (fun k => (mget x.reg k).v && !(regOpen x (mget x.reg k).g))
  let better := fun (a b : Nat) =>
    let p := mget x.reg a
    let q := mget x.reg b
    decide (popcount 64 p.map < popcount 64 q.map) || (decide (popcount 64 p.map = popcount 64 q.map) && decide (q.age < p.age))
  match c with
  | [] => none
  | k :: t => some (t.foldl (fun b a => if better a b then a else b) k)
/-- The victim of a full line-table set (R132): fewest HOLD bits, highest AGE, lowest way. -/
def linVictim (x : Home) (set : Nat) : Option Nat :=
  let c := ((List.range 16).map (16 * set + ·)).filter (fun k => (mget x.lin k).v && !(linOpen x (mget x.lin k).line))
  let better := fun (a b : Nat) =>
    let p := mget x.lin a
    let q := mget x.lin b
    decide (popcount 13 p.hold < popcount 13 q.hold) || (decide (popcount 13 p.hold = popcount 13 q.hold) && decide (q.age < p.age))
  match c with
  | [] => none
  | k :: t => some (t.foldl (fun b a => if better a b then a else b) k)

/-- A line-table entry goes, with its bit in its region's MAP; a SPLT region without lines goes too (R122). -/
def linFree1 (l : Nat) (x : Home) : Home :=
  let x := match linKey x l with
    | some k => { x with lin := mdel x.lin k }
    | none => x
  match regKeyOf x (lineRegion l) with
  | none => x
  | some k =>
    let r := mget x.reg k
    if r.priv then x
    else
      let m := putBit r.map (l % 64) false
      if m = 0 ∧ rgnUsed x r.g = false then { x with reg := mdel x.reg k } else { x with reg := mset x.reg k { r with map := m } }

/-! ### Sending -/

/-- PART of a snoop: the owner of the line's slab (R154). DESIGN CHOICE: in a MOVING slab, whose OWNER Table 8.3 does not call valid,
the owner before the move, which the entry still names and whose dies the snoops of Table 8.13 step 2 reach; 15 in any other. -/
def snpPart (s : State) (pa : Nat) : Nat :=
  let e := slabEnt s (slabOf pa)
  if pa < memTop ∧ (slState e = slOWNED ∨ slState e = slMOVING) then slOwner e else 15

/-- A snoop of a home: it carries the partition that owns the line's slab (R154) and SYS clear (R137). -/
def homeSnp (s : State) (n dst l op tag fwd ftxn : Nat) (fcomp : Bool) : Flit :=
  { net := .snp, op := op, src := haAgent n, dst := dst, txn := tag, part := snpPart s (64 * l), addr := 64 * l,
    fwd := fwd, ftxn := ftxn, fcomp := fcomp }

/-- Answer Fault (R147) and count it. -/
def homeFault (n cause : Nat) (f : Flit) (s : State) : State := send (faultRsp (haAgent n) cause f) (count (frHa n) 12 1 s)

/-- A grant without data, to DATADST (R134). -/
def homeComp (n : Nat) (f : Flit) (st : St) (rgn : Bool) (s : State) : State :=
  send { rsp oComp (haAgent n) f.datadst f.datatxn f with st := st, rgn := rgn } s

/-- Ask the memory for a line; its data goes to DATADST as the flit says. -/
def homeRead (n : Nat) (t : Trk) (op : Nat) (st : St) (rgn : Bool) (s : State) : State :=
  let q : Flit := { dat op (haAgent n) t.f.datadst t.f.datatxn t.f 0 false with st := st, rgn := rgn, comp := true }
  count (frHa n) 4 1 (count (frHa n) 5 1 { s with memq := s.memq ++ [{ ha := n, trk := some t.id, pa := t.f.addr / 64 * 64, rsp := q }] })

/-- Write a line to memory for a tracker or a victim; `acks` go out when the controller accepts it. -/
def homeWrite (n : Nat) (trk vic : Option Nat) (l : Nat) (data : Line) (poison : Bool) (acks : List Flit) (s : State) : State :=
  let q : MemReq := { ha := n, trk := trk, vic := vic, pa := 64 * l, wr := true, data := data, poison := poison, acks := acks }
  count (frHa n) 6 1 (mirrorWrite n l data poison { s with memq := s.memq ++ [q] })

/-- Send the snoops of a transaction; the owner among them gets `ownOp` and forwards, the others are invalidated. -/
def snoopFor (n : Nat) (t : Trk) (own : Option (Nat × Nat)) (others : List Nat) (op : Nat) (s : State) : State :=
  let l := lineOf t.f.addr
  let fc := others.isEmpty
  let s := match own with
    | some (a, o) => send (homeSnp s n a l o t.id t.f.datadst t.f.datatxn fc) s
    | none => s
  let s := others.foldl (fun s a => send (homeSnp s n a l op t.id 0 0 false) s) s
  let all := (own.map (·.1)).toList ++ others
  updTrk n t.id (fun t => { t with ph := .snoop, pend := all, snooped := t.snooped ++ all, owner := own.map (·.1), fcomp := fc })
    (count (frHa n) 3 all.length s)

/-! ### Victims (R131, R132, R153, R170) -/

/-- Victim trackers in use on a pipeline. -/
def vicUsed (x : Home) (p : Nat) : Nat := (x.vic.filter (fun v => v.pipe = p)).length

/-- Start the removal of the entry at a key of the region or line table, if a victim tracker is free.
DESIGN CHOICE: one victim tracker serves all lines of a SPLT region that falls victim (R132, R170). -/
def startVictim (n : Nat) (line : Bool) (key : Nat) (s : State) : State :=
  let x := home s n
  let id := 8192 + x.tag % 8192
  if line then
    let e := mget x.lin key
    let p := homePipe (lineRegion e.line)
    if 32 ≤ vicUsed x p then s
    else
      let as := (onesOf 13 e.hold).map (holderAgent e.line e.ioag)
      let v : Vic := { id := id, pipe := p, line := e.line, g := lineRegion e.line,
                       pend := as.map (fun a => 64 * a + e.line % 64), snooped := as }
      let s := updHome n (fun x => { x with tag := x.tag + 1, vic := x.vic ++ [v] }) s
      count (frHa n) 9 1 (count (frHa n) 3 as.length (as.foldl (fun s a => send (homeSnp s n a e.line oBackInv id 0 0 false) s) s))
  else
    let e := mget x.reg key
    let p := homePipe e.g
    if 32 ≤ vicUsed x p then s
    else if e.priv then
      let a := sliceAgent e.holder (sliceOf e.g)
      let v : Vic := { id := id, pipe := p, rgn := true, line := 64 * e.g, g := e.g, pend := [64 * a], snooped := [a] }
      let s := updHome n (fun x => { x with tag := x.tag + 1, vic := x.vic ++ [v] }) s
      count (frHa n) 3 1 (send (homeSnp s n a (64 * e.g) oSnpRgnInv id 0 0 false) s)
    else
      let ps := (onesOf 64 e.map).flatMap (fun i =>
        let l := 64 * e.g + i
        match linFind x l with
        | some y => (onesOf 13 y.hold).map (fun b => (holderAgent l y.ioag b, i))
        | none => [])
      let v : Vic := { id := id, pipe := p, rgn := true, line := 64 * e.g, g := e.g,
                       pend := ps.map (fun a => 64 * a.1 + a.2), snooped := ps.map (·.1) }
      let s := updHome n (fun x => { x with tag := x.tag + 1, vic := x.vic ++ [v] }) s
      count (frHa n) 9 (onesOf 64 e.map).length (count (frHa n) 3 ps.length
        (ps.foldl (fun s a => send (homeSnp s n a.1 (64 * e.g + a.2) oBackInv id 0 0 false) s) s))

/-- A victim whose snoops are answered and whose data memory has accepted: its entries are free (R131, R153). -/
def vicDone (v : Vic) : Bool := v.pend.isEmpty && decide (v.ndExp = v.ndGot) && decide (v.wr = 0)

/-- Free the entries of a finished victim. -/
def vicFinish (n : Nat) (v : Vic) (s : State) : State :=
  updHome n (fun x =>
    let x := { x with vic := x.vic.filter (fun y => y.id ≠ v.id) }
    if v.rgn then
      let x := match regFind x v.g with
        | some r => if r.priv then x else { x with lin := x.lin.filter (fun e => !(e.2.v && decide (lineRegion e.2.line = v.g))) }
        | none => x
      match regKeyOf x v.g with
      | some k => { x with reg := mdel x.reg k }
      | none => x
    else linFree1 v.line x) s

/-! ### Allocation -/

/-- A region entry for a region: the existing one, or a new one in a free way. `none` when a way must first be freed. -/
def allocReg (n : Nat) (e : RegEnt) (mine : Option (Bool × Nat)) (s : State) : Option State :=
  let x := home s n
  match freeWay x false (homeRset e.g) mine with
  | some k => some (updHome n (fun x => { x with reg := mset (ageReg x k) k e }) s)
  | none => none

/-- A line entry in a free way, with its bit in the region's MAP. -/
def allocLin (n : Nat) (e : LineEnt) (mine : Option (Bool × Nat)) (s : State) : Option State :=
  let x := home s n
  match freeWay x true (homeLset e.line) mine with
  | some k => some (updHome n (fun x =>
      updReg (lineRegion e.line) (fun r => { r with map := putBit r.map (e.line % 64) true }) { x with lin := mset (ageLin x k) k e }) s)
  | none => none

/-- Is a victim of a set being removed? -/
def vicInSet (x : Home) (line : Bool) (set : Nat) : Bool :=
  x.vic.any (fun v => if line then !v.rgn && decide (homeLset v.line = set) else v.rgn && decide (homeRset v.g = set))

/-- Make room in a set: start its victim's removal, unless one of its entries is already being removed. -/
def makeRoom (n : Nat) (line : Bool) (set : Nat) (s : State) : State :=
  let x := home s n
  if vicInSet x line set then s else match (if line then linVictim x set else regVictim x set) with
  | some k => startVictim n line k s
  | none => s

/-- The region and line have the entries that a served request needs, or the room is being made (R132, R170). -/
def ensureEntries (n : Nat) (t : Trk) (s : State) : Option State × State :=
  let x := home s n
  let l := lineOf t.f.addr
  let g := lineRegion l
  let used := fun (s : State) => updTrk n t.id (fun t => { t with way := none }) s
  match regFind x g with
  | none =>
    match freeWay x false (homeRset g) t.way, freeWay x true (homeLset l) t.way with
    | some _, some _ =>
      match allocReg n { v := true, g := g, priv := false } t.way s with
      | some s1 => match allocLin n { v := true, line := l } t.way s1 with
        | some s2 => (some (used s2), s)
        | none => (none, s)
      | none => (none, s)
    | none, _ => (none, makeRoom n false (homeRset g) s)
    | _, none => (none, makeRoom n true (homeLset l) s)
  | some _ => match linFind x l with
    | some _ => (some s, s)
    | none => match allocLin n { v := true, line := l } t.way s with
      | some s1 => (some (used s1), s)
      | none => (none, makeRoom n true (homeLset l) s)

/-! ### Closing and completing -/

/-- The transaction closes and its tracker is free (R161); an open line entry with no holder goes. -/
def closeTrk (n id : Nat) (s : State) : State :=
  match (home s n).trk.find? (fun t => t.id = id) with
  | none => s
  | some t =>
    let l := lineOf t.f.addr
    updHome n (fun x =>
      let x := { x with trk := x.trk.filter (fun t => t.id ≠ id) }
      match linFind x l with
      | some e => if e.hold = 0 then linFree1 l x else x
      | none => x) s

/-- Record a line as held by one agent in E. -/
def setSole (a : Nat) (e : LineEnt) : LineEnt :=
  { e with st := .e, hold := 2 ^ holdBit a, owner := holdBit a, ioag := if agDie a < 12 then 0 else agUnit a, age := 0 }
/-- Add a holder in S. -/
def addHolder (a : Nat) (e : LineEnt) : LineEnt :=
  { e with hold := putBit e.hold (holdBit a) true, ioag := if agDie a < 12 then e.ioag else agUnit a, age := 0 }
/-- Remove a holder. -/
def dropHolder (b : Nat) (e : LineEnt) : LineEnt := { e with hold := putBit e.hold b false }

/-- A CompAck that arrives before the last SnpRsp records its sender at once (R120, R139, R161): an eviction that follows it finds
the sender a holder (R165). -/
def ackHolder (a : Nat) (own : Bool) (st : St) (e : LineEnt) : LineEnt := if own || decide (st ≠ .s) then setSole a e else addHolder a e

/-- A transaction that takes no CompAck ends when its writes are accepted (R161). -/
def endIfDone (n : Nat) (t : Trk) (s : State) : State :=
  if t.ndExp = t.ndGot ∧ t.wr = 0 ∧ t.ph = .mem then
    let s := if t.f.op = oWrFull ∨ t.f.op = oCboClean ∨ t.f.op = oCboFlush then homeComp n t.f .i false s else s
    closeTrk n t.id s
  else if t.ph = .ack ∧ t.acked ∧ t.ndExp = t.ndGot ∧ t.wr = 0 then closeTrk n t.id s
  else s

/-- Wait for the CompAck. -/
def toAck (n id : Nat) (s : State) : State := updTrk n id (fun t => { t with ph := .ack }) s
/-- Wait for memory. -/
def toMem (n id : Nat) (s : State) : State := updTrk n id (fun t => { t with ph := .mem }) s

/-- Every SnpRsp of a transaction has arrived: send what the home sends, and record the state after (Table 4.13, R163). -/
def afterSnoops (n : Nat) (t : Trk) (s : State) : State :=
  let x := home s n
  let l := lineOf t.f.addr
  let g := lineRegion l
  let b := t.f.src
  let priv := ((regFind x g).map (·.priv)).getD false
  let ownBit := (t.owner.map holdBit).getD 13
  if t.f.op = oRdShared ∨ t.f.op = oRdRgn then
    if t.fwd then
      let add := fun (e : LineEnt) => if t.listed then e else addHolder b e
      let s := updHome n (updLin l (fun e =>
        match t.ownSt with
        | .sd => add { e with st := .sd, owner := ownBit }
        | .i => if t.ownWb then add { dropHolder ownBit e with st := .s } else if t.listed then dropHolder ownBit e else setSole b e
        | _ => add { e with st := .s })) s
      toAck n t.id s
    else
      let left := if t.ownSt = .i then putBit (((linFind x l).map (·.hold)).getD 0) ownBit false else (((linFind x l).map (·.hold)).getD 0)
      if left = 0 then toAck n t.id (homeRead n t oData .e false (updHome n (updLin l (setSole b)) s))
      else toAck n t.id (homeRead n t oData .s false (updHome n (updLin l (fun e => addHolder b { e with st := .s, hold := left })) s))
  else if t.listed then toAck n t.id s
  else if t.f.op = oRdOwn ∨ t.f.op = oUpgrade ∨ t.f.op = oClaimOwn then
    let was := ((linFind x l).map (·.st)).getD .i
    let held := bit (((linFind x l).map (·.hold)).getD 0) (holdBit b) && (decide (agDie b < 12) || decide (((linFind x l).map (·.ioag)).getD 256 = agUnit b))
    let s := updHome n (updLin l (setSole b)) s
    if t.f.op = oClaimOwn then toAck n t.id (homeComp n t.f .e t.rgn s)
    else if t.f.op = oUpgrade ∧ held = true then toAck n t.id (homeComp n t.f (if was = .sd then .m else .e) false s)
    else if t.fwd then toAck n t.id (if t.fcomp then s else homeComp n t.f .e false s)
    else toAck n t.id (homeRead n t oData .e false s)
  else if t.f.op = oRdOnce then
    if t.fwd then
      let s := toMem n t.id s
      match (home s n).trk.find? (fun y => y.id = t.id) with
      | some t => endIfDone n t s
      | none => s
    else homeRead n t oDataCopy .i false (updTrk n t.id (fun t => { t with ph := .mem, wr := t.wr + 1 }) s)
  else if t.f.op = oWrFull then
    let s := updHome n (fun x => if priv then updReg g (fun r => { r with map := putBit r.map (l % 64) false }) x
      else updLin l (fun e => { e with hold := 0, st := .i }) x) s
    homeWrite n (some t.id) none l t.f.data t.f.poison [] (updTrk n t.id (fun t => { t with ph := .mem, wr := t.wr + 1 }) s)
  else
    let s := updHome n (fun x =>
      if t.f.op = oCboFlush then
        if priv then updReg g (fun r => { r with map := putBit r.map (l % 64) false }) x
        else updLin l (fun e => { e with hold := 0, st := .i }) x
      else if priv then x else updLin l (fun e => if e.st = .sd then { e with st := .s } else e) x) s
    let s := toMem n t.id s
    match (home s n).trk.find? (fun y => y.id = t.id) with
    | some t => endIfDone n t s
    | none => s

/-! ### Serving a request (Table 4.13, R126 to R128) -/

/-- Start the split of a region for a request (Table 4.4 step 1). -/
def startSplit (n : Nat) (g holder : Nat) (s : State) : State :=
  let x := home s n
  let id := 8192 + x.tag % 8192
  let s := updHome n (fun x => { x with tag := x.tag + 1, split := x.split ++ [{ g := g, holder := holder, txn := id, sent := true }] }) s
  count (frHa n) 8 1 (count (frHa n) 3 1 (send (homeSnp s n (sliceAgent holder (sliceOf g)) (64 * g) oSnpRgnSplit id 0 0 false) s))

/-- Serve a request on the state found now (Table 4.13). DESIGN CHOICE: R150 has a CboClean snoop every holder; Table 4.13 snoops the
owner or the PRIV holder, and none in S, whose copies Table 4.8 leaves unchanged: the table is followed. -/
def serveTrk (n id : Nat) (s : State) : State :=
  let x := home s n
  match x.trk.find? (fun t => t.id = id) with
  | none => s
  | some t =>
    let f := t.f
    let l := lineOf f.addr
    let g := lineRegion l
    let b := f.src
    let own := f.op = oRdOwn || f.op = oUpgrade || f.op = oClaimOwn
    let fill := own || f.op = oRdShared || f.op = oRdRgn
    match regFind x g with
    | some r =>
      let s := updHome n (updReg g (fun r => { r with age := 0 })) s
      if r.priv then
        let h := sliceAgent r.holder (sliceOf g)
        if fill then
          if r.holder = agDie b ∧ isSlice b = true then
            if f.op = oClaimOwn ∨ f.op = oUpgrade then toAck n id (homeComp n f .e f.rgnok s)
            else
              let s := updHome n (updReg g (fun r => { r with map := putBit r.map (l % 64) true })) s
              toAck n id (homeRead n t oData .e (f.rgnok || f.op = oRdRgn) s)
          else startSplit n g r.holder (updTrk n id (fun t => { t with ph := .split }) s)
        else if f.op = oRdOnce then
          if r.holder = agDie b then homeRead n t oDataCopy .i false (updTrk n id (fun t => { t with ph := .mem, wr := t.wr + 1 }) s)
          else snoopFor n t (some (h, oSnpCur)) [] oSnpCur s
        else if f.op = oWrFull then snoopFor n t none [h] oSnpInv s
        else if f.op = oCboClean then snoopFor n t none [h] oSnpClean s
        else snoopFor n t none [h] oBackInv s
      else
        match linFind x l with
        | some e =>
          let s := updHome n (updLin l (fun e => { e with age := 0 })) s
          let held := onesOf 13 e.hold
          let mine := holdBit b
          let self := bit e.hold mine && (decide (agDie b < 12) || decide (e.ioag = agUnit b))
          let others := (held.filter (fun d => !(self && decide (d = mine)))).map (holderAgent l e.ioag)
          let owner := if e.st = .e ∨ e.st = .sd then some (holderAgent l e.ioag e.owner) else none
          let ownerO := if self ∧ e.owner = mine then none else owner
          if f.op = oRdShared ∨ f.op = oRdRgn then
            match ownerO with
            | some a => snoopFor n t (some (a, oSnpShared)) [] oSnpShared s
            | none => afterSnoops n { t with owner := none, fwd := false, ownSt := .s } s
          else if f.op = oClaimOwn then
            if held.isEmpty then afterSnoops n t s else snoopFor n t none (held.map (holderAgent l e.ioag)) oSnpInv s
          else if f.op = oUpgrade ∧ self then
            if others.isEmpty then afterSnoops n t s else snoopFor n t none others oSnpInv s
          else if own then
            match ownerO with
            | some a => snoopFor n t (some (a, oSnpOwn)) (others.filter (· ≠ a)) oSnpInv s
            | none => if others.isEmpty then afterSnoops n t s else snoopFor n t none others oSnpInv s
          else if f.op = oRdOnce then
            match owner with
            | some a => snoopFor n t (some (a, oSnpCur)) [] oSnpCur s
            | none => afterSnoops n t s
          else if f.op = oCboClean then
            match owner with
            | some a => snoopFor n t none [a] oSnpClean s
            | none => afterSnoops n t s
          else
            let all := held.map (holderAgent l e.ioag)
            if all.isEmpty then afterSnoops n t s
            else snoopFor n t none all (if f.op = oWrFull then oSnpInv else oBackInv) s
        | none =>
          if fill then
            match ensureEntries n t s with
            | (some s, _) => afterSnoops n { t with owner := none, fwd := false } s
            | (none, s) => updTrk n id (fun t => { t with ph := .victim }) s
          else afterSnoops n { t with owner := none, fwd := false } s
    | none =>
      if f.op = oRdShared ∨ f.op = oRdOwn ∨ f.op = oClaimOwn then
        if f.rgnok ∧ isSlice b = true then
          match allocReg n { v := true, g := g, priv := true, holder := agDie b, map := if f.op = oClaimOwn then 0 else 2 ^ (l % 64) } t.way s with
          | some s =>
            let s := count (frHa n) 7 1 (updTrk n id (fun t => { t with ph := .ack, rgn := true, way := none }) s)
            if f.op = oClaimOwn then homeComp n f .e true s else homeRead n t oData .e true s
          | none =>
            if (regVictim x (homeRset g)).isSome then updTrk n id (fun t => { t with ph := .victim }) (makeRoom n false (homeRset g) s)
            else match ensureEntries n t s with
              | (some s, _) => afterSnoops n { t with owner := none, fwd := false } s
              | (none, s) => updTrk n id (fun t => { t with ph := .victim }) s
        else match ensureEntries n t s with
          | (some s, _) => afterSnoops n { t with owner := none, fwd := false } s
          | (none, s) => updTrk n id (fun t => { t with ph := .victim }) s
      else if fill then
        match ensureEntries n t s with
        | (some s, _) => afterSnoops n { t with owner := none, fwd := false } s
        | (none, s) => updTrk n id (fun t => { t with ph := .victim }) s
      else afterSnoops n { t with owner := none, fwd := false } s

/-! ### Conversion of a region to lines (Table 4.4 step 4, R129, R130) -/

/-- Allocate the line entries still to do, as far as the line table has ways. -/
def splitAlloc (n : Nat) (p : Split) (s : State) : State :=
  p.todo.foldl (fun s i =>
    let l := 64 * p.g + i
    match allocLin n (setSole (sliceAgent p.holder 0) { v := true, line := l }) none s with
    | some s => updHome n (fun x => { x with split := x.split.map (fun q => if q.txn = p.txn ∧ q.g = p.g then { q with todo := q.todo.filter (· ≠ i) } else q) }) s
    | none => makeRoom n true (homeLset l) s) s

/-- The conversion begins: the lines are those of the map and of the PRIV entry's MAP. -/
def splitBegin (n : Nat) (p : Split) (map : Nat) (s : State) : State :=
  let x := home s n
  let m := ((regFind x p.g).map (·.map)).getD 0 ||| map
  let p := { p with ready := true, todo := onesOf 64 m }
  let s := updHome n (fun x => updReg p.g (fun r => { r with priv := false, map := 0 })
    { x with split := x.split.map (fun q => if q.txn = p.txn ∧ q.g = p.g then p else q) }) s
  splitAlloc n p s

/-- The last allocation is made: OPEN clears; a release is acknowledged; a region with no line is freed. -/
def splitEnd (n : Nat) (p : Split) (s : State) : State :=
  let s := updHome n (fun x =>
    let x := { x with split := x.split.filter (fun q => !(decide (q.txn = p.txn) && decide (q.g = p.g))) }
    match regKeyOf x p.g with
    | some k => if (mget x.reg k).map = 0 ∧ (mget x.reg k).priv = false then { x with reg := mdel x.reg k } else x
    | none => x) s
  match p.rel with
  | some (src, txn) => send { net := .rsp, op := oEvictAck, src := haAgent n, dst := src, txn := txn, part := p.part, addr := 4096 * p.g } s
  | none => s

/-! ### Retry, reservations and going on (R171 to R175) -/

/-- Is a tracker free that is neither reserved nor assigned to a queued entry (R170, R172, R173)? -/
def trkFree (x : Home) : Bool := decide (x.trk.length + x.rsv.length + (x.rq.filter (·.busy)).length < 1536)

/-- The set, if any, in which a request needs a new entry while every way is open or a SET entry waits (R171). -/
def setRefused (x : Home) (f : Flit) : Option (Bool × Nat) :=
  let l := lineOf f.addr
  let g := lineRegion l
  let fill := f.op = oRdShared || f.op = oRdOwn || f.op = oUpgrade || f.op = oClaimOwn || f.op = oRdRgn
  let full := fun (line : Bool) (set : Nat) =>
    x.rq.any (fun r => r.cause = .set line set) ||
    ((freeWay x line set none).isNone && (if line then linVictim x set else regVictim x set).isNone)
  if !fill then none
  else match regFind x g with
    | none => if full false (homeRset g) then some (false, homeRset g)
      else if !(f.rgnok && isSlice f.src) && full true (homeLset l) then some (true, homeLset l) else none
    | some r => if r.priv then none else if (linFind x l).isNone && full true (homeLset l) then some (true, homeLset l) else none

/-- Must a request wait for an earlier one on its line or region (R160)? -/
def mustChain (x : Home) (f : Flit) : Bool :=
  x.trk.any (fun t => decide (lineOf t.f.addr = lineOf f.addr)) || rgnOpen x (lineRegion (lineOf f.addr)) ||
  x.vic.any (fun v => !v.rgn && decide (v.line = lineOf f.addr))

/-- Refuse with Retry, queueing the requester unless it has 4 pending (R171, R175). -/
def refuse (n : Nat) (f : Flit) (c : RqCause) (s : State) : State :=
  let x := home s n
  let held := (x.rq.filter (fun r => r.src = f.src)).length + (x.rsv.filter (fun r => r.src = f.src)).length
  let s := count (frHa n) 1 1 (send (rsp oRetry (haAgent n) f.src f.txn f) s)
  if 4 ≤ held then s else updHome n (fun x => { x with rq := x.rq ++ [{ src := f.src, txn := f.txn, part := f.part, sys := f.sys, cause := c }] }) s

/-- A waiting request whose line and region nothing earlier names. -/
def chainHead (x : Home) : Option Nat :=
  (x.trk.find? (fun t =>
    let l := lineOf t.f.addr
    t.ph = .wait && !(trkOn x l) && !(rgnOpen x (lineRegion l)) && !(x.vic.any (fun v => decide (v.line = l) && !v.rgn)) &&
    ((x.trk.find? (fun y => decide (lineOf y.f.addr = l))).map (·.id)) = some t.id)).map (·.id)

/-- Serve again a request whose way or split is ready. -/
def resumeHead (x : Home) : Option Nat :=
  (x.trk.find? (fun t =>
    let l := lineOf t.f.addr
    (t.ph = .victim || t.ph = .split) && !(x.split.any (fun p => decide (p.g = lineRegion l))) &&
    (t.ph = .split || !(x.vic.any (fun v => homeRset v.g = homeRset (lineRegion l) || homeLset v.line = homeLset l))))).map (·.id)

/-- A queued requester gets its credit: a reservation of its tracker, and of its way (R172). -/
def grantCredit (n : Nat) (r : RqEnt) (s : State) : State :=
  let s := updHome n (fun x => { x with rq := x.rq.erase r, rsv := x.rsv ++ [{ r with busy := false }] }) s
  count (frHa n) 2 1 (send { net := .rsp, op := oCreditGrant, src := haAgent n, dst := r.src, txn := r.txn, part := r.part, sys := r.sys } s)

/-- A queued entry, tried in its turn: a free tracker goes to it if it can use it; of a full set the victim leaves first, with the
tracker assigned meanwhile (R172). -/
def grantTry (n : Nat) (r : RqEnt) (s : State) : State :=
  let x := home s n
  match r.cause with
  | .set line set =>
    let ways := (if line then linFree x set else regFree x set).length
    if r.busy then (if rsvWays x line set ≤ ways then grantCredit n r s else s)
    else if !(trkFree x) || (x.rq.find? (fun q => decide (q.cause = r.cause))) ≠ some r then s
    else if (freeWay x line set none).isSome then grantCredit n r s
    else match (if line then linVictim x set else regVictim x set) with
      | none => s
      | some k =>
        let t := startVictim n line k s
        if (home t n).vic.length = x.vic.length then s
        else updHome n (fun x => { x with rq := x.rq.map (fun q => if q = r then { q with busy := true } else q) }) t
  | _ => if trkFree x then grantCredit n r s else s

/-- The queued entries in refusal order. -/
def grantStep (n : Nat) (s : State) : State := (home s n).rq.foldl (fun s r => grantTry n r s) s

/-- One round of going on: finished victims free their entries, credits are granted, then waiting requests are served. -/
def homeStep (n : Nat) (s : State) : State :=
  let s := (home s n).vic.foldl (fun s v => if vicDone v then vicFinish n v s else s) s
  let s := grantStep n s
  let s := (home s n).split.foldl (fun s p => if p.ready && !p.todo.isEmpty then splitAlloc n p s else s) s
  let s := match resumeHead (home s n) with
    | some id => serveTrk n id s
    | none => s
  match chainHead (home s n) with
  | some id => serveTrk n id s
  | none => s

/-- The OPEN bits of both tables (Tables 4.2 and 4.3). -/
def openBits (x : Home) : Home :=
  { x with reg := x.reg.map (fun e => (e.1, { e.2 with opn := e.2.v && regOpen x e.2.g })), lin := x.lin.map (fun e => (e.1, { e.2 with opn := e.2.v && linOpen x e.2.line })) }

/-- The home goes on as far as it can after an event: every round serves a request whose turn has come (R160, R177). -/
def homeRun (n : Nat) (s : State) : State :=
  let x := home s n
  updHome n openBits ((List.range (4 + x.trk.length)).foldl (fun s _ => homeStep n s) s)

/-! ### Acceptance (R156, R160, R171, R173, R268) -/

/-- Does a column of the set that an address selects lie outside the devices (R268)? -/
def colBad (s : State) (e : Nat) : Bool :=
  if slKind e = 0 then decide (33 ≤ slDslab e)
  else if slKind e = 1 then (mget s.ddrOff (slGrp e)) || decide (mget s.ddrSlabs (slGrp e) ≤ slDslab e)
  else false

/-- The entry of the column that holds an address (R270): slab number `setbase + k`. -/
def colSlab (pa lw : Nat) : Nat :=
  let w := 2 ^ lw
  let base := slabOf pa / w * w
  let r := (pa - base * 2 ^ 30) / 4096
  let row := r / w
  let f := (List.range 9).foldl (fun f i => f ^^^ (row / 4 ^ i % 4)) 0
  base + (r ^^^ f) % w

/-- What the slab table says to a coherent request of `part`: `none` to serve it, else the Fault cause (R156, R268). The
home judges by its own copy (R274). -/
def slabCheck (n : Nat) (pa part : Nat) (s : State) : Option Nat × State :=
  if memTop ≤ pa then (some cVACANT, s)
  else
    let r := slabCopy (haAgent n) (slabOf pa) s
    let e := r.1
    let s := r.2
    if slState e = slVACANT then (some cVACANT, s)
    else
      let q := slabCopy (haAgent n) (colSlab pa (slLw e)) s
      let c := q.1
      let s := q.2
      if colBad s c then (some cVACANT, s)
      else if part = 15 then (none, s)
      else if slState e = slOWNED ∧ slOwner e = part then (none, s)
      else (some cPARTITION, s)

/-- Does a torn-down domain answer for a request (Table 5.4 step 1, R325)? -/
def domainOff (s : State) (n : Nat) (f : Flit) : Bool :=
  let x := home s n
  (decide (f.part < 12) && bit x.off f.part) ||
  (match slabOwner s f.addr with
   | some p => decide (p < 12) && bit x.off p
   | none => false)

/-- Does a queued entry wait for a set? -/
def rqIsSet (r : RqEnt) : Bool :=
  match r.cause with
  | .set _ _ => true
  | _ => false

/-- The set whose way is kept for a queued entry. -/
def rqWay (c : RqCause) : Option (Bool × Nat) :=
  match c with
  | .set line set => some (line, set)
  | _ => none

/-- A request takes a tracker; it is served unless it must wait for an earlier one. `way` is the set in which a way is kept for it. -/
def homeOpen (n : Nat) (f : Flit) (way : Option (Bool × Nat)) (s : State) : State :=
  let x := home s n
  let id := x.tag % 8192
  let chain := mustChain x f
  let s := count (frHa n) 0 1 (updHome n (fun x => { x with tag := x.tag + 1, trk := x.trk ++ [{ id := id, f := { f with rsv := false }, way := way, port := ingressPort s f }] }) s)
  if chain then s else serveTrk n id s

/-- A request reaches a home: refused, faulted, chained or served. -/
def homeTake (n : Nat) (f : Flit) (s : State) : State :=
  if domainOff s n f then
    logErr { flitErr (frHa n) 0x08 true f with part := f.part } (homeFault n cDOMAIN_OFF f s)
  else
    let r := slabCheck n f.addr f.part s
    let s := r.2
    match r.1 with
    | some c => logErr { flitErr (frHa n) 0x03 false f with info := c } (homeFault n c f s)
    | none =>
      let x := home s n
      if f.rsv then
        match x.rsv.find? (fun r => r.src = f.src ∧ r.txn = f.txn) with
        | some r => homeOpen n f (rqWay r.cause) (updHome n (fun x => { x with rsv := x.rsv.erase r }) s)
        | none => logErr (flitErr (frHa n) 0x06 false f) (homeFault n cUNSUPPORTED f s)
      else
        let chain := mustChain x f
        match (if chain then none else setRefused x f) with
        | some (line, set) => refuse n f (.set line set) s
        | none =>
          if !(trkFree x) then refuse n f .tracker s
          else if !(x.rq.all rqIsSet) then refuse n f .queued s
          else homeOpen n f none s

/-! ### Evictions (R164, R165, Table 4.13) -/

/-- Is an eviction stale (R165)? DESIGN CHOICE: R168 applies an eviction that meets a recall to the PRIV entry, where R165's third
case calls it stale: it is stale here, and the slice sends its dirty data with the recall's answer (R131), so that none is lost. -/
def evictStale (x : Home) (a l : Nat) : Bool :=
  !(isHolder x a l) ||
  x.trk.any (fun t => t.ph ≠ .wait && decide (lineOf t.f.addr = l) && t.snooped.contains a) ||
  x.vic.any (fun v => (if v.rgn then decide (v.g = lineRegion l) else decide (v.line = l)) && v.snooped.contains a)

/-- An eviction by the requester of an open transaction that overtakes its CompAck while a SnpRsp is still awaited: the sender
has the line, so the directory lists it first. -/
def evictEarly (n : Nat) (f : Flit) (s : State) : State :=
  let x := home s n
  let l := lineOf f.addr
  if isHolder x f.src l then s
  else match x.trk.find? (fun t => decide (t.f.src = f.src) && decide (lineOf t.f.addr = l) && t.fcomp && !t.pend.isEmpty && !t.listed &&
      (t.f.op = oRdShared || t.f.op = oRdRgn || t.f.op = oRdOwn || t.f.op = oUpgrade)) with
    | none => s
    | some t => updHome n (updLin l (ackHolder f.src (t.f.op = oRdOwn || t.f.op = oUpgrade || f.op = oWrBackDirty) .s)) (updTrk n t.id (fun t => { t with listed := true }) s)

/-- What a home says to an eviction or a release before its directory: the Fault cause with which it refuses it, if any. A set that is
MOVING still takes what its old owner's range invalidation sends, for step 1 of Table 8.13 refuses only new requests. -/
def evictCheck (n : Nat) (f : Flit) (s : State) : Option Nat × State :=
  if domainOff s n f then (some cDOMAIN_OFF, s)
  else
    let r := slabCheck n f.addr f.part s
    let q := slabCopy (haAgent n) (slabOf f.addr) r.2
    if r.1 = some cPARTITION ∧ slState q.1 = slMOVING ∧ slOwner q.1 = f.part then (none, q.2) else r

/-- An eviction or a release is refused, with a record. -/
def evictRefuse (n c : Nat) (f : Flit) (s : State) : State :=
  let off := decide (c = cDOMAIN_OFF)
  logErr { flitErr (frHa n) (if off then 0x08 else 0x03) off f with info := if off then f.op else c } (homeFault n c f s)

/-- A WrBackDirty or EvictClean is processed in one pass (R164, R165, Table 4.13, R581). -/
def homeEvict (n : Nat) (f : Flit) (s : State) : State :=
  let s := count (frHa n) 11 1 s
  let l := lineOf f.addr
  let ack := rsp oEvictAck (haAgent n) f.src f.txn f
  let r := evictCheck n f s
  let s := r.2
  match r.1 with
  | some c => evictRefuse n c f s
  | none =>
    let s := evictEarly n f s
    let x := home s n
    if evictStale x f.src l then send { ack with stale := true } s
    else
      let b := holdBit f.src
      let s := updHome n (fun x =>
        let x := updReg (lineRegion l) (fun r => { r with age := 0 }) x
        if ((regFind x (lineRegion l)).map (·.priv)).getD false then
          updReg (lineRegion l) (fun r => { r with map := putBit r.map (l % 64) false }) x
        else
          let x := { x with split := x.split.map (fun p => if p.g = lineRegion l then { p with todo := p.todo.erase (l % 64) } else p) }
          let x := updLin l (fun e =>
            let e := { e with hold := putBit e.hold b false, age := 0 }
            if e.owner = b ∧ e.st = .sd then { e with st := .s } else if e.owner = b ∧ e.st = .e then { e with st := .i } else e) x
          match linFind x l with
          | some e => if e.hold = 0 ∧ trkOn x l = false then linFree1 l x else x
          | none => x) s
      if f.op = oWrBackDirty then homeWrite n none none l f.data f.poison [ack] s else send ack s

/-- A RgnRel: the conversion begins when its map is here too; a release of a region that is not PRIV for the sender, or that a split
or recall has taken, is stale and its map ignored (R130, R164, R169). -/
def homeRgnRel (n : Nat) (f : Flit) (s : State) : State :=
  let r := evictCheck n f s
  let s := r.2
  let x := home s n
  let g := lineRegion (lineOf f.addr)
  let mine := match regFind x g with
    | some r => r.priv && decide (r.holder = agDie f.src)
    | none => false
  let taken := x.split.any (fun p => decide (p.g = g)) || x.vic.any (fun v => v.rgn && decide (v.g = g))
  let map := x.maps.find? (fun m => decide (m.src = f.src) && decide (m.txn = f.txn))
  let s := updHome n (fun x => match map with
    | some m => { x with maps := x.maps.erase m }
    | none => x) s
  let skip := fun (s : State) => if map.isNone then updHome n (fun x => { x with mapx := x.mapx ++ [(f.src, f.txn)] }) s else s
  match r.1 with
  | some c => skip (evictRefuse n c f s)
  | none =>
    if !mine || taken then skip (send { rsp oEvictAck (haAgent n) f.src f.txn f with stale := true } s)
    else
      let p : Split := { g := g, holder := agDie f.src, rel := some (f.src, f.txn), part := f.part, txn := f.txn, sent := true }
      let s := updHome n (fun x => { x with split := x.split ++ [p] }) s
      match map with
      | some m => splitBegin n p (m.data.toNat % 2 ^ 64) s
      | none => s

/-! ### Teardown (Table 5.4) -/

/-- Does a line belong to partition `p`? -/
def lineOfPart (s : State) (p l : Nat) : Bool := slabOwner s (64 * l) = some p

/-- Steps 1 to 3 of the teardown of partition `p` at home `n`: refuse and close its work and poison what it may have held. A requester
other than an agent of p's own dies is told so (R184).
DESIGN CHOICE: the retry-queue entries and reservations of p are those whose requester sent PART p; an entry of another PART for a
line of p keeps its place, and its request meets the DOMAIN_OFF of step 1. -/
def tearHome (n p : Nat) (s : State) : State :=
  let x := home s n
  let gone := x.trk.filter (fun t => decide (t.f.part = p) || lineOfPart s p (lineOf t.f.addr))
  let s := gone.foldl (fun s t => if ownsDie s p (agDie t.f.src) then s
    else logErr { flitErr (frHa n) 0x08 true t.f with part := t.f.part } (homeFault n cDOMAIN_OFF t.f s)) s
  let poisonLines := (x.reg.filter (fun e => e.2.v && e.2.priv && lineOfPart s p (64 * e.2.g))).flatMap (fun e => (List.range 64).map (64 * e.2.g + ·)) ++
    (x.lin.filter (fun e => e.2.v && (e.2.st = .e || e.2.st = .sd) && lineOfPart s p e.2.line)).map (fun e => e.2.line)
  let s := updHome n (fun x => { x with
    tear := x.tear ++ [p]
    off := putBit x.off p true
    rq := x.rq.filter (fun r => r.part ≠ p)
    rsv := x.rsv.filter (fun r => r.part ≠ p)
    trk := x.trk.filter (fun t => !(decide (t.f.part = p) || lineOfPart s p (lineOf t.f.addr)))
    vic := x.vic.filter (fun v => !(lineOfPart s p v.line))
    split := x.split.filter (fun q => !(lineOfPart s p (64 * q.g)))
    maps := x.maps.filter (fun m => m.part ≠ p)
    mapx := x.mapx.filter (fun e => !(ownsDie s p (agDie e.1)))
    reg := x.reg.filter (fun e => !(lineOfPart s p (64 * e.2.g)))
    lin := x.lin.filter (fun e => !(lineOfPart s p e.2.line)) }) s
  let s := { s with memq := s.memq.filter (fun q => q.wr || !(decide (q.ha = n) && lineOfPart s p (lineOf q.pa))) }
  { s with memq := s.memq ++ poisonLines.map (fun l => { ha := n, pa := 64 * l, wr := true, poison := true, tear := some p }) }

end Sys2Proof.Machine
end

