-- ==== Sys2Proof/Machine/MemOps.lean ====
section
/-! DEFINITION. Memory: the bytes of the devices, the slab table's writes, the translation of an address to its location,
the Strata engines, errors and retirement (chapter 8).
Log entries with the choices and readings made here: 5, 6, 53, 55, 62, 125, 126, 175, 200. -/

namespace Sys2Proof.Machine

/-! ### Bytes (R134, R273, R294). A location is `((2 * group + tier) <<< 42) + medium address`, tier 0 HBM, 1 DDR. An
unlisted byte reads zero. -/

/-- What a byte that nothing has written reads as. -/
def memDefault : BitVec 8 := 0
/-- The canonical form of memory: addresses rise strictly and no listed byte is the default. -/
def memWf : Nat → List Host.Cell → Bool
  | _, [] => true
  | b, (a, v) :: t => decide (b ≤ a) && decide (v ≠ memDefault) && memWf (a + 1) t
/-- The memory of a state is in its canonical form. -/
def Memory.wf (m : List Host.Cell) : Bool := memWf 0 m
/-- Read one byte. -/
def rdByte : List Host.Cell → Nat → BitVec 8
  | [], _ => memDefault
  | (a, v) :: t, k => if a = k then v else rdByte t k
/-- List a byte at its place. -/
def putByte : List Host.Cell → Nat → BitVec 8 → List Host.Cell
  | [], k, v => [(k, v)]
  | (a, w) :: t, k, v => if a = k then (k, v) :: t else if k < a then (k, v) :: (a, w) :: t else (a, w) :: putByte t k v
/-- Take a byte out of the list. -/
def dropByte : List Host.Cell → Nat → List Host.Cell
  | [], _ => []
  | (a, w) :: t, k => if a = k then dropByte t k else (a, w) :: dropByte t k
/-- Write one byte, keeping the canonical form: the default is not listed. -/
def wrByte (m : List Host.Cell) (k : Nat) (v : BitVec 8) : List Host.Cell := if v = memDefault then dropByte m k else putByte m k v
/-- Read `n` bytes as a number, little-endian. -/
def rdMem (m : List Host.Cell) (a n : Nat) : Nat := (List.range n).foldl (fun v i => v + (rdByte m (a + i)).toNat * 256 ^ i) 0
/-- Write `n` bytes of a number, little-endian. -/
def wrMem (m : List Host.Cell) (a n v : Nat) : List Host.Cell :=
  (List.range n).foldl (fun m i => wrByte m (a + i) (BitVec.ofNat 8 (v / 256 ^ i))) m
/-- Memory with the bytes of locations from `a` up to `b` cleared. -/
def clearMem (m : List Host.Cell) (a b : Nat) : List Host.Cell := m.filter (fun e => !(decide (a ≤ e.1) && decide (e.1 < b)))

/-- Location key. -/
def locKey (g tier ma : Nat) : Nat := (2 * g + tier) * 2 ^ 42 + ma
/-- Group of a location. -/
def locGrp (k : Nat) : Nat := k / 2 ^ 43
/-- Tier of a location. -/
def locTier (k : Nat) : Nat := k / 2 ^ 42 % 2
/-- Medium address of a location. -/
def locMa (k : Nat) : Nat := k % 2 ^ 42

/-- Does a device hold a location: a usable device slab, a spare page or, for HBM, the reserved area (R266, Table 8.5)? -/
def locOk (s : State) (k : Nat) : Bool :=
  decide (locGrp k < 4) &&
  (if locTier k = 0 then decide (locMa k < 0x900000000) else decide (locMa k < mget s.ddrSlabs (locGrp k) * 2 ^ 30 + 0x200000))

/-- The 64 bytes at a location. -/
def rdLine (s : State) (k : Nat) : Line := BitVec.ofNat 512 (rdMem s.mem k 64)
/-- Store 64 bytes at a location, with or without POISON (R294). -/
def wrLine (k : Nat) (d : Line) (p : Bool) (s : State) : State :=
  { s with mem := wrMem s.mem k 64 d.toNat, poison := mset s.poison (k / 64) p }

/-! ### The slab table (R268 to R274, R585) -/

/-- Is the slab table being updated (R274)? -/
def slabBusy (s : State) : Bool := !s.slabOld.isEmpty

/-- The entries of the set whose first slab is `b`. -/
def setEntries (s : State) (b : Nat) : List Nat := (List.range (2 ^ slLw (slabEnt s b))).map (b + ·)

/-- Does R269 refuse a change of the set at `b`? -/
def setBad (s : State) (b : Nat) : Bool :=
  let e := slabEnt s b
  let es := (setEntries s b).map (slabEnt s)
  slLw e = 3 || decide (b % 2 ^ slLw e ≠ 0) ||
  es.any (fun x => slKind x ≠ slKind e || slTiered x != slTiered e || slLw x ≠ slLw e) ||
  (slKind e ≠ 2 && decide ((es.map slGrp).eraseDups.length ≠ es.length)) ||
  (slKind e = 2 && (slLw e ≠ 0 || slTiered e))

/-- Replace entries; the copies of homes, engines and ports switch in their own time (R274). -/
def slabPut (es : List (Nat × Nat)) (s : State) : State :=
  { s with slab := es.foldl (fun m e => mset m e.1 e.2) s.slab, slabOld := es.map (fun e => (e.1, slabEnt s e.1)), slabSw := [] }

/-- A set takes a STATE and an OWNER (R269); a set made OWNED loses ZEROED (R585). -/
def setCmd (b st owner : Nat) (s : State) : State :=
  if b < 16384 ∧ setBad s b = false then
    slabPut ((setEntries s b).map (fun n =>
      let e := setBits (setBits (slabEnt s n) 0 2 st) 2 4 owner
      (n, if st = slOWNED then putBit e 24 false else e))) s
  else setBit frMem 0x018 1 s

/-- A write of `MEM_SLABENT` (R12, R269): KIND 3 and LW 3 are reserved and leave their fields. -/
def slabEntWrite (n v : Nat) (s : State) : State :=
  let e := slabEnt s n
  if slState e = slOWNED ∨ slState e = slMOVING then setBit frMem 0x018 1 s
  else
    let w := setBits e 8 1 (bits v 8 1)
    let w := setBits w 11 14 (bits v 11 14)
    let w := if bits v 6 2 = 3 then w else setBits w 6 2 (bits v 6 2)
    let w := if bits v 9 2 = 3 then w else setBits w 9 2 (bits v 9 2)
    slabPut [(n, w)] s

/-- A write of the slab registers, which waits while BUSY is 1. `n` is the value, for an entry with its number above. -/
def slabWrite (set : Bool) (v : Nat) (s : State) : State :=
  if slabBusy s then { s with slabWait := s.slabWait ++ [(set, v)] }
  else if set then setCmd (bits v 0 14) (bits v 14 2) (bits v 16 4) s
  else slabEntWrite (v / 2 ^ 64 % 16384) (v % 2 ^ 64) s

/-- Every copy is updated: BUSY falls and the next write that waits is made (R274). -/
def slabDone (s : State) : State :=
  let s := { s with slabOld := [], slabSw := [] }
  match s.slabWait with
  | [] => s
  | w :: t => slabWrite w.1 w.2 { s with slabWait := t }

/-- The column entry of an address. -/
def entOf (s : State) (pa : Nat) : Nat := slabEnt s (colSlab pa (slLw (slabEnt s (slabOf pa))))

/-- Medium address of an address in an HBM or DDR slab (R270). -/
def mediumOf (s : State) (pa : Nat) : Nat :=
  let e0 := slabEnt s (slabOf pa)
  let w := 2 ^ slLw e0
  let base := slabOf pa / w * w
  let r := (pa - base * 2 ^ 30) / 4096
  slDslab (entOf s pa) * 2 ^ 30 + r / w * 4096 + pa % 4096

/-- The slab that names a device slab. -/
def slabOfDev (s : State) (tier g ds : Nat) : Option Nat :=
  (s.slab.find? (fun e => decide (slState e.2 ≠ slVACANT) && decide (slKind e.2 = tier) && decide (slGrp e.2 = g) && decide (slDslab e.2 = ds))).map (·.1)

/-- The system address of a nominal medium address, when a slab names it (the inverse of R270). -/
def paOfMedium (s : State) (g tier ma : Nat) : Option Nat :=
  (slabOfDev s tier g (ma / 2 ^ 30)).map (fun n =>
    let w := 2 ^ slLw (slabEnt s n)
    let base := n / w * w
    let row := ma % 2 ^ 30 / 4096
    let f := (List.range 9).foldl (fun f i => f ^^^ (row / 4 ^ i % 4)) 0
    base * 2 ^ 30 + (row * w + ((n - base) ^^^ f) % w) * 4096 + ma % 4096)

/-! ### Strata tables (R276 to R278) -/

/-- Strata engine of a group. -/
def se (s : State) (g : Nat) : Strata := mget s.strata g
/-- Change a Strata engine. -/
def updSe (g : Nat) (q : Strata → Strata) (s : State) : State := { s with strata := mupd s.strata g q }

/-- Location of a granule's entry: remap table for DDR (tier 1), frame table for HBM (Table 8.5). -/
def entAddr (g tier gran : Nat) : Nat := locKey g 0 ((if tier = 1 then 0x840000000 else 0x848000000) + 4 * gran)
/-- A granule's entry. -/
def granEnt (s : State) (g tier gran : Nat) : Nat := rdMem s.mem (entAddr g tier gran) 4
/-- Write a granule's entry. -/
def setGranEnt (g tier gran v : Nat) (s : State) : State := { s with mem := wrMem s.mem (entAddr g tier gran) 4 v }
/-- SWP bit of an entry: [20] in a remap entry, [25] in a frame entry (Table 8.6). -/
def geSwp (tier e : Nat) : Bool := bit e (if tier = 1 then 20 else 25)
/-- PIN bit. -/
def gePin (tier e : Nat) : Bool := bit e (if tier = 1 then 21 else 26)
/-- Paired granule. -/
def gePair (tier e : Nat) : Nat := if tier = 1 then bits e 0 20 else bits e 0 25
/-- Count of the granule's data. -/
def geCnt (e : Nat) : Nat := bits e 27 5
/-- An entry with its pair, or without one. -/
def gePut (tier e : Nat) (pair : Option Nat) : Nat :=
  let w := if tier = 1 then 20 else 25
  match pair with
  | some p => setBits (setBits e 0 w p) w 1 1
  | none => setBits e 0 (w + 1) 0

/-- Granule of an entry and its tier, from a nominal granule number `2 * granule + tier`. -/
def nomTier (n : Nat) : Nat := n % 2
/-- Granule of a nominal granule number. -/
def nomGran (n : Nat) : Nat := n / 2
/-- Nominal granule number. -/
def nomOf (tier gran : Nat) : Nat := 2 * gran + tier

/-- The place (as a granule number `2 * granule + tier`) where a granule's data lies outside a move (R278). -/
def placeOf (s : State) (g nom : Nat) : Nat :=
  let e := granEnt s g (nomTier nom) (nomGran nom)
  if geSwp (nomTier nom) e then nomOf (1 - nomTier nom) (gePair (nomTier nom) e) else nom
/-- The granule whose data lies in a place: the pairing is symmetric (R277). -/
def dataIn (s : State) (g place : Nat) : Nat := placeOf s g place

/-- The granules whose data a move moves, each with its destination place (Table 8.7). -/
def moveDests (m : Move) : List (Nat × Nat) :=
  match m.kind with
  | .exchange => [(nomOf 1 m.d, nomOf 0 m.f), (nomOf 0 m.f, nomOf 1 m.d)]
  | .rotation => [(nomOf 1 m.d, nomOf 0 m.f), (nomOf 1 m.dy, nomOf 1 m.dy), (nomOf 0 m.f, nomOf 1 m.d)]
  | .restore => [(nomOf 0 m.f, nomOf 0 m.f), (nomOf 1 m.d, nomOf 1 m.d)]

/-- The move of a group that moves a granule's data. -/
def moveOf (s : State) (g nom : Nat) : Option Move := (se s g).moves.find? (fun m => (moveDests m).any (fun e => e.1 = nom))

/-- Apply the retirement map to a location (R298). -/
def retireLoc (s : State) (g tier ma : Nat) : Nat :=
  let i := mget (se s g).retire (tier * 2 ^ 30 + ma / 4096)
  if i = 0 then locKey g tier ma
  else locKey g tier ((if tier = 0 then 0x848400000 else mget s.ddrSlabs g * 2 ^ 30) + (i - 1) * 4096 + ma % 4096)

/-- The location of a place and offset, through the retirement map. -/
def placeLoc (s : State) (g place off : Nat) : Nat := retireLoc s g (nomTier place) (nomGran place * 65536 + off)

/-- The location of a tiered medium address, by the chunk rule while a move runs; `none` when the chunk is under copy
(R278, R285). -/
def tieredLoc (s : State) (g tier ma : Nat) : Option Nat :=
  let nom := nomOf tier (ma / 65536)
  let off := ma % 65536
  match moveOf s g nom with
  | none => some (placeLoc s g (placeOf s g nom) off)
  | some m =>
    if off / 256 < m.ptr then some (placeLoc s g ((((moveDests m).find? (fun e => e.1 = nom)).map (·.2)).getD nom) off)
    else if off / 256 = m.ptr then none
    else some (placeLoc s g (placeOf s g nom) off)

/-- Is an address in tiered memory? -/
def isTiered (s : State) (pa : Nat) : Bool := slTiered (entOf s pa) && decide (slKind (entOf s pa) < 2)

/-- Current location of the byte at an address of HBM or DDR; `none` while its chunk is under copy. -/
def locate (s : State) (pa : Nat) : Option Nat :=
  let e := entOf s pa
  let ma := mediumOf s pa
  if slTiered e then tieredLoc s (slGrp e) (slKind e) ma else some (retireLoc s (slGrp e) (slKind e) ma)

/-! ### The Strata engine's part of an access (R278 to R282, R289) -/

/-- Lines of the cache: frame table lines above 2³⁰. -/
def tblLine (tier gran : Nat) : Nat := (1 - tier) * 2 ^ 30 + gran / 16

/-- An entry's table line is looked up in the cache: a miss is counted and the line enters, in place of one of the engine's
own choice when the cache is full (R279). -/
def tblTouch (g tier gran : Nat) (s : State) : State :=
  let c := (se s g).cache
  let l := tblLine tier gran
  if c.contains l then s
  else
    let s := addWrap (frSe g) 0x118 1 s
    let r := drawNat s
    let c := if 32768 ≤ c.length then c.eraseIdx (r.1 % c.length) else c
    updSe g (fun x => { x with cache := c ++ [l] }) (if 32768 ≤ (se s g).cache.length then r.2 else s)

/-- Agent of a group's Strata engine (Table 7.2). -/
def seAgent (g : Nat) : Nat := agent 12 (0x54 + g)
/-- The partition that owns the slab of a nominal granule, by the engine's copy of the slab table (R267, R274). -/
def granPart (s : State) (g nom : Nat) : Option Nat :=
  (slabOfDev s (nomTier nom) g (nomGran nom / 16384)).bind (fun n =>
    let e := slabSeen s (seAgent g) n
    if slState e = slOWNED then some (slOwner e) else none)

/-- A sample counts an access of a granule's data, and may make the data a candidate when it raises the count (R280, R282). -/
def sampleAcc (g nom : Nat) (s : State) : State :=
  let r := drawNat s
  let s := r.2
  if r.1 % 2 ^ fld s (frSe g) 0 1 3 ≠ 0 then s
  else
    let e := granEnt s g (nomTier nom) (nomGran nom)
    let c := min (geCnt e + 1) 31
    let s := setGranEnt g (nomTier nom) (nomGran nom) (setBits e 27 5 c) s
    let place : Nat := match moveOf s g nom with
      | some m => (((moveDests m).find? (fun x => x.1 = nom)).map (·.2)).getD nom
      | none => placeOf s g nom
    let owned := (granPart s g nom).isSome
    let q := (se s g).pq
    if c = geCnt e ∨ c < fld s (frSe g) 8 0 5 ∨ nomTier place = 0 ∨ gePin (nomTier nom) e = true ∨ owned = false ∨
        q.contains nom = true then s
    else if 32 ≤ q.length then addWrap (frSe g) 0x130 1 s
    else updSe g (fun x => { x with pq := x.pq ++ [nom] }) s

/-- Does a table line of a rebuild cover a granule? -/
def inRebuild (s : State) (g tier gran : Nat) : Bool := (se s g).rebuild.contains (decide (tier = 0), gran / 16)

/-- The Strata engine locates a request: by its tables for a tiered address, and by the retirement map for every address.
`uc` says that the table line read on the way is uncorrectable, which starts its rebuild (R289). -/
def seLocate (q : MemReq) (uc : Bool) (s : State) : MemReq × State :=
  let e := entOf s q.pa
  let g := slGrp e
  if slKind e ≥ 2 then (q, s)
  else if !(slTiered e) then ({ q with loc := locate s q.pa }, s)
  else
    let tier := slKind e
    let gran := mediumOf s q.pa / 65536
    let nom := nomOf tier gran
    if inRebuild s g tier gran then ({ q with held := true }, s)
    else if uc ∧ (se s g).cache.contains (tblLine tier gran) = false then
      ({ q with held := true }, updSe g (fun x => { x with rebuild := x.rebuild ++ [(decide (tier = 0), gran / 16)] }) s)
    else
      let s := if q.cnt then s else sampleAcc g nom (addWrap (frSe g) 0x100 1 (tblTouch g tier gran s))
      match locate s q.pa with
      | none => ({ q with held := true, cnt := true }, if q.cnt then s else addWrap (frSe g) 0x140 1 s)
      | some k => ({ q with loc := some k, held := false, cnt := true }, addWrap (frSe g) (if locTier k = 0 then 0x108 else 0x110) 1 s)

/-- Do two requests name one line? -/
def sameLine (a b : Nat) : Bool := decide (lineOf a = lineOf b)

/-- The first request of a line in the queue that satisfies `p`. -/
def memFirst (s : State) (pa : Nat) (p : MemReq → Bool) : Option MemReq := s.memq.find? (fun q => sameLine q.pa pa && p q)

/-- Replace the first occurrence of a request. -/
def memPutBack (q r : MemReq) (s : State) : State := { s with memq := s.memq.map (fun x => if x = q then r else x) }

/-- The engine locates the first request of a line that it has not located. -/
def seAccess (pa : Nat) (uc : Bool) (s : State) : State :=
  match memFirst s pa (fun q => q.loc.isNone) with
  | none => s
  | some q =>
    let r := seLocate q uc (slabLook (seAgent (slGrp (entOf s q.pa))) s)
    memPutBack q r.1 r.2

/-- Requests held on a chunk or a rebuild are tried again, in arrival order. -/
def seRelease (g : Nat) (s : State) : State :=
  (s.memq.filter (fun q => q.held && decide (slGrp (entOf s q.pa) = g))).foldl (fun s q =>
    let r := seLocate q false s
    memPutBack q r.1 r.2) s

/-! ### Moves (R283 to R288) -/

/-- Pages of a granule under retirement. -/
def granRetiring (retiring : List Nat) (g place : Nat) : Bool :=
  (List.range 16).any (fun i => retiring.contains (locKey g (nomTier place) (nomGran place * 65536 + i * 4096)))

/-- Is a granule's data a victim for a candidate of partition `p` (R283)? -/
def victimOk (s : State) (g p nom : Nat) : Bool :=
  let e := granEnt s g (nomTier nom) (nomGran nom)
  decide (nomTier (placeOf s g nom) = 0) && decide (granPart s g nom = some p) && !(gePin (nomTier nom) e) &&
  decide (geCnt e ≤ fld s (frSe g) 8 5 5) && (moveOf s g nom).isNone

/-- The hand's order of HBM granules of tiered slabs, from its position: at most 4,096. -/
def handList (s : State) (g : Nat) : List Nat :=
  let slabs := (List.range 33).filter (fun ds => match slabOfDev s 0 g ds with
    | some n => slTiered (slabEnt s n)
    | none => false)
  let total := slabs.length * 16384
  let h := (se s g).hand
  (List.range (min total 4096)).map (fun i =>
    let k := (h + i) % (max total 1)
    slabs.getD (k / 16384) 0 * 16384 + k % 16384)

/-- The move that brings a candidate's data into HBM, if a victim qualifies.
DEDUCED from Table 8.6: a rotation moves the data of the granule F too, so F's own PIN must be clear. -/
def findMove (s : State) (g nom : Nat) : Option Move :=
  match granPart s g nom with
  | none => none
  | some p =>
    if nomTier nom = 0 then
      let dz := gePair 0 (granEnt s g 0 (nomGran nom))
      if victimOk s g p (nomOf 1 dz) then some { kind := .restore, d := dz, f := nomGran nom } else none
    else
      ((handList s g).find? (fun f => victimOk s g p (dataIn s g (nomOf 0 f)) && (moveOf s g (nomOf 0 f)).isNone && !(gePin 0 (granEnt s g 0 f)))).map (fun f =>
        let y := dataIn s g (nomOf 0 f)
        if nomTier y = 0 then { kind := .exchange, d := nomGran nom, f := f }
        else { kind := .rotation, d := nomGran nom, f := f, dy := nomGran y })

/-- Advance the hand past a victim, or past every granule examined. -/
def handTo (g : Nat) (m : Option Move) (s : State) : State :=
  let l := handList s g
  updSe g (fun x => { x with hand := x.hand + (match m with
    | some v => l.idxOf v.f + 1
    | none => l.length) }) s

/-- May a move start now: a free place, granules in no move, slabs OWNED, no page under retirement (R287)? -/
def moveOk (s : State) (g : Nat) (m : Move) (retiring : List Nat) : Bool :=
  decide ((se s g).moves.length < fld s (frSe g) 8 26 2 + 1) &&
  (moveDests m).all (fun e => (moveOf s g e.1).isNone && (granPart s g e.1).isSome && !(granRetiring retiring g (placeOf s g e.1)))

/-- Begin a move. -/
def startMove (g : Nat) (m : Move) (s : State) : State := updSe g (fun x => { x with moves := x.moves ++ [m] }) s

/-- The group's engine takes a candidate from its queue (R283, R287). A candidate that no longer lies in a DDR place, that a move takes, or
whose PIN has been set, or whose move may not start, is dropped as one without a victim. DESIGN CHOICE: the specification names no count
for it. -/
def promotion (retiring : List Nat) (g : Nat) (s : State) : State :=
  let s := slabLook (seAgent g) s
  let x := se s g
  let ms := s.tb / 1000000
  let started := if x.ms = ms then x.started else 0
  match x.pq with
  | [] => s
  | nom :: t =>
    if fbit s (frSe g) 0 0 = false ∨ fld s (frSe g) 8 16 10 ≤ started ∨ fld s (frSe g) 8 26 2 + 1 ≤ x.moves.length then s
    else
      let s := updSe g (fun x => { x with pq := t }) s
      let m := if nomTier (placeOf s g nom) = 0 ∨ (moveOf s g nom).isSome = true ∨ gePin (nomTier nom) (granEnt s g (nomTier nom) (nomGran nom)) = true then none else findMove s g nom
      let s := if nomTier nom = 1 then handTo g m s else s
      match m with
      | none => addWrap (frSe g) 0x138 1 s
      | some m => if moveOk s g m retiring then updSe g (fun x => { x with ms := ms, started := started + 1 }) (startMove g m s) else addWrap (frSe g) 0x138 1 s

/-- The move of a group that names a DDR granule. -/
def moveByD (s : State) (g d : Nat) : Option Move := (se s g).moves.find? (fun m => m.d = d)

/-- Copy one chunk of a move: read the chunk of every granule, then write each to its destination (R284). -/
def copyChunk (g : Nat) (m : Move) (s : State) : State :=
  let lines := (moveDests m).flatMap (fun e => (List.range 4).map (fun i =>
    let off := m.ptr * 256 + i * 64
    let src := placeLoc s g (placeOf s g e.1) off
    (placeLoc s g e.2 off, rdLine s src, mget s.poison (src / 64))))
  lines.foldl (fun s l => wrLine l.1 l.2.1 l.2.2 s) s

/-- Is an access that reached the source of a move's chunk still to be performed (R285)? -/
def chunkBusy (s : State) (g : Nat) (m : Move) : Bool :=
  (moveDests m).any (fun e => (List.range 4).any (fun i =>
    let k := placeLoc s g (placeOf s g e.1) (m.ptr * 256 + i * 64)
    s.memq.any (fun q => match q.loc with
      | some l => decide (l / 64 = k / 64)
      | none => false)))

/-- A chunk's copy is done: the pointer advances and accesses held on the chunk are released (R285). -/
def chunkCopy (g d : Nat) (s : State) : State :=
  match moveByD s g d with
  | none => s
  | some m =>
    if 256 ≤ m.ptr ∨ chunkBusy s g m = true then s
    else
      let s := copyChunk g m s
      seRelease g (updSe g (fun x => { x with moves := x.moves.map (fun y => if y = m then { y with ptr := y.ptr + 1 } else y) }) s)

/-- The entries after a move (Table 8.7, R286). -/
def moveEntries (g : Nat) (m : Move) (s : State) : State :=
  let put := fun (tier gran : Nat) (p : Option Nat) (s : State) => setGranEnt g tier gran (gePut tier (granEnt s g tier gran) p) s
  match m.kind with
  | .exchange => put 0 m.f (some m.d) (put 1 m.d (some m.f) s)
  | .rotation => put 0 m.f (some m.d) (put 1 m.d (some m.f) (put 1 m.dy none s))
  | .restore => put 0 m.f none (put 1 m.d none s)

/-- The result of a partition's Strata command. -/
def strDone (p res : Nat) (s : State) : State :=
  setFld (frPmem p) 0x208 1 3 res { s with strCmd := mset s.strCmd p none }

/-- A move has written its last chunk (R286). -/
def moveDone (g d : Nat) (s : State) : State :=
  match moveByD s g d with
  | none => s
  | some m =>
    if m.ptr < 256 then s
    else
      let s := moveEntries g m s
      let s := updSe g (fun x => { x with moves := x.moves.erase m }) s
      let s := addWrap (frSe g) (if m.kind = .rotation then 0x128 else 0x120) 1 s
      let s := match m.cmd with
        | some p => strDone p 0 s
        | none => s
      seRelease g s

/-- A partition's Strata command goes on: it waits for a move of its granule and for a place (R288). -/
def strStep (retiring : List Nat) (p : Nat) (s : State) : State :=
  match mget s.strCmd p with
  | none => s
  | some c =>
    let e := entOf s c.pa
    let g := slGrp e
    let s := slabLook (seAgent g) s
    let v := slabSeen s (seAgent g) (slabOf c.pa)
    let own := decide (c.pa < memTop) && decide (slState v = slOWNED) && decide (slOwner v = p)
    if c.moving then s
    else if !own then strDone p 2 s
    else if !(isTiered s c.pa) then strDone p 1 s
    else
      let tier := slKind e
      let gran := mediumOf s c.pa / 65536
      let nom := nomOf tier gran
      let ge := granEnt s g tier gran
      let begin_ := fun (m : Move) (s : State) =>
        if moveOk s g m retiring then
          startMove g { m with cmd := some p } { s with strCmd := mset s.strCmd p (some { c with moving := true }) }
        else s
      if (moveOf s g nom).isSome then s
      else if c.op = 0 ∨ c.op = 1 then
        strDone p 0 (setGranEnt g tier gran (putBit ge (if tier = 1 then 21 else 26) (decide (c.op = 0))) s)
      else if c.op = 2 then
        if nomTier (placeOf s g nom) = 0 then strDone p 0 s
        else if gePin tier ge then strDone p 4 s
        else match findMove s g nom with
          | none => strDone p 3 (if tier = 1 then handTo g none s else s)
          | some m => begin_ m (if tier = 1 then handTo g (some m) s else s)
      else if geSwp tier ge = false then strDone p 0 s
      else
        let q := gePair tier ge
        if gePin tier ge ∨ gePin (1 - tier) (granEnt s g (1 - tier) q) = true then strDone p 4 s
        else begin_ { kind := .restore, d := if tier = 1 then gran else q, f := if tier = 1 then q else gran } s

/-- A write of `STR_CMD` (R288). -/
def strWrite (retiring : List Nat) (p op pa : Nat) (s : State) : State :=
  if 12 ≤ p ∨ (mget s.strCmd p).isSome = true then s
  else strStep retiring p { s with strCmd := mset s.strCmd p (some { op := op, pa := pa }) }

/-- Halve every count of the group's tiered slabs (R281). -/
def cntDecay (g : Nat) (s : State) : State :=
  let lo := locKey g 0 0x840000000
  let hi := locKey g 0 0x848000000 + 4 * 540672
  s.mem.foldl (fun s c =>
    if lo ≤ c.1 ∧ c.1 < hi ∧ (c.1 - lo) % 4 = 3 then
      let o := c.1 - lo
      let tier := if o < 0x8000000 then 1 else 0
      let gran := if tier = 1 then o / 4 else (o - 0x8000000) / 4
      let t := (slabOfDev s tier g (gran / 16384)).any (fun n => slTiered (slabEnt s n))
      if t then
        let e := granEnt s g tier gran
        setGranEnt g tier gran (setBits e 27 5 (geCnt e / 2)) s
      else s
    else s) s

/-- A rebuild ends: the pairs of the line's entries are found in the other table, counts restart at 0, and an entry whose
partner's line is lost too is recorded as lost (R289). PIN is not in the other table: it is a free value. -/
def rebuildDone (g : Nat) (s : State) : State :=
  match (se s g).rebuild with
  | [] => s
  | (frame, line) :: t =>
    let tier := if frame then 0 else 1
    let s := (List.range 16).foldl (fun s i =>
      let gran := 16 * line + i
      let e := granEnt s g tier gran
      let swp := geSwp tier e
      let q := gePair tier e
      let lost := swp && t.contains (!frame, q / 16)
      let r := drawBool s
      let v := putBit (gePut tier 0 (if swp && !lost then some q else none)) (if tier = 1 then 21 else 26) r.1
      let s := setGranEnt g tier gran v r.2
      if lost then
        let s := setGranEnt g (1 - tier) q (gePut (1 - tier) (granEnt s g (1 - tier) q) none) s
        logErr { frame := frSe g, ty := 0x05, cls := 2, part := ((granPart s g (nomOf tier gran))).getD 15 } s
      else s) s
    let s := logErr { frame := frSe g, ty := 0x04, cls := 0, addr := some (locMa (entAddr g tier (16 * line))) } s
    seRelease g (updSe g (fun x => { x with rebuild := t }) s)

/-- A write of `SE_CTL` (`off` 0) or `SE_POLICY` (R291): a refused field keeps its value, the others take effect (R12), and CFGERR
sets. DESIGN CHOICE: where DEMO_THR would not lie below PROMO_THR, both keep their values, judged as the write gives them. -/
def sePolicyWrite (g off v : Nat) (s : State) : State :=
  let fr := frSe g
  let refused := fun (b : Bool) (s : State) => if b then setBit fr 0x010 30 s else s
  if off = 0 then
    let bad := decide (bits v 8 8 = 0)
    let s := setFld fr 0 0 4 (bits v 0 4) s
    refused bad (if bad then s else setFld fr 0 8 8 (bits v 8 8) s)
  else if off = 8 then
    let bad := decide (bits v 0 5 = 0) || decide (bits v 0 5 ≤ bits v 5 5)
    let s := setFld fr 8 16 12 (bits v 16 12) s
    refused bad (if bad then s else setFld fr 8 0 10 (bits v 0 10) s)
  else s

/-! ### Errors (R271, R272, R293 to R300) -/

/-- Way of a DDR location: XOR of its 3-bit fields from MA[10:8] up (R272). -/
def ddrWay (ma : Nat) : Nat := (List.range 11).foldl (fun v i => v ^^^ (ma / 2 ^ (8 + 3 * i) % 8)) 0
/-- Pseudo-channel of an HBM location (R271). -/
def hbmPc (ma : Nat) : Nat :=
  (List.range 5).foldl (fun v i => v ^^^ (ma / 2 ^ (8 + 5 * i) % 32)) (ma / 2 ^ 33 % 4)
/-- Frame of the controller of a location. -/
def frCtl (k : Nat) : Nat := if locTier k = 0 then frHc (locGrp k) else frDc (4 * locGrp k + ddrWay (locMa k) / 2)

/-- The system address whose data lies at a location, when there is one. -/
def paOfLoc (s : State) (k : Nat) : Option Nat :=
  let g := locGrp k
  let tier := locTier k
  let ma := locMa k
  let spares : Nat := if tier = 0 then 0x848400000 else mget s.ddrSlabs g * 2 ^ 30
  let page : Option (Nat × Nat) := (se s g).retire.find? (fun e => decide (e.1 / 2 ^ 30 = tier) && decide (spares + (e.2 - 1) * 4096 = ma / 4096 * 4096))
  let ma : Nat := match page with
    | some e => e.1 % 2 ^ 30 * 4096 + ma % 4096
    | none => ma
  let nom := nomOf tier (ma / 65536)
  let t := (slabOfDev s tier g (ma / 2 ^ 30)).any (fun n => slTiered (slabEnt s n))
  if t then
    let q := dataIn s g nom
    paOfMedium s g (nomTier q) (nomGran q * 65536 + ma % 65536)
  else paOfMedium s g tier ma

/-- An error record of a controller for a location: ADDR is the system address, PART the slab's owner (R582). -/
def memErr (s : State) (k ty cls : Nat) : Err :=
  let pa := paOfLoc s k
  { frame := frCtl k, ty := ty, cls := cls, addr := some (pa.getD (locMa k)), part := ((pa.bind (slabOwner s)).getD 15) }

/-- A DDR controller counts a corrected error in its row: the CETHR-th of a row within 24 hours queues the row (R297). -/
def rowNote (k : Nat) (s : State) : State :=
  if locTier k = 0 then s
  else
    let row := Config.dramRow (k / 256)
    let ts := (mget s.rowCe row).filter (fun t => decide (s.tb ≤ t + 86400000000000)) ++ [s.tb]
    if fld s frMem 0x020 8 8 ≤ ts.length then
      logErr (memErr s k 0x08 0) { s with rowCe := mset s.rowCe row [], pprq := if s.pprq.contains row then s.pprq else s.pprq ++ [row] }
    else { s with rowCe := mset s.rowCe row ts }

/-- A correctable or uncorrectable error is found in a line as it is read: by a home's request or by the scrub. -/
def cellError (k : Nat) (err : CellErr) (scrub : Bool) (s : State) : State :=
  match err with
  | .none => s
  | .ce => rowNote k (count (frCtl k) 5 1 (logErr (memErr s k 0x01 0) s))
  | .uc => logErr (memErr s k (if scrub then 0x03 else 0x02) 1) { s with poison := mset s.poison (k / 64) true }

/-! ### Injection (R525, R526, Table 15.7) -/

/-- Change the fault service's own state. -/
def updFlt (g : FltState → FltState) (s : State) : State := { s with flt := g s.flt }

/-- Is a write of the armed target eligible now: DELAY fabric cycles of 0.5 ns have passed since it was armed? -/
def injDue (s : State) (f : Nat) : Bool :=
  fbit s f 0x530 16 && decide (fld s f 0x530 32 16 ≤ 2 * (s.tb - mget s.flt.injAt f))

/-- Damage at a line of a frame. -/
def damageAt (s : State) (f line : Nat) : Option (Nat × Nat × Nat × Nat) := s.flt.damage.find? (fun e => decide (e.1 = f) && decide (e.2.2.1 = line))
/-- The damage at a line is gone. -/
def damageEnd (f line : Nat) (s : State) : State := updFlt (fun x => { x with damage := x.damage.filter (fun e => !(decide (e.1 = f) && decide (e.2.2.1 = line))) }) s

/-- An eligible write of the target: the block inverts the check bits. -/
def injHit (f line : Nat) (s : State) : State :=
  let s := damageEnd f line s
  if injDue s f then
    let e := (f, fld s f 0x530 0 7, line, popcount 8 (fld s f 0x530 8 8))
    let s := updFlt (fun x => { x with damage := x.damage ++ [e] }) s
    if fbit s f 0x530 17 then s else clrBit f 0x530 16 s
  else s

/-- A controller writes a line: an injection may invert its check bits, when the line lies on the pseudo-channel or subchannel
that SEL names (Table 15.7). -/
def memHit (k : Nat) (s : State) : State :=
  let f := frCtl k
  let here := if locTier k = 0 then decide (fld s f 0x530 0 5 = hbmPc (locMa k)) else decide (fld s f 0x530 0 1 = ddrWay (locMa k) % 2)
  if here then injHit f (k / 64) s else damageEnd f (k / 64) s

/-- What a controller finds as it reads a line: nature's error, or an injected one. -/
def cellFound (s : State) (k : Nat) (err : CellErr) : CellErr :=
  match err, damageAt s (frCtl k) (k / 64) with
  | .uc, _ => .uc
  | e, none => e
  | e, some d => if d.2.2.2 = 1 then (if e = .none then .ce else e) else .uc

/-- The scrub reads a line (R295). -/
def scrubRead (g tier ma : Nat) (err : CellErr) (s : State) : State :=
  let k := locKey g tier (ma / 64 * 64)
  if 4 ≤ g ∨ 2 ≤ tier ∨ locOk s k = false then s else cellError k (cellFound s k err) true (damageEnd (frCtl k) (k / 64) s)

/-- A channel fails at run time: one UCD record for each partition that owns a slab in the group; a group whose DDR channel
failed is out of reach (R268, R300). -/
def channelFail (ddr : Bool) (n : Nat) (s : State) : State :=
  let g := if ddr then n / 4 else n
  let fr := if ddr then frDc n else frHc n
  let owners := ((s.slab.filter (fun e => decide (slState e.2 = slOWNED) && decide (slGrp e.2 = g) && decide (slKind e.2 < 2))).map (fun e => slOwner e.2)).eraseDups
  let s := if ddr then { s with ddrOff := mset s.ddrOff g true } else s
  if 4 ≤ g then s else owners.foldl (fun s p => logErr { frame := fr, ty := 0x09, cls := 2, part := p } s) s

/-- The location at which a request is performed, if it can be now. -/
def reqLoc (q : MemReq) (s : State) : Option (Nat × State) :=
  match q.loc with
  | some k => some (k, s)
  | none =>
    let r := seLocate q false s
    match r.1.loc with
    | some k => some (k, memPutBack q r.1 r.2)
    | none => none

end Sys2Proof.Machine
end

