-- ==== Sys2Proof/Machine/MemServe.lean ====
section
/-! DEFINITION. How a memory controller, or a root port for its CXL.mem device, answers the requests of the homes (R273,
R294 to R297, R342).
Log entries with the choices and readings made here: 59, 62. -/

namespace Sys2Proof.Machine

/-- The tracker that a request serves. -/
def reqTrk (q : MemReq) (s : State) : Option Trk := q.trk.bind (fun id => (home s q.ha).trk.find? (fun t => t.id = id))

/-- One access of a transaction is done. -/
def trkWr (q : MemReq) (s : State) : State :=
  match reqTrk q s with
  | none => s
  | some t =>
    let t := { t with wr := t.wr - 1 }
    endIfDone q.ha t (updTrk q.ha t.id (fun _ => t) s)

/-- A read answers with the line: its data flit goes to the requester (R149). -/
def memReadDone (q : MemReq) (d : Line) (p : Bool) (s : State) : State :=
  let s := { s with memq := s.memq.erase q }
  let s := send { q.rsp with data := d, poison := p } s
  match reqTrk q s with
  | some t => homeRun q.ha (if t.ph = .mem then trkWr q s else s)
  | none => s

/-- A write is accepted (R273): the acknowledgements that waited for it go out. -/
def memWriteDone (q : MemReq) (s : State) : State :=
  let s := sendAll q.acks { s with memq := s.memq.erase q }
  let s := trkWr q s
  let s := match q.vic.bind (fun id => (home s q.ha).vic.find? (fun v => v.id = id)) with
    | some v =>
      let v := { v with wr := v.wr - 1 }
      let s := updHome q.ha (fun x => { x with vic := x.vic.map (fun y => if y.id = v.id then v else y) }) s
      if vicDone v then vicFinish q.ha v s else s
    | none => s
  homeRun q.ha s

/-- Root port that serves a line of CXL memory, when the line's slab is a CXL one (R306, R342, Table 8.3). -/
def cxlPort (s : State) (pa : Nat) : Option Nat :=
  let e := slabEnt s (slabOf pa)
  if slState e ≠ slVACANT ∧ slKind e = 2 then some (slDslab e % 16) else none

/-- The controller reads the line of the oldest request for it that it can perform (R273, R296). -/
def memRead (pa : Nat) (err : CellErr) (s : State) : Out :=
  match memFirst s pa (fun _ => true) with
  | none => done s
  | some q =>
    if q.wr ∨ (cxlPort s pa).isSome = true then done s
    else match reqLoc q s with
      | none => done (seAccess pa false s)
      | some (k, s) =>
        if locOk s k = false then .fault .noCell
        else
          let s := cellError k (cellFound s k err) false (damageEnd (frCtl k) (k / 64) s)
          match memFirst s pa (fun _ => true) with
          | some q => done (memReadDone q (rdLine s k) (mget s.poison (k / 64)) (count (frCtl k) 0 1 s))
          | none => done s

/-- The controller accepts the write of the oldest request for a line (R273, R294). -/
def memWrite (pa : Nat) (s : State) : Out :=
  match memFirst s pa (fun _ => true) with
  | none => done s
  | some q =>
    if q.wr = false ∨ (cxlPort s pa).isSome = true then done s
    else match reqLoc q s with
      | none => done (seAccess pa false s)
      | some (k, s) =>
        if locOk s k = false then .fault .noCell
        else
          match memFirst s pa (fun _ => true) with
          | some q => done (memWriteDone q (memHit k (wrLine k q.data q.poison (count (frCtl k) 1 1 s))))
          | none => done s

end Sys2Proof.Machine
end

