-- ==== Sys2Proof/Machine/SliceOps.lean ====
section
/-! DEFINITION. The shared operations of a die-directory slice: its directory, L3 and region table, how it resolves a
request of an L2, how it answers a snoop, and how it gives lines and regions up (chapter 3, and chapters 4 and 5 with
the slice in the place of the home toward its L2s, R101).
Log entries with the choices and readings made here: 15, 17, 20, 27, 162, 195. -/

namespace Sys2Proof.Machine

/-! ### Lookups -/

/-- The directory way that holds a line's entry. -/
def dirKey (c : Slice) (l : Nat) : Option Nat :=
  ((List.range 12).map (12 * dirSet l + ·)).find? (fun k => (mget c.dir k).v && decide ((mget c.dir k).line = l))
/-- A line's directory entry. -/
def dirFind (c : Slice) (l : Nat) : Option DirEnt := (dirKey c l).map (mget c.dir)
/-- The L3 way that holds a line. -/
def l3Key (c : Slice) (l : Nat) : Option Nat :=
  ((List.range 12).map (12 * dirSet l + ·)).find? (fun k => (mget c.l3 k).v && decide ((mget c.l3 k).line = l))
/-- A line's L3 entry. -/
def l3Find (c : Slice) (l : Nat) : Option L3Ent := (l3Key c l).map (mget c.l3)
/-- The region-table way of a region the die holds. -/
def rgnKey (c : Slice) (g : Nat) : Option Nat :=
  ((List.range 8).map (8 * dieRset g + ·)).find? (fun k => (mget c.rgn k).v && decide ((mget c.rgn k).g = g))
/-- Does the die hold a region? -/
def rgnHeld (c : Slice) (g : Nat) : Bool := (rgnKey c g).isSome
/-- The die's permission for a line (R98). -/
def dperm (c : Slice) (l : Nat) : St :=
  match dirFind c l with
  | some e => e.dperm
  | none => match l3Find c l with
    | some e => e.dperm
    | none => if rgnHeld c (lineRegion l) then .r else .i

/-- Change the transaction with tag `id`. -/
def updTx (d k id : Nat) (g : Tx → Tx) (s : State) : State :=
  updSlice d k (fun c => { c with tx := c.tx.map (fun t => if t.id = id then g t else t) }) s
/-- Change a line's directory entry. -/
def updDir (d k l : Nat) (g : DirEnt → DirEnt) (s : State) : State :=
  updSlice d k (fun c => match dirKey c l with
    | some key => { c with dir := mupd c.dir key g }
    | none => c) s
/-- Does an open transaction name the line, as its own or as its directory victim (R99)? -/
def lineOpen (c : Slice) (l : Nat) : Bool :=
  c.tx.any (fun t => (decide (lineOf t.f.addr = l) && t.ph ≠ .wait) || (t.ph = .victim && decide (t.vline = l)))

/-! ### Off-die requests -/

/-- A request of the slice to the home of a line; a closed gate holds it at its source (Table 7.7). -/
def sendUp (d : Nat) (f : Flit) (s : State) : State :=
  if (die s d).gate then updDie d (fun x => { x with gateq := x.gateq ++ [f] }) s else send f s

/-- A request flit of slice `k` of die `d` to the home of line `l`. -/
def upFlit (s : State) (d k l op txn : Nat) : Flit :=
  { net := .req, op := op, src := sliceAgent d k, dst := haAgent (homeOf (lineRegion l)), txn := txn, part := diePart s d,
    addr := 64 * l, datadst := sliceAgent d k, datatxn := txn }

/-- Lowest write-back or release tag from 32 that is free. -/
def upTag (c : Slice) : Nat :=
  ((List.range 2000).find? (fun i => c.wb.all (fun e => e.txn ≠ 32 + i) && c.rel.all (fun e => e.txn ≠ 32 + i))).getD 0 + 32

/-- The data that a CboClean of the slice still keeps for a line (R94). -/
def wbClean (c : Slice) (l : Nat) : Option WbEnt := c.wb.find? (fun e => decide (e.line = l) && e.clean && !e.gone)
/-- The L3's copy of a line, or the dirty data that left the L3 under R94 and that the home has not taken yet. -/
def l3OrWb (c : Slice) (l : Nat) : Option L3Ent :=
  match l3Find c l with
  | some e => some e
  | none => (wbClean c l).map (fun e => { v := true, line := l, data := e.data, dirty := true, poison := e.poison })

/-- Announce to the home that the die gives a line up (R94, R141). -/
def giveUp (d k l : Nat) (dirty : Bool) (st : St) (data : Line) (poison : Bool) (s : State) : State :=
  let c := slice s d k
  let t := upTag c
  let s := updSlice d k (fun c => { c with
    wb := c.wb ++ [{ txn := t, line := l, st := if dirty then (if st = .sd then .sd else .m) else st, data := data, poison := poison }] }) s
  sendUp d { upFlit s d k l (if dirty then oWrBackDirty else oEvictClean) t with data := data, poison := poison } s

/-! ### The L3 (R90 to R95, R106 to R109) -/

/-- Lock entry `n` of a die, when enabled: ways, first and last region. -/
def lockEnt (s : State) (d n : Nat) : Option (Nat × Nat × Nat) :=
  if fbit s (frDie d) (0x110 + 0x20 * n) 16 then
    some (fld s (frDie d) (0x110 + 0x20 * n) 0 12, fld s (frDie d) (0x100 + 0x20 * n) 12 40, fld s (frDie d) (0x108 + 0x20 * n) 12 40)
  else none

/-- The lock entry whose range holds a line. -/
def lockOf (s : State) (d l : Nat) : Option Nat :=
  (List.range 4).find? (fun n => match lockEnt s d n with
    | some (_, b, e) => decide (b ≤ lineRegion l) && decide (lineRegion l ≤ e)
    | none => false)

/-- The enabled lock entry that locks a way (R106). -/
def lockedBy (s : State) (d w : Nat) : Option Nat :=
  (List.range 4).find? (fun n => match lockEnt s d n with
    | some (m, _, _) => bit m w
    | none => false)

/-- The ways of the L3 in which a line may be allocated (R95, R109); the locked ways open when the sweep has ended (R108). -/
def l3Ways (s : State) (d l : Nat) : List Nat :=
  let hidden := fld s (frDie d) 0x180 16 4
  let vis := (List.range 12).filter (fun w => !(bit hidden (w / 3)))
  match lockOf s d l with
  | some n => if (die s d).sweep.contains n then [] else vis.filter (fun w => bit (((lockEnt s d n).getD (0, 0, 0)).1) w)
  | none => vis.filter (fun w => (List.range 4).all (fun n => match lockEnt s d n with
      | some (m, _, _) => !(bit m w)
      | none => true))

/-- Remove an L3 line as R94 says. -/
def l3Evict (d k key : Nat) (s : State) : State :=
  let c := slice s d k
  let e := mget c.l3 key
  if !e.v then s
  else
    let s := updSlice d k (fun c => { c with l3 := mdel c.l3 key }) s
    match dirFind c e.line with
    | some _ =>
      if !e.dirty then s
      else
        let t := upTag c
        let s := updSlice d k (fun c => { c with
          wb := c.wb ++ [{ txn := t, line := e.line, st := .m, data := e.data, poison := e.poison, clean := true }] }) s
        sendUp d (upFlit s d k e.line oCboClean t) s
    | none => giveUp d k e.line e.dirty e.dperm e.data e.poison s

/-- The way a line enters: an empty eligible way, else the lowest eligible way of age 3, ages rising until one has it
(R93). The second component is the set with its ages raised. -/
def l3Pick (set : Nat) (ways : List Nat) (m : Map L3Ent) : Nat → Option (Nat × Map L3Ent)
  | 0 => none
  | n + 1 =>
    match ways.find? (fun w => !(mget m (12 * set + w)).v) with
    | some w => some (w, m)
    | none => match ways.find? (fun w => decide (3 ≤ (mget m (12 * set + w)).age)) with
      | some w => some (w, m)
      | none => l3Pick set ways (ways.foldl (fun m w => mupd m (12 * set + w) (fun e => { e with age := e.age + 1 })) m) n

/-- Allocate a line in the L3 with the die's permission, or give it up when no way is eligible (R91, R93, R94). -/
def l3Alloc (d k l : Nat) (data : Line) (dirty poison : Bool) (dp : St) (s : State) : State :=
  let c := slice s d k
  match l3Key c l with
  | some key => updSlice d k (fun c => { c with l3 := mupd c.l3 key (fun e =>
      { e with data := data, dirty := dirty || e.dirty, poison := poison, dperm := dp, age := 0 }) }) s
  | none =>
    let ways := l3Ways s d l
    match l3Pick (dirSet l) ways c.l3 5 with
    | none =>
      if (dirFind c l).isSome then
        if dirty then
          let t := upTag c
          sendUp d (upFlit s d k l oCboClean t) (updSlice d k (fun c => { c with
            wb := c.wb ++ [{ txn := t, line := l, st := .m, data := data, poison := poison, clean := true }] }) s)
        else s
      else giveUp d k l dirty dp data poison s
    | some (w, m) =>
      let key := 12 * dirSet l + w
      let s := updSlice d k (fun c => { c with l3 := m }) s
      let s := l3Evict d k key s
      let e : L3Ent := { v := true, line := l, data := data, dirty := dirty, poison := poison, dperm := dp, age := 2 }
      updSlice d k (fun c => { c with l3 := mset c.l3 key e }) s

/-- The L3 gives a line up to an L2 that takes ownership (R92); data kept for a CboClean of the slice is stale from then. -/
def l3Drop (d k l : Nat) (s : State) : State :=
  updSlice d k (fun c =>
    let c := { c with wb := c.wb.map (fun e => if e.line = l ∧ e.clean = true then { e with gone := true } else e) }
    match l3Key c l with
    | some key => { c with l3 := mdel c.l3 key }
    | none => c) s

/-! ### The directory (R96 to R99, R581) -/

/-- After a change: an entry with no L2 in PRES and no open transaction goes; the permission moves to the L3 tag, and the
die gives up a line it neither caches nor holds by a region (R97, R98). -/
def dirSettle (d k l : Nat) (s : State) : State :=
  let c := slice s d k
  match dirKey c l with
  | none => s
  | some key =>
    let e := mget c.dir key
    if e.pres ≠ 0 ∨ lineOpen c l = true then s
    else
      let s := updSlice d k (fun c => { c with
        dir := mdel c.dir key
        l3 := match l3Key c l with
          | some q => mupd c.l3 q (fun x => { x with dperm := e.dperm })
          | none => c.l3 }) s
      if e.dperm = .i then l3Drop d k l s
      else if (l3Key c l).isSome then s
      else giveUp d k l false e.dperm 0 false s

/-- The ways of a set whose entry a new line may take: an empty way, else the victim of R99. -/
def dirWay (c : Slice) (l : Nat) : Option (Nat × Bool) :=
  let keys := (List.range 12).map (12 * dirSet l + ·)
  match keys.find? (fun q => !(mget c.dir q).v) with
  | some q => some (q, false)
  | none =>
    let cand := keys.filter (fun q => !(mget c.dir q).opn && !(lineOpen c (mget c.dir q).line))
    let better := fun (a b : Nat) =>
      let x := mget c.dir a
      let y := mget c.dir b
      let px := popcount 48 x.pres
      let py := popcount 48 y.pres
      decide (px < py) || (decide (px = py) && decide (y.age < x.age))
    match cand with
    | [] => none
    | q :: t => some (t.foldl (fun b a => if better a b then a else b) q, true)

/-- Allocate a directory entry: it enters with AGE 0 and the others of its set grow older (R581). -/
def dirAlloc (d k key l : Nat) (dp : St) (s : State) : State :=
  updSlice d k (fun c =>
    let m := ((List.range 12).map (12 * dirSet l + ·)).foldl (fun m q =>
      let e := mget m q
      if q ≠ key ∧ e.v ∧ e.opn = false ∧ e.age < 3 then mset m q { e with age := e.age + 1 } else m) c.dir
    { c with dir := mset m key { v := true, line := l, dperm := dp, opn := true } }) s

/-! ### Snoops to the die's L2s -/

/-- A snoop of slice `k` to core `u` of its die. -/
def l2Snp (s : State) (d k u l op tag : Nat) (fwd ftxn : Nat) (fcomp : Bool) : Flit :=
  { net := .snp, op := op, src := sliceAgent d k, dst := agent d u, txn := tag, part := diePart s d, addr := 64 * l,
    fwd := fwd, ftxn := ftxn, fcomp := fcomp }

/-- The cores that hold a line. -/
def holders (c : Slice) (l : Nat) : List Nat := onesOf 48 (((dirFind c l).map (·.pres)).getD 0)
/-- Does a request fill the requester's L2? -/
def fills (op : Nat) : Bool := op = oRdShared || op = oRdOwn || op = oUpgrade || op = oClaimOwn
/-- Is the line on its way to core `u`: a fill that the directory lists beforehand (R97)? -/
def filling (c : Slice) (l u : Nat) : Bool :=
  c.tx.any (fun t => decide (lineOf t.f.addr = l) && decide (agUnit t.f.src = u) && t.ph ≠ .wait && fills t.f.op && !t.listed)
/-- The cores whose L2 has a line: those listed, but for the ones that only wait for it. -/
def heldBy (c : Slice) (l : Nat) : List Nat :=
  (holders c l).filter (fun u => c.tx.all (fun t => !(decide (lineOf t.f.addr = l) && decide (agUnit t.f.src = u) && t.ph ≠ .wait && !t.held && !t.listed)))
/-- Does the die hold a line's data: in an L2 or in the L3? -/
def lineHeld (c : Slice) (l : Nat) : Bool := !(heldBy c l).isEmpty || (l3Key c l).isSome
/-- The cores that `p` names have lost their copies: an open Upgrade of theirs finds none (R162). -/
def copyLost (l : Nat) (p : Nat → Bool) (c : Slice) : Slice :=
  { c with tx := c.tx.map (fun t => if lineOf t.f.addr = l ∧ t.ph ≠ .wait ∧ p (agUnit t.f.src) = true then { t with held := false } else t) }
/-- The owner of a line among the die's L2s (R117). -/
def ownerOf (c : Slice) (l : Nat) : Option Nat :=
  match dirFind c l with
  | some e => if e.owner = 0x3F then none else some e.owner
  | none => none

/-! ### Regions of the die (R102, R103, R126, R130) -/

/-- The lines of a region whose data the die holds, as a map (Table 4.4 step 3). -/
def rgnMapOf (c : Slice) (g : Nat) : Nat :=
  (List.range 64).foldl (fun m i =>
    if lineHeld c (64 * g + i) then m + 2 ^ i else m) 0

/-- Every held line of a region takes exclusive line permission (R103, Table 4.4 step 2); a line that an L2 still waits for takes it
as it arrives (R127). -/
def rgnToLines (g : Nat) (c : Slice) : Slice :=
  { c with
    dir := c.dir.map (fun e => if e.2.v ∧ lineRegion e.2.line = g ∧ e.2.dperm = .r then (e.1, { e.2 with dperm := if lineHeld c e.2.line then .e else .i }) else e)
    l3 := c.l3.map (fun e => if e.2.v ∧ lineRegion e.2.line = g ∧ e.2.dperm = .r then (e.1, { e.2 with dperm := .e }) else e) }

/-- Release a region to the home: RgnRel, and RgnMap with the lines still held (R130). -/
def rgnRelease (d k key : Nat) (s : State) : State :=
  let c := slice s d k
  let g := (mget c.rgn key).g
  let m := rgnMapOf c g
  let t := upTag c
  let s := updSlice d k (fun c => { rgnToLines g c with rgn := mdel c.rgn key, rel := c.rel ++ [{ txn := t, g := g, map := m }] }) s
  sendUp d { upFlit s d k (64 * g) oRgnRel t with data := BitVec.ofNat 512 m } s

/-- Ways of the region's set: hold one for a grant, or make room for later requests (R103, R126). Returns whether a way
is held now. -/
def rgnHold (d k g : Nat) (s : State) : Bool × State :=
  let c := slice s d k
  let keys := (List.range 8).map (8 * dieRset g + ·)
  if keys.any (fun q => (mget c.rgn q).held && decide ((mget c.rgn q).g = g)) then (false, s)
  else match keys.find? (fun q => !(mget c.rgn q).v && !(mget c.rgn q).held) with
    | some q => (true, updSlice d k (fun c => { c with rgn := mset c.rgn q { v := false, held := true, g := g } }) s)
    | none =>
      let cand := keys.filter (fun q => (mget c.rgn q).v && !(c.tx.any (fun t => decide (lineRegion (lineOf t.f.addr) = (mget c.rgn q).g))))
      match cand with
      | [] => (false, s)
      | q :: t => (false, rgnRelease d k (t.foldl (fun b a => if (mget c.rgn a).stamp < (mget c.rgn b).stamp then a else b) q) s)

/-- The held way becomes the region's entry, or is freed (R126). -/
def rgnAnswer (g : Nat) (granted : Bool) (c : Slice) : Slice :=
  match ((List.range 8).map (8 * dieRset g + ·)).find? (fun q => (mget c.rgn q).held && decide ((mget c.rgn q).g = g)) with
  | none => c
  | some q =>
    if granted && !(rgnHeld c g) then
      { c with rgn := mset c.rgn q { v := true, held := false, g := g, stamp := c.stamp + 1 }, stamp := c.stamp + 1 }
    else { c with rgn := mdel c.rgn q }

/-- A request is resolved through a region's entry: it was used last (R103). -/
def rgnUse (g : Nat) (c : Slice) : Slice :=
  match rgnKey c g with
  | some q => { c with rgn := mupd c.rgn q (fun e => { e with stamp := c.stamp + 1 }), stamp := c.stamp + 1 }
  | none => c

/-! ### Requests (R104, R105) -/

/-- The slice itself sends data to the requester, completing its request. -/
def supply (d k : Nat) (t : Tx) (st : St) (data : Line) (poison : Bool) (s : State) : State :=
  let s := send { dat oData (sliceAgent d k) t.f.src t.f.txn t.f data poison with st := st, comp := true } s
  updTx d k t.id (fun t => { t with ph := .ack }) s

/-- The slice grants without data. -/
def grant (d k : Nat) (t : Tx) (st : St) (s : State) : State :=
  updTx d k t.id (fun t => { t with ph := .ack })
    (send { rsp oComp (sliceAgent d k) t.f.src t.f.txn t.f with st := st } s)

/-- The slice's CompAck to the home: the state installed, and RGN (R139). -/
def ackHome (d k l id : Nat) (st : St) (rgn : Bool) (s : State) : State :=
  send { net := .rsp, op := oCompAck, src := sliceAgent d k, dst := haAgent (homeOf (lineRegion l)), txn := id, part := diePart s d, addr := 64 * l, st := st, rgn := rgn } s

/-- Send the request on to the home: `self` has the answer come to the slice. A grant that the slice has already from the home is
acknowledged first, so that a read of the line does not wait behind it. -/
def goUp (d k : Nat) (t : Tx) (op : Nat) (self : Bool) (s : State) : State :=
  let l := lineOf t.f.addr
  let early := t.got && t.self
  let s := if early then updDir d k l (fun e => { e with dperm := .e }) (ackHome d k l t.id .e false s) else s
  let ok := op = oRdShared || op = oRdOwn || op = oClaimOwn
  let r := if ok then rgnHold d k (lineRegion l) s else (false, s)
  let s := r.2
  let f := upFlit s d k l op t.id
  let f := { f with rgnok := r.1, datadst := if self then f.src else t.f.src, datatxn := if self then t.id else t.f.txn, data := t.f.data, poison := t.f.poison }
  sendUp d f (updTx d k t.id (fun t => { t with ph := if self then .home else .ack, up := op, self := self, got := t.got && !early, rgnWay := t.rgnWay || r.1 }) s)

/-- Snoop the die's own L2s for a request: `us` with their opcodes; the owner among them forwards. -/
def snoopL2s (d k : Nat) (t : Tx) (us : List (Nat × Nat)) (s : State) : State :=
  let fc := decide (us.length = 1)
  let s := us.foldl (fun s u => send (l2Snp s d k u.1 (lineOf t.f.addr) u.2 t.id t.f.src t.f.txn fc) s) s
  updTx d k t.id (fun t => { t with ph := .snoop, pend := us.map (·.1), snooped := t.snooped ++ us.map (·.1), fwd := false, fcomp := fc }) s

/-- Does the request ask for ownership? -/
def wantsOwn (op : Nat) : Bool := op = oRdOwn || op = oUpgrade || op = oClaimOwn

/-- Resolve a request whose snoops, if any, are answered: from data the slice has, from the L3, or from the home (R92,
R105). -/
def resolve (d k : Nat) (t : Tx) (s : State) : State :=
  let c := slice s d k
  let l := lineOf t.f.addr
  let me := agUnit t.f.src
  let others := (holders c l).filter (· ≠ me)
  let dp := if t.got then St.e else dperm c l
  let noData := t.f.op = oClaimOwn || (t.f.op = oUpgrade && t.held && !t.hasData)
  if wantsOwn t.f.op then
    if noData then
      let dirty := t.dirty || (((l3Find c l).map (·.dirty)).getD false)
      let s := l3Drop d k l s
      grant d k t (if dirty && t.f.op = oUpgrade then .m else .e) s
    else if t.hasData then supply d k t (if t.dirty then .m else .e) t.data t.poison (l3Drop d k l s)
    else match l3Find c l with
      | some e => supply d k t (if e.dirty then .m else .e) e.data e.poison (l3Drop d k l s)
      | none =>
        if dp = .r then goUp d k t oRdRgn false s else goUp d k t oRdOnce true s
  else if t.hasData then
    supply d k t (if (dp = .e ∨ dp = .r) ∧ others.isEmpty then (if t.dirty then .m else .e) else .s) t.data t.poison s
  else match l3Find c l with
    | some e =>
      let s := updSlice d k (fun c => { c with l3 := match l3Key c l with
        | some q => mupd c.l3 q (fun x => { x with age := 0 })
        | none => c.l3 }) s
      supply d k t (if !e.dirty && others.isEmpty && (dp = .e || dp = .r) then .e else .s) e.data e.poison s
    | none => if dp = .r then goUp d k t oRdRgn (!others.isEmpty) s else goUp d k t oRdOnce true s

/-- Judge a request on the die's permission (Table 3.5). -/
def judge (d k : Nat) (t : Tx) (s : State) : State :=
  let c := slice s d k
  let l := lineOf t.f.addr
  let me := agUnit t.f.src
  let hs := (holders c l).filter (· ≠ me)
  let own := (ownerOf c l).filter (· ≠ me)
  let dp := if t.got then St.e else dperm c l
  let excl := dp = .e || dp = .r
  let s := updSlice d k (rgnUse (lineRegion l)) s
  if dp = .i then
    goUp d k t (if t.f.op = oUpgrade then oRdOwn else t.f.op) false s
  else if t.f.op = oRdShared then
    match own with
    | some u => snoopL2s d k t [(u, oSnpShared)] s
    | none => resolve d k t s
  else if excl then
    let data := t.f.op = oRdOwn || (t.f.op = oUpgrade && !t.held)
    let us := hs.map (fun u => (u, if own = some u ∧ data ∧ t.hasData = false then oSnpOwn else oSnpInv))
    let sd := own.isSome && !data || decide (ownerOf c l = some me)
    let s := updTx d k t.id (fun t => { t with dirty := t.dirty || sd }) s
    let t := { t with dirty := t.dirty || sd }
    if us.isEmpty then resolve d k t s else snoopL2s d k t us s
  else
    let needs := t.f.op = oRdOwn || (t.f.op = oUpgrade && !t.held)
    let op := if needs && own.isNone && (l3OrWb c l).isNone then oRdOwn else oUpgrade
    goUp d k t op (!hs.isEmpty || (l3OrWb c l).isSome || (op = oUpgrade && needs)) s

/-- A request that has its directory entry is judged; the entry lists the requester before its fill completes (R97). -/
def judgeFill (d k : Nat) (t : Tx) (s : State) : State :=
  let l := lineOf t.f.addr
  let u := agUnit t.f.src
  let t := { t with held := (holders (slice s d k) l).contains u }
  judge d k t (updDir d k l (fun e => { e with pres := putBit e.pres u true }) (updTx d k t.id (fun _ => t) s))

/-- Does a request only read or clean the line, with no fill and no directory entry of its own? -/
def passesUp (op : Nat) : Bool := op = oCboClean || op = oCboFlush || op = oRdOnce || op = oWrFull

/-- Can a request be served now: with the entry that it needs, or a place in the set-wait queue (R100)? -/
def canServe (c : Slice) (t : Tx) : Bool :=
  passesUp t.f.op || (dirKey c (lineOf t.f.addr)).isSome || (dirWay c (lineOf t.f.addr)).isSome || decide (c.setWait.length < 8)

/-- Begin to serve a request: it has a directory entry first, whose way may need a victim (R97, R99, R100, R581). -/
def serveTx (d k id : Nat) (s : State) : State :=
  let c := slice s d k
  match c.tx.find? (fun t => t.id = id) with
  | none => s
  | some t =>
    let l := lineOf t.f.addr
    if passesUp t.f.op then
      let t := { t with held := (holders c l).contains (agUnit t.f.src) }
      goUp d k t t.f.op true (updDir d k l (fun e => { e with age := 0 }) (updTx d k id (fun _ => t) s))
    else match dirKey c l with
      | some key => judgeFill d k t (updSlice d k (fun c => { c with dir := mupd c.dir key (fun e => { e with opn := true, age := 0 }) }) s)
      | none => match dirWay c l with
        | none =>
          if c.setWait.length < 8 then updSlice d k (fun c => { c with tx := c.tx.filter (fun x => x.id ≠ id), setWait := c.setWait ++ [t.f] }) s else s
        | some (key, false) => judgeFill d k t (dirAlloc d k key l (dperm c l) s)
        | some (key, true) =>
          let v := mget c.dir key
          let us := onesOf 48 v.pres
          let s := updSlice d k (fun c => { c with dir := mupd c.dir key (fun e => { e with opn := true }) }) s
          let s := us.foldl (fun s u => send (l2Snp s d k u v.line oBackInv t.id 0 0 false) s) s
          updTx d k id (fun t => { t with ph := .victim, pend := us, snooped := us, vline := v.line }) s

/-- The directory victim's L2s have answered: what they returned goes to the L3 with the die's permission, the entry is
free and the request goes on (R99). -/
def victimDone (d k : Nat) (t : Tx) (s : State) : State :=
  let c := slice s d k
  match dirKey c t.vline with
  | none => s
  | some key =>
    let v := mget c.dir key
    let s := updSlice d k (fun c => { c with dir := mdel c.dir key }) s
    let s := match t.vdata with
      | some (x, p) => l3Alloc d k t.vline x true p v.dperm s
      | none => match l3Key (slice s d k) t.vline with
        | some q => updSlice d k (fun c => { c with l3 := mupd c.l3 q (fun e => { e with dperm := v.dperm }) }) s
        | none => match t.vclean with
          | some (x, p) => l3Alloc d k t.vline x false p v.dperm s
          | none => if v.dperm = .i then s else giveUp d k t.vline false v.dperm 0 false s
    let l := lineOf t.f.addr
    let t := { t with ph := .snoop, pend := [], vdata := none, vclean := none, snooped := [] }
    let s := updTx d k t.id (fun _ => t) s
    judgeFill d k t (dirAlloc d k key l (dperm (slice s d k) l) s)

/-! ### Acceptance -/

/-- Does a range invalidation of the die hold new requests for a line (Table 3.8 step 1)? -/
def rangeHolds (s : State) (d l : Nat) : Bool :=
  match (die s d).ri with
  | some r => decide (r.lo ≤ 64 * l) && decide (64 * l ≤ r.hi)
  | none => false

/-- Does a line wait for an EvictAck: of its own announcement (R166), or of its region's release (R130)? -/
def ackDue (c : Slice) (l : Nat) : Bool :=
  c.rel.any (fun r => decide (r.g = lineRegion l)) || c.wb.any (fun e => decide (e.line = l) && !e.clean)

/-- Must a new request for a line wait: for a split or recall of its region (Table 4.4 step 2), for the release of its
region (R130), for a range invalidation, or for the EvictAck of the line (R166)? -/
def mustHold (s : State) (d k l : Nat) : Bool :=
  let c := slice s d k
  c.rsnp.any (fun r => decide (regionOf r.f.addr = lineRegion l)) || rangeHolds s d l || ackDue c l

/-- Lowest free tracker of a slice (R96: 32). -/
def freeTx (c : Slice) : Option Nat := (List.range 32).find? (fun i => c.tx.all (fun t => t.id ≠ i))

/-- A request takes tracker `i`; it is served unless it must wait for an earlier one on its line. -/
def sliceOpen (d k : Nat) (f : Flit) (i : Nat) (s : State) : State :=
  let c := slice s d k
  let l := lineOf f.addr
  let chained := c.tx.any (fun t => decide (lineOf t.f.addr = l)) || lineOpen c l || c.snp.any (fun t => t.started && decide (lineOf t.f.addr = l))
  let s := updSlice d k (fun c => { c with tx := c.tx ++ [{ id := i, f := f }] }) s
  if chained then s else serveTx d k i s

/-- Accept a request from an L2: hold it, queue it at the routers, chain it behind an open transaction on its line, or
serve it (R85, R96, R100, R160). -/
def acceptReq (d k : Nat) (f : Flit) (s : State) : State :=
  let c := slice s d k
  let l := lineOf f.addr
  if mustHold s d k l then updSlice d k (fun c => { c with held := c.held ++ [f] }) s
  else match freeTx c with
    | none => updSlice d k (fun c => { c with vc0 := c.vc0 ++ [(s.tb, f)] }) s
    | some i =>
      if 8 ≤ c.setWait.length then updSlice d k (fun c => { c with vc0 := c.vc0 ++ [(s.tb, f)] }) s
      else sliceOpen d k f i s

/-- A request of the slice as it was sent to the home (R173): of a transaction, or of a CboClean of its own. -/
def upAgain (s : State) (d k txn : Nat) : Option Flit :=
  let c := slice s d k
  match c.tx.find? (fun t => t.id = txn) with
  | some t =>
    let f := upFlit s d k (lineOf t.f.addr) t.up txn
    some { f with rgnok := t.rgnWay, datadst := if t.self then f.src else t.f.src, datatxn := if t.self then txn else t.f.txn, data := t.f.data, poison := t.f.poison }
  | none => (c.wb.find? (fun e => e.txn = txn && e.clean)).map (fun e => upFlit s d k e.line oCboClean txn)

/-- A request that was sent again with RSV is complete: the requests that its home refused without a queue entry leave
again (R175). -/
def reservedDone (d k txn : Nat) (s : State) : State :=
  let c := slice s d k
  match c.refused.find? (fun e => decide (e.1 = txn) && decide (e.2.2 = 2)) with
  | none => s
  | some e =>
    let again := c.refused.filter (fun x => decide (x.2.1 = e.2.1) && decide (x.2.2 = 0))
    let s := updSlice d k (fun c => { c with refused := c.refused.filter (fun x => x ≠ e && !(again.contains x)) }) s
    again.foldl (fun s x => match upAgain s d k x.1 with
      | some f => sendUp d f s
      | none => s) s

/-- The transaction closes: OPEN clears and the entry is settled (R96). -/
def closeTx (d k id : Nat) (s : State) : State :=
  match (slice s d k).tx.find? (fun t => t.id = id) with
  | none => s
  | some t =>
    let l := lineOf t.f.addr
    let s := reservedDone d k id (updSlice d k (fun c => { c with tx := c.tx.filter (fun t => t.id ≠ id) }) s)
    let s := if t.rgnWay && !t.got then updSlice d k (rgnAnswer (lineRegion l) false) s else s
    dirSettle d k l (updDir d k l (fun e => { e with opn := false }) s)

/-! ### Snoops from the homes (R143 to R146, R162, R167) -/

/-- The slice answers a snoop with one SnpRsp (R144). -/
def snpAnswer (d k : Nat) (f : Flit) (st : St) (fwd wb : Bool) (s : State) : State :=
  send { rsp oSnpRsp (sliceAgent d k) f.src f.txn f with st := st, fwdd := fwd, wb := wb } s

/-- Forward line data to the agent that a snoop names. -/
def forward (src : Nat) (f : Flit) (op : Nat) (st : St) (data : Line) (poison : Bool) (s : State) : State :=
  send { dat op src f.fwd f.ftxn f data poison with st := st, comp := f.fcomp } s

/-- Return dirty data to the home under a snoop. -/
def snpData (src : Nat) (f : Flit) (data : Line) (poison : Bool) (idx : Nat) (s : State) : State :=
  send { dat oSnpData src f.src f.txn f data poison with idx := idx } s

/-- Answer a snoop from a write-back buffer (Table 5.1); `src` is the answering agent. The result says what was sent. -/
def wbAnswer (src : Nat) (e : WbEnt) (f : Flit) (s : State) : State :=
  let dirty := e.st = .m || e.st = .sd
  let ans := fun (fwd wb : Bool) (s : State) =>
    send { rsp oSnpRsp src f.src f.txn f with st := St.i, fwdd := fwd, wb := wb } s
  if f.op = oSnpShared then
    let s := forward src f oData (if !dirty then .e else if e.st = .m then .m else .s) e.data e.poison s
    if e.st = .sd then ans true true (snpData src f e.data e.poison 0 s) else ans true false s
  else if f.op = oSnpOwn then ans true false (forward src f oData (if dirty then .m else .e) e.data e.poison s)
  else if f.op = oSnpInv then ans false false s
  else if f.op = oSnpCur then
    let s := forward src f oDataCopy .i e.data e.poison s
    if dirty then ans true true (snpData src f e.data e.poison 0 s) else ans true false s
  else if dirty then ans false true (snpData src f e.data e.poison 0 s)
  else ans false false s

/-- What the slice sends its L2s for a home's snoop: the owner gets the snoop itself, other holders an invalidation when
the line leaves the die. -/
def snpL2s (c : Slice) (l op : Nat) : List (Nat × Nat) :=
  let own := ownerOf c l
  let hs := heldBy c l
  if op = oSnpShared ∨ op = oSnpCur ∨ op = oSnpClean then (own.map (fun u => (u, op))).toList
  else if op = oSnpOwn then hs.map (fun u => (u, if own = some u then oSnpOwn else oSnpInv))
  else hs.map (fun u => (u, op))

/-- The line leaves the die: no L2 and no L3 holds it and the directory entry gives no permission; it lists only the L2s that wait
for the line. -/
def lineGone (d k l : Nat) (s : State) : State :=
  let s := updSlice d k (copyLost l (fun _ => true)) (l3Drop d k l s)
  let c := slice s d k
  let wait := (List.range 48).foldl (fun m u => if filling c l u then m + 2 ^ u else m) 0
  dirSettle d k l (updDir d k l (fun e => { e with pres := wait, dperm := .i, owner := 0x3F }) s)

/-- Set the die's permission for a line, where it is kept (R98). -/
def setDperm (d k l : Nat) (st : St) (s : State) : State :=
  updSlice d k (fun c => match dirKey c l with
    | some q => { c with dir := mupd c.dir q (fun e => { e with dperm := st }) }
    | none => match l3Key c l with
      | some q => { c with l3 := mupd c.l3 q (fun e => { e with dperm := st }) }
      | none => c) s

/-- All L2s have answered a snoop: complete it with the L3's part and answer the home (Table 4.8). -/
def snpFinish (d k : Nat) (t : SnpTx) (s : State) : State :=
  let c := slice s d k
  let l := lineOf t.f.addr
  let f := t.f
  let me := sliceAgent d k
  let s := updSlice d k (fun c => { c with snp := c.snp.filter (fun x => x.id ≠ t.id) }) s
  let l3 := l3OrWb c l
  let dp := if lineHeld c l || l3.isSome || t.ret.isSome then dperm c l else .i
  let l3d := (l3.map (·.dirty)).getD false
  if t.own then
    let dirty := t.ret.isSome || l3d
    let data := match t.ret with
      | some (x, p) => (x, p)
      | none => ((l3.map (fun (e : L3Ent) => (e.data, e.poison))).getD (0, false))
    let s := match (l3Key c l).bind (fun q => lockedBy s d (q % 12)) with
      | some n => setBit (frDie d) 0x180 n s
      | none => s
    let s := l3Drop d k l s
    let s := updSlice d k (fun c => match dirKey c l with
      | some q => { c with dir := mdel c.dir q }
      | none => c) s
    if dp = .i then s else giveUp d k l dirty dp data.1 data.2 s
  else if f.op = oSnpShared then
    if t.hadOwner && t.fwd then
      if t.ownSt = .i then
        match t.ret with
        | some (x, p) => snpAnswer d k f .sd true false (setDperm d k l .sd (l3Alloc d k l x true p .sd s))
        | none => snpAnswer d k f .i true false (lineGone d k l s)
      else
        let st := if t.ownSt = .sd ∨ dp = .sd then St.sd else .s
        let s := if t.ownSt = .sd then l3Drop d k l s else s
        snpAnswer d k f st true false (setDperm d k l st s)
    else match l3 with
      | some e =>
        let st := if e.dirty || dp = .sd then St.sd else .s
        snpAnswer d k f st true false (setDperm d k l st (forward me f oData .s e.data e.poison s))
      | none =>
        if (heldBy c l).isEmpty then snpAnswer d k f .i false false (lineGone d k l s)
        else snpAnswer d k f .s false false (setDperm d k l .s s)
  else if f.op = oSnpOwn then
    if t.fwd then snpAnswer d k f .i true false (lineGone d k l s)
    else match l3 with
      | some e => snpAnswer d k f .i true false (lineGone d k l
          (forward me f oData (if e.dirty || dp = .sd then .m else .e) e.data e.poison s))
      | none => snpAnswer d k f .i false false (lineGone d k l s)
  else if f.op = oSnpInv then snpAnswer d k f .i false false (lineGone d k l s)
  else if f.op = oSnpCur then
    if t.fwd then
      match t.ret with
      | some (x, p) => snpAnswer d k f dp true false (l3Alloc d k l x true p dp s)
      | none => snpAnswer d k f dp true false s
    else match l3 with
      | some e => snpAnswer d k f dp true false (forward me f oDataCopy .i e.data e.poison s)
      | none => snpAnswer d k f dp false false s
  else if f.op = oSnpClean then
    let dp' := if dp = .sd then St.s else dp
    match t.ret with
    | some (x, p) =>
      let s := snpData me f x p 0 (setDperm d k l dp' s)
      let s := updSlice d k (fun c => match l3Key c l with
        | some q => { c with l3 := mupd c.l3 q (fun e => { e with data := x, dirty := false, poison := p }) }
        | none => c) s
      snpAnswer d k f dp' false true s
    | none => match l3 with
      | some e =>
        if e.dirty then
          let s := updSlice d k (fun c => match l3Key c l with
            | some q => { c with l3 := mupd c.l3 q (fun e => { e with dirty := false }) }
            | none => c) s
          snpAnswer d k f dp' false true (snpData me f e.data e.poison 0 (setDperm d k l dp' s))
        else snpAnswer d k f dp' false false (setDperm d k l dp' s)
      | none => snpAnswer d k f dp' false false (setDperm d k l dp' s)
  else
    match t.ret with
    | some (x, p) => snpAnswer d k f .i false true (snpData me f x p 0 (lineGone d k l s))
    | none => match l3 with
      | some e =>
        if e.dirty then snpAnswer d k f .i false true (snpData me f e.data e.poison 0 (lineGone d k l s))
        else snpAnswer d k f .i false false (lineGone d k l s)
      | none => snpAnswer d k f .i false false (lineGone d k l s)

/-- Start a waiting snoop: send it to the L2s concerned, or finish it at once; a line that the die has announced by now is answered
for from the write-back buffer (R167). -/
def snpStart (d k : Nat) (t : SnpTx) (s : State) : State :=
  let c := slice s d k
  let l := lineOf t.f.addr
  match (if t.own then none else c.wb.find? (fun e => decide (e.line = l) && !e.clean && !e.gone)) with
  | some e =>
    let s := updSlice d k (fun c => { c with snp := c.snp.filter (fun x => x.id ≠ t.id), wb := c.wb.map (fun x => if x.txn = e.txn then { x with gone := true } else x) }) s
    wbAnswer (sliceAgent d k) e t.f s
  | none =>
  let us := snpL2s c l t.f.op
  let own := (ownerOf c l).isSome
  let s := us.foldl (fun s u => send (l2Snp s d k u.1 l u.2 t.id t.f.fwd t.f.ftxn t.f.fcomp) s) s
  let t := { t with started := true, pend := us.map (·.1), snooped := us.map (·.1), hadOwner := own }
  let s := updSlice d k (fun c => { c with snp := c.snp.map (fun x => if x.id = t.id then t else x) }) s
  if us.isEmpty then snpFinish d k t s else s

/-- Must a snoop for a line wait behind a transaction that is being resolved on the die (R101, R162)? -/
def snpWaits (c : Slice) (l : Nat) : Bool :=
  c.tx.any (fun t => decide (lineOf t.f.addr = l) && (t.ph = .victim || t.ph = .snoop || (t.ph = .ack && t.up = 0))) ||
  c.tx.any (fun t => t.ph = .victim && decide (t.vline = l)) ||
  c.snp.any (fun t => t.started && decide (lineOf t.f.addr = l))

/-- Take a line snoop of a home (R143, R157, R167). -/
def snpTake (d k : Nat) (f : Flit) (s : State) : State :=
  let c := slice s d k
  let l := lineOf f.addr
  if (die s d).asg ≠ some f.part then
    logErr { frame := frDlog d, ty := 0x06, cls := 1, part := diePart s d, addr := some f.addr, agent := some f.src,
             fpart := f.part, info := 64 + k } (snpAnswer d k f .i false false s)
  else
    let t : SnpTx := { id := 2048 + c.tag % 2048, f := f }
    let s := updSlice d k (fun c => { c with snp := c.snp ++ [t], tag := c.tag + 1 }) s
    if snpWaits c l ∧ (c.wb.find? (fun e => decide (e.line = l) && !e.clean && !e.gone)).isNone = true then s else snpStart d k t s

/-! ### Region snoops and removal of lines -/

/-- Does a transaction wait on the home, itself or behind one of its line that does? -/
def waitsHome (c : Slice) (t : Tx) : Bool :=
  c.tx.any (fun x => decide (lineOf x.f.addr = lineOf t.f.addr) && (x.ph = .home || (x.ph = .ack && x.up ≠ 0)))

/-- Is a transaction of the region open that the answer to a region snoop waits for: one that does not wait on the home, or an
eviction that has no EvictAck yet (Table 4.4 step 2, R168)? -/
def rgnBusy (c : Slice) (g : Nat) : Bool :=
  c.tx.any (fun t => (decide (lineRegion (lineOf t.f.addr) = g) || (t.ph = .victim && decide (lineRegion t.vline = g))) && !(waitsHome c t)) ||
  c.wb.any (fun e => decide (lineRegion e.line = g) && !e.clean) || c.snp.any (fun t => decide (lineRegion (lineOf t.f.addr) = g))

/-- Begin to remove a line from the die, once no transaction names it: back-invalidate its L2s and then give it up (Table 3.8 step 2). -/
def dropLine (d k l : Nat) (s : State) : State :=
  let c := slice s d k
  if c.snp.any (fun t => decide (lineOf t.f.addr = l)) ∨ lineOpen c l = true ∨ c.tx.any (fun t => decide (lineOf t.f.addr = l)) then s
  else
    let t : SnpTx := { id := 2048 + c.tag % 2048, own := true, f := { net := .snp, op := oBackInv, addr := 64 * l, part := diePart s d } }
    snpStart d k t (updSlice d k (fun c => { c with snp := c.snp ++ [t], tag := c.tag + 1 }) s)

/-- The lines of the die's slice that satisfy `p`, directory and L3. -/
def linesWhere (c : Slice) (p : Nat → Bool) : List Nat :=
  ((c.dir.map (fun e => e.2.line)) ++ (c.l3.map (fun e => e.2.line))).eraseDups.filter p

/-- Go on with a region snoop: a split reports the lines held (Table 4.4); a recall removes them, sending each dirty line
(R131). A region released before is answered with the map sent then (R169). -/
def rsnpStep (d k : Nat) (r : RgnSnp) (s : State) : State :=
  let c := slice s d k
  let g := regionOf r.f.addr
  let me := sliceAgent d k
  let fin := fun (s : State) => updSlice d k (fun c => { c with rsnp := c.rsnp.filter (fun x => x.f ≠ r.f) }) s
  if r.f.op = oSnpRgnSplit then
    match c.rel.find? (fun e => e.g = g) with
    | some e => if c.wb.any (fun x => decide (lineRegion x.line = g) && !x.clean) then s else fin (send { dat oRgnMap me r.f.src r.f.txn r.f (BitVec.ofNat 512 e.map) false with addr := r.f.addr } s)
    | none =>
      if rgnBusy c g then s
      else
        let m := rgnMapOf c g
        let s := updSlice d k (fun c => { rgnToLines g c with rgn := match rgnKey c g with
          | some q => mdel c.rgn q
          | none => c.rgn }) s
        fin (send { dat oRgnMap me r.f.src r.f.txn r.f (BitVec.ofNat 512 m) false with addr := r.f.addr } s)
  else
    let of := fun (c : Slice) => linesWhere c (fun l => decide (lineRegion l = g) && (lineHeld c l || (wbClean c l).isSome))
    let ls := of c
    if rgnBusy c g then s
    else
      let s := ls.foldl (fun s l =>
        let c := slice s d k
        let us := heldBy c l
        if us.isEmpty then
          match l3OrWb c l with
          | some e =>
            let s := if e.dirty then snpData me r.f e.data e.poison (l % 64) s else s
            let s := if e.dirty then updSlice d k (fun c => { c with rsnp := c.rsnp.map (fun x => if x.f = r.f then { x with ndata := x.ndata + 1 } else x) }) s else s
            lineGone d k l s
          | none => lineGone d k l s
        else
          let t : SnpTx := { id := 2048 + c.tag % 2048, f := { r.f with op := oBackInv, addr := 64 * l } }
          let s := updSlice d k (fun c => { c with snp := c.snp ++ [{ t with f := { t.f with idx := 64 } }], tag := c.tag + 1 }) s
          let s := us.foldl (fun s u => send (l2Snp s d k u l oBackInv t.id 0 0 false) s) s
          updSlice d k (fun c => { c with snp := c.snp.map (fun x => if x.id = t.id then { x with started := true, pend := us, snooped := us } else x) }) s) s
      if (of (slice s d k)).isEmpty then
        let nd := (((slice s d k).rsnp.find? (fun x => x.f = r.f)).map (·.ndata)).getD 0
        let s := updSlice d k (fun c => { c with rgn := match rgnKey c g with
          | some q => mdel c.rgn q
          | none => c.rgn }) (updSlice d k (rgnToLines g) s)
        fin (send { rsp oSnpRsp me r.f.src r.f.txn r.f with st := St.i, ndata := nd } s)
      else s

/-- A line of a recalled region has lost its L2 copies: its dirty data goes to the home with its index (R131). -/
def rgnLineDone (d k : Nat) (t : SnpTx) (s : State) : State :=
  let c := slice s d k
  let l := lineOf t.f.addr
  let g := lineRegion l
  let s := updSlice d k (fun c => { c with snp := c.snp.filter (fun x => x.id ≠ t.id) }) s
  let data := match t.ret with
    | some x => some x
    | none => (l3OrWb c l).bind (fun e => if e.dirty then some (e.data, e.poison) else none)
  match c.rsnp.find? (fun r => regionOf r.f.addr = g) with
  | none => lineGone d k l s
  | some r =>
    let s := match data with
      | some (x, p) => updSlice d k (fun c => { c with rsnp := c.rsnp.map (fun y => if y.f = r.f then { y with ndata := y.ndata + 1 } else y) })
          (snpData (sliceAgent d k) r.f x p (l % 64) s)
      | none => s
    lineGone d k l s

/-- The part of a running range invalidation that this slice can do now: remove every line of the range with no open
transaction, then release the regions (Table 3.8 steps 2 and 3). Lines removed from a locked way are reported (R114). -/
def rangeStep (d k : Nat) (s : State) : State :=
  match (die s d).ri with
  | none => s
  | some r =>
    let inR := fun (l : Nat) => decide (r.lo ≤ 64 * l) && decide (64 * l ≤ r.hi)
    let ls := linesWhere (slice s d k) inR
    let s := ls.foldl (fun s l => dropLine d k l s) s
    let c := slice s d k
    if (linesWhere c inR).isEmpty && !(c.wb.any (fun e => inR e.line)) && c.tx.all (fun t => !(inR (lineOf t.f.addr))) then
      (c.rgn.filter (fun e => e.2.v && decide (r.lo < 4096 * (e.2.g + 1)) && decide (4096 * e.2.g ≤ r.hi))).foldl
        (fun s e => rgnRelease d k e.1 s) s
    else s

/-- Has the slice nothing left of the running range invalidation? -/
def rangeDone (s : State) (d k : Nat) : Bool :=
  match (die s d).ri with
  | none => true
  | some r =>
    let c := slice s d k
    let inR := fun (l : Nat) => decide (r.lo ≤ 64 * l) && decide (64 * l ≤ r.hi)
    (linesWhere c inR).isEmpty && !(c.wb.any (fun e => inR e.line)) && c.tx.all (fun t => !(inR (lineOf t.f.addr))) && c.snp.isEmpty &&
    c.rgn.all (fun e => !(e.2.v && decide (r.lo < 4096 * (e.2.g + 1)) && decide (4096 * e.2.g ≤ r.hi))) &&
    c.rel.all (fun e => !(decide (r.lo < 4096 * (e.g + 1)) && decide (4096 * e.g ≤ r.hi)))

/-! ### Going on after an event -/

/-- The first chained request that can be served: no earlier transaction names its line (R160). A split, a recall or a range
invalidation holds new requests only: one accepted before runs to completion (Table 3.8 step 1). -/
def chainNext (s : State) (d k : Nat) : Option Tx :=
  let c := slice s d k
  c.tx.find? (fun t =>
    let l := lineOf t.f.addr
    t.ph = .wait && !(lineOpen c l) && !(c.snp.any (fun x => x.started && decide (lineOf x.f.addr = l))) && !(ackDue c l) && canServe c t &&
    decide ((c.tx.find? (fun x => lineOf x.f.addr = l)).map (·.id) = some t.id))
/-- Serve the chained requests whose turn has come. -/
def chainStep (d k : Nat) : Nat → State → State
  | 0, s => s
  | n + 1, s => match chainNext s d k with
    | some t => chainStep d k n (serveTx d k t.id s)
    | none => s

/-- Start the waiting snoops that nothing holds back any longer. -/
def snpStep (d k : Nat) : Nat → State → State
  | 0, s => s
  | n + 1, s =>
    let c := slice s d k
    match c.snp.find? (fun t => !t.started && !(snpWaits c (lineOf t.f.addr))) with
    | some t => snpStep d k n (snpStart d k t s)
    | none => s

/-- The input of the slice's stop on which a request of VC0 waits: the direction of its last hop, or the stop's own (R81). -/
def vcInput (f : Flit) : Nat :=
  let p := cdStop (agUnit f.src)
  let q := cdStop (agUnit f.dst)
  (((inputsOn p (xyPath p q)).getLast?).map (·.2)).getD 4

/-- The request that the router grants next: of the flits first at their inputs, one that has waited 32 fabric cycles, else in
rotating order from the input after the last (R87). -/
def vcPick (s : State) (c : Slice) : Option (Nat × Flit) :=
  let heads := c.vc0.filter (fun e => (c.vc0.find? (fun x => decide (vcInput x.2 = vcInput e.2))) = some e)
  match heads.find? (fun e => decide (e.1 + 16 ≤ s.tb)) with
  | some e => some e
  | none => ((List.range 5).map (fun i => (c.vcp + i) % 5)).findSome? (fun i => heads.find? (fun e => decide (vcInput e.2 = i)))

/-- Accept requests from the routers while the slice can open transactions (R85, R100). -/
def vcStep (d k : Nat) : Nat → State → State
  | 0, s => s
  | n + 1, s =>
    let c := slice s d k
    if (freeTx c).isNone ∨ 8 ≤ c.setWait.length then s
    else match vcPick s c with
      | none => s
      | some e => vcStep d k n (acceptReq d k e.2 (updSlice d k (fun c => { c with vc0 := c.vc0.erase e, vcp := (vcInput e.2 + 1) % 5 }) s))

/-- Accept again the requests that were held, and those at the routers, as far as they can be. -/
def releaseStep (d k : Nat) (s : State) : State :=
  let hs := (slice s d k).held
  let s := hs.foldl (fun s f => acceptReq d k f s) (updSlice d k (fun c => { c with held := [] }) s)
  vcStep d k (slice s d k).vc0.length s

/-- The slice goes on as far as it can after an event. -/
def sliceRun (d k : Nat) (s : State) : State :=
  let snps := fun (s : State) => snpStep d k (slice s d k).snp.length s
  let s := snps (chainStep d k 32 (snps s))
  let s := (slice s d k).rsnp.foldl (fun s r => rsnpStep d k r s) s
  releaseStep d k (chainStep d k 32 (rangeStep d k s))

end Sys2Proof.Machine
end

