-- ==== Sys2Proof/Machine/RpOps.lean ====
section
/-! DEFINITION. What a root port does: inbound TLPs and their order, AtomicOps and partial writes by ownership, CXL.cache and
CXL.mem, outbound requests, containment, hot-plug and the IOMMU instance's registers (R332 to R354).
Log entries with the choices and readings made here: 33, 45, 59, 77, 80, 81, 83, 84, 198. -/

namespace Sys2Proof.Machine

/-! ### The port -/

/-- Root port `r`. -/
def rp (s : State) (r : Nat) : Rp := mget s.rps r
/-- Change root port `r`. -/
def updRp (r : Nat) (g : Rp → Rp) (s : State) : State := { s with rps := mupd s.rps r g }
/-- Link `l` of a port. -/
def rpLink (x : Rp) (l : Nat) : RpLink := x.links.getD l {}
/-- Change a link. -/
def updRpLink (r l : Nat) (g : RpLink → RpLink) (s : State) : State :=
  updRp r (fun x => { x with links := x.links.set l (g (rpLink x l)) }) s
/-- Lanes of each link of a bifurcation (Table 10.1). -/
def bifLinks (b : Nat) : List Nat :=
  match b with
  | 0 => [16] | 1 => [8, 8] | 2 => [8, 4, 4] | 3 => [4, 4, 8] | 4 => [4, 4, 4, 4] | _ => []
/-- Lanes of link `l`; 0 where the bifurcation has no such link. -/
def linkLanes (s : State) (r l : Nat) : Nat := (bifLinks (fld s (frRp r) 0 0 3)).getD l 0
/-- The port carries the pair role (R334). -/
def rpPair (s : State) (r : Nat) : Bool := fbit s (frRp r) 0 3
/-- The port is a Boathouse port (R372). -/
def bhPort (s : State) (r : Nat) : Bool := s.drives.any (fun e => e.2.rp = r)
/-- Send something to the devices below the port. -/
def devSend (r : Nat) (m : DevMsg) (s : State) : State := updRp r (fun x => { x with dev := x.dev ++ [m] }) s
/-- A record of a root port (R582). -/
def rpErr (s : State) (r ty : Nat) (consq : Bool) (addr : Option Nat) : Err :=
  { frame := frRp r, ty := ty, cls := 1, consq := consq, part := rpPart s r, addr := addr, fpart := rpPart s r }
/-- A link takes and gives TLPs. -/
def linkUp (s : State) (r l : Nat) : Bool := decide (r < 12) && (rpLink (rp s r) l).dlup && !(rpLink (rp s r) l).dpc

/-- Lowest TXN that no request of the port uses. -/
def rpTxn (x : Rp) : Nat :=
  ((List.range 4096).find? (fun t => x.reqs.all (fun f => f.txn ≠ t) && x.wb.all (fun e => e.txn ≠ t))).getD 4095
/-- Agent of a port, or of a Boathouse stop's data mover (numbers 16 to 19). -/
def dmaAgent (r : Nat) : Nat := if r < 12 then rpAgent r else if r < 20 then agent 12 (0x68 + r % 4) else coxAgent
/-- A request of the port to the home of a line (R338, R369): it carries PART `p`. -/
def rpReq (p r op l txn : Nat) (data : Line) (poison : Bool) : Flit :=
  { net := .req, op := op, src := dmaAgent r, dst := haAgent (homeOf (lineRegion l)), txn := txn, part := p, sys := true,
    addr := 64 * l, datadst := dmaAgent r, datatxn := txn, data := data, poison := poison }
/-- Send a request and keep it until it is answered. -/
def rpSend (r : Nat) (f : Flit) (s : State) : State :=
  let s := send f (updRp r (fun x => { x with reqs := x.reqs ++ [f] }) s)
  if r < 12 then openTx (16 + r) f s else s
/-- A request is answered. -/
def rpAnswered (r : Nat) (f : Flit) (s : State) : State :=
  closeTxn (16 + r) f false (updRp r (fun x => { x with reqs := x.reqs.filter (fun q => q.txn ≠ f.txn) }) s)

/-! ### Inbound TLPs -/

/-- The lines that bytes from `pa` touch: address, size and place in the TLP. -/
def tlpParts (pa len : Nat) : List (Nat × Nat × Nat) :=
  if len = 0 then []
  else (List.range ((pa + len - 1) / 64 - pa / 64 + 1)).map (fun i =>
    let a := if i = 0 then pa else (pa / 64 + i) * 64
    let e := min (pa + len) ((pa / 64 + i + 1) * 64)
    (a, e - a, a - pa))

/-- Bytes of a TLP at their places in a line, with the mask. -/
def partLine (pa size at_ : Nat) (bs : List (BitVec 8)) : BitVec 64 × Line :=
  (BitVec.ofNat 64 ((2 ^ size - 1) * 2 ^ (pa % 64)),
   BitVec.ofNat 512 (leNat ((bs.drop at_).take size) * 256 ^ (pa % 64)))

/-- A TLP is complete when all its parts are: a non-posted one is completed toward the device (R335, R338). -/
def tlpPart (r seq : Nat) (ur ep : Bool) (val : Nat) (s : State) : State :=
  match (rp s r).tlps.find? (fun t => t.seq = seq) with
  | none => s
  | some t =>
    let t := { t with left := t.left - 1, ur := t.ur || ur, ep := t.ep || ep, val := t.val + val }
    if t.left = 0 then
      let s := updRp r (fun x => { x with tlps := x.tlps.filter (fun y => y.seq ≠ seq) }) s
      if t.posted ∨ t.dead = true then s else devSend r (.cpl t.link t.tag (!t.ur) t.ep (if t.ur then 0 else t.val)) s
    else updRp r (fun x => { x with tlps := x.tlps.map (fun y => if y.seq = seq then t else y) }) s

/-- Remove a part that is done, and count it. -/
def opDone (r : Nat) (o : RpOp) (ur ep : Bool) (val : Nat) (s : State) : State :=
  tlpPart r o.seq ur ep val (updRp r (fun x => { x with ops := x.ops.filter (fun y => !(decide (y.seq = o.seq) && decide (y.at_ = o.at_))) }) s)

/-- Take a part's TXN. -/
def opTxn (r : Nat) (o : RpOp) (t : Nat) (s : State) : State :=
  updRp r (fun x => { x with ops := x.ops.map (fun y => if y.seq = o.seq ∧ y.at_ = o.at_ then { y with txn := some t } else y) }) s

/-- The port announces a line (R141, R179). -/
def rpAnnounce (p r l : Nat) (dirty : Bool) (data : Line) (poison : Bool) (s : State) : Nat × State :=
  let t := rpTxn (rp s r)
  let s := updRp r (fun x => { x with wb := x.wb ++ [{ txn := t, line := l, st := if dirty then .m else .e, data := data, poison := poison }] }) s
  (t, rpSend r (rpReq p r (if dirty then oWrBackDirty else oEvictClean) l t data poison) s)

/-- The result of an AtomicOp on `size` bytes (Table 10.3). -/
def atomResult (op : AtomOp) (size old opnd cmp : Nat) : Nat :=
  match op with
  | .fetchAdd => (old + opnd) % 256 ^ size
  | .swap => opnd % 256 ^ size
  | .cas => if old = cmp % 256 ^ size then opnd % 256 ^ size else old

/-- Perform the operations queued for an owned line, in arrival order, then announce it (R179). The components are the
line's data, its POISON, whether it was written, and the TLPs whose posted writes end with its EvictAck. -/
def lineOps (r : Nat) : List RpOp → (Line × Bool × Bool × List Nat) → State → (Line × Bool × Bool × List Nat) × State
  | [], a, s => (a, s)
  | o :: os, (d, p, w, ws), s =>
    match o.kind with
    | .atom =>
      if p then
        let s := logErr (rpErr s r 0x08 true (some o.pa)) s
        lineOps r os (d, p, w, ws) (opDone r o false true 0 s)
      else
        let old := (d.toNat / 256 ^ (o.pa % 64)) % 256 ^ o.size
        let n := atomResult o.op o.size old o.opnd o.cmp
        let m := partLine o.pa o.size 0 (leBytes o.size n)
        lineOps r os (mergeLine d m.2 m.1, p, true, ws) (opDone r o false false old s)
    | .setb =>
      let s := updRp r (fun x => { x with ops := x.ops.filter (fun y => !(decide (y.seq = o.seq) && decide (y.at_ = o.at_))) }) s
      lineOps r os (d ||| o.data, p, true, ws ++ [o.seq]) s
    | _ =>
      let s := updRp r (fun x => { x with ops := x.ops.filter (fun y => !(decide (y.seq = o.seq) && decide (y.at_ = o.at_))) }) s
      lineOps r os (mergeLine d o.data o.mask, p || o.poison, true, ws ++ [o.seq]) s

/-- A line asked for is owned: CompAck, the queued operations, and the announcement (R139, R179). -/
def rpLineGot (r : Nat) (x : RpLine) (s : State) : State :=
  let ack : Flit := { net := .rsp, op := oCompAck, src := dmaAgent r, dst := haAgent (homeOf (lineRegion x.line)), txn := x.txn,
                      part := x.part, sys := true, addr := 64 * x.line, st := x.st }
  let s := closeTxn (16 + r) ack true (send ack s)
  let s := updRp r (fun y => { y with reqs := y.reqs.filter (fun q => q.txn ≠ x.txn), lines := y.lines.filter (fun z => z.line ≠ x.line) }) s
  let q := lineOps r ((rp s r).ops.filter (fun o => o.txn = some x.txn)) (x.data, x.poison, decide (x.st = .m), []) s
  let a := q.1
  let t := rpAnnounce x.part r x.line a.2.2.1 a.1 a.2.1 q.2
  updRp r (fun y => { y with acks := y.acks ++ a.2.2.2.map (fun n => (t.1, n)) }) t.2

/-- Must a part wait for an earlier posted write of its link (R181, R340)? -/
def opWaits (x : Rp) (o : RpOp) : Bool :=
  (!o.relaxed || o.kind = .zlr) && x.tlps.any (fun t => t.posted && decide (t.seq < o.seq) && decide (t.link = o.link))

/-- Is a part one that the port executes on a line it owns (R151, R179)? -/
def onLine (o : RpOp) : Bool := o.kind = .wpart || o.kind = .atom || o.kind = .setb
/-- May a part be executed now on its line, if the port owns it? Every earlier posted write that it must follow is done, or is
itself executed on that line before it.
DEDUCED from R179 and R181: such a part needs no request of its own, so none is issued too early. -/
def opJoins (x : Rp) (o : RpOp) : Bool :=
  onLine o && (!(opWaits x o) || x.tlps.all (fun t =>
    !(t.posted && decide (t.seq < o.seq) && decide (t.link = o.link)) ||
    (let ps := x.ops.filter (fun y => y.seq = t.seq)
     decide (ps.length = t.left) && ps.all (fun y => onLine y && decide (lineOf y.pa = lineOf o.pa)))))

/-- Ask the CXL.cache device to give a line up (R343, R344). -/
def cxlRecall (r l : Nat) (s : State) : State :=
  if (rp s r).recl.contains l || (rp s r).csnp.any (fun f => decide (lineOf f.addr = l)) then s else devSend r (.snp (64 * l) false) (updRp r (fun x => { x with recl := x.recl ++ [l] }) s)

/-- Send what a part asks for, when nothing holds it back (R151, R181, R338). -/
def opTry (r : Nat) (o : RpOp) (s : State) : State :=
  let x := rp s r
  let l := lineOf o.pa
  let held := x.lines.find? (fun y => y.line = l)
  if o.txn.isSome then s
  else if held.isSome && opJoins x o && !(x.wb.any (fun e => decide (e.line = l))) then opTxn r o (held.map (·.txn) |>.getD 0) s
  else if opWaits x o then s
  else if o.kind = .zlr then opDone r o false false 0 s
  else if o.kind = .msi then
    let t := rpTxn x
    let f := { msiFlit (dmaAgent r) o.part 0 0 0 with dst := agent 12 (0x60 + o.dst), addr := o.pa, data := o.data, txn := t }
    opTxn r o t (rpSend r f s)
  else if x.wb.any (fun e => e.line = l) then s
  else if o.kind = .wpart ∨ o.kind = .atom ∨ o.kind = .setb then
    if x.cxl.contains l then cxlRecall r l s
    else if 64 ≤ x.lines.length then s
    else
      let t := rpTxn x
      let s := updRp r (fun x => { x with lines := x.lines ++ [{ line := l, txn := t, part := o.part }] }) s
      opTxn r o t (rpSend r (rpReq o.part r oRdOwn l t 0 false) s)
  else if x.lines.any (fun y => y.line = l) then s
  else
    let t := rpTxn x
    opTxn r o t (rpSend r (rpReq o.part r (if o.kind = .wfull then oWrFull else oRdOnce) l t o.data o.poison) s)

/-! ### CXL.cache (R343 to R345) -/

/-- Home request of a device message (Table 10.6): 0 RdCurr, 1 RdShared, 2 RdOwn, 3 RdOwnNoData, 4 ItoMWr, 5 DirtyEvict,
6 CleanEvict. -/
def cxlOp (n : Nat) : Nat := [oRdOnce, oRdOwn, oRdOwn, oClaimOwn, oWrFull, oWrBackDirty, oEvictClean].getD n 0
/-- GO code for a device message: 0 GO-I, 1 GO-S, 2 GO-E, 3 GO-WritePull. -/
def cxlGo (n : Nat) : Nat := [0, 1, 2, 2, 0, 3, 0].getD n 0

/-- Remove an open device request. -/
def cxlEnd (r : Nat) (q : CxlReq) (s : State) : State := updRp r (fun x => { x with cxlReq := x.cxlReq.erase q }) s

/-- Serve a device request: recall a line when the tracker is full, announce an eviction, or ask the home (R343, R344). -/
def cxlTry (r : Nat) (q : CxlReq) (s : State) : State :=
  let x := rp s r
  let l := lineOf q.pa
  let grant := q.op = 1 || q.op = 2 || q.op = 3
  let busy := x.wb.any (fun e => e.line = l) || x.lines.any (fun y => y.line = l) || x.recl.contains l ||
    x.cxlReq.any (fun y => y.txn.isSome && decide (lineOf y.pa = l)) || x.csnp.any (fun f => decide (lineOf f.addr = l))
  if q.txn.isSome ∨ busy then s
  else if q.op = 5 ∨ q.op = 6 then
    if x.cxl.contains l then
      let s := updRp r (fun x => { x with cxl := x.cxl.erase l }) s
      let a := rpAnnounce (rpPart s r) r l (q.op = 5) q.data q.poison s
      let s := updRp r (fun x => { x with cxlReq := x.cxlReq.map (fun y => if y = q then { q with txn := some a.1 } else y) }) a.2
      if q.op = 5 then devSend r (.go q.pa 3 none) s else s
    else devSend r (.go q.pa (cxlGo q.op) none) (cxlEnd r q s)
  else if grant && !(x.cxl.contains l) && decide (16384 ≤ x.cxl.length) then
    match x.cxl.find? (fun l => !(x.recl.contains l)) with
    | some v => if x.recl.isEmpty then cxlRecall r v s else s
    | none => s
  else
    let t := rpTxn x
    let s := updRp r (fun x => { x with cxlReq := x.cxlReq.map (fun y => if y = q then { q with txn := some t } else y) }) s
    rpSend r (rpReq (rpPart s r) r (cxlOp q.op) l t q.data q.poison) s

/-- Requests sent again with RSV that are complete: those that their homes refused without a queue entry leave again (R175). -/
def rpResend (r : Nat) (s : State) : State :=
  let x := rp s r
  let fin := x.refused.filter (fun e => decide (e.2.2 = 2) && x.reqs.all (fun f => f.txn ≠ e.1))
  let again := x.refused.filter (fun e => decide (e.2.2 = 0) && fin.any (fun y => y.2.1 = e.2.1))
  let s := updRp r (fun x => { x with refused := x.refused.filter (fun e => !(fin.contains e) && !(again.contains e)) }) s
  again.foldl (fun s e => match x.reqs.find? (fun f => f.txn = e.1) with
    | some f => send f s
    | none => s) s

/-- The port goes on as far as it can after an event. -/
def rpRun (r : Nat) (s : State) : State :=
  let s := rpResend r s
  let s := (rp s r).ops.foldl (fun s o => opTry r o s) s
  (rp s r).cxlReq.foldl (fun s q => cxlTry r q s) s

/-- A device request is complete at the home: the device receives its answer, and a granted line is tracked. -/
def cxlGot (r : Nat) (q : CxlReq) (s : State) : State :=
  let l := lineOf q.pa
  let s := cxlEnd r q s
  let ack : Flit := { net := .rsp, op := oCompAck, src := rpAgent r, dst := haAgent (homeOf (lineRegion l)), txn := q.txn.getD 0,
                      part := rpPart s r, sys := true, addr := 64 * l, st := .e }
  let grant := q.op = 1 || q.op = 2 || q.op = 3
  let s := if grant then closeTxn (16 + r) ack true (send ack s) else s
  let s := if grant then updRp r (fun x => { x with reqs := x.reqs.filter (fun f => some f.txn ≠ q.txn), cxl := x.cxl.erase l ++ [l] }) s else s
  devSend r (.go q.pa (cxlGo q.op) (if q.op = 0 ∨ q.op = 1 ∨ q.op = 2 then some (q.val, q.valP) else none)) s

/-! ### Admission of a TLP -/

/-- Is an address in main memory for the port: a slab OWNED by its partition, by the port's own copy (R338)? -/
def rpMain (r p pa : Nat) (s : State) : Bool × State :=
  if memTop ≤ pa then (false, s)
  else
    let e := slabCopy (rpAgent r) (slabOf pa) s
    (decide (slState e.1 = slOWNED) && decide (slOwner e.1 = p), e.2)

/-- Is every line of a range main memory? -/
def rpAllMain (r p pa len : Nat) (s : State) : Bool × State :=
  (tlpParts pa len).foldl (fun a e => let q := rpMain r p e.1 a.2; (a.1 && q.1, q.2)) (true, s)

/-- IOMMU mode: 0 Off, 1 Bare, above that a table walk (R346). -/
def ioMode (s : State) (r : Nat) : Nat := bits (mget (rp s r).iommu 0x10).toNat 0 4

/-- The order class of an IOMMU instance's own writes, beside the links. -/
def ioLink : Nat := 4

/-- Add a TLP of partition `p` with its parts and go on. -/
def dmaAdd (p r link tag : Nat) (posted : Bool) (os : List RpOp) (s : State) : State :=
  let n := (rp s r).seq
  let os := os.map (fun o => { o with seq := n, link := link, part := p })
  let t : RpTlp := { seq := n, link := link, posted := posted, tag := tag, left := os.length }
  rpRun r (updRp r (fun x => { x with seq := n + 1, tlps := x.tlps ++ [t], ops := x.ops ++ os }) s)

/-- Add a TLP of a root port, for its owner. -/
def tlpAdd (r link tag : Nat) (posted : Bool) (os : List RpOp) (s : State) : State := dmaAdd (rpPart s r) r link tag posted os s

/-- Completion with Unsupported Request of a non-posted TLP, the drop of a posted one, and the record (R338, R352). -/
def tlpUr (t : Tlp) (ty part : Nat) (posted : Bool) (s : State) : State :=
  let s := logErr { rpErr s t.rp ty false (some t.addr) with part := part, fpart := part } s
  if posted then s else devSend t.rp (.cpl t.link t.tag false false 0) s

/-- IOMMU instance `k` (a root port's by its number, a partition's Boathouse instance by 32 + p) writes a 16- or 32-byte record
at the tail of its fault (`fault`) or page-request queue, coherently under PART `p` through engine `r`, and signals it (R346,
R368). Queue base at `b`, head and tail at `b + 8`; `csr` is where its control and status word stands. -/
def ioQueueAt (k r p : Nat) (fault : Bool) (rec : List (BitVec 8)) (s : State) : State :=
  let x := rp s k
  let b := if fault then 0x28 else 0x38
  let csrOff := if fault then 0x48 else 0x50
  let csrLo := if fault then 32 else 0
  let csr := bits (mget x.iommu csrOff).toNat csrLo 32
  let base := (mget x.iommu b).toNat
  let size := 2 ^ (bits base 0 5 + 1)
  let ht := (mget x.iommu (b + 8)).toNat
  let head := bits ht 0 32
  let tail := bits ht 32 32
  let put := fun (off lo w v : Nat) (s : State) => updRp k (fun x => { x with iommu := mset x.iommu off (BitVec.ofNat 64 (setBits (mget x.iommu off).toNat lo w v)) }) s
  if bit csr 16 = false then s
  else if (tail + 1) % size = head then put csrOff (csrLo + 9) 1 1 s
  else
    let a := bits base 10 44 * 4096 + rec.length * tail
    let m := partLine a rec.length 0 rec
    let s := put (b + 8) 32 32 ((tail + 1) % size) s
    let s := dmaAdd p r ioLink 0 true [{ kind := .wpart, pa := a, size := rec.length, mask := m.1, data := m.2 }] s
    if bit csr 1 then
      let s := put 0x50 (32 + if fault then 1 else 3) 1 1 s
      let vec := bits (mget (rp s k).iommu 0x2F8).toNat (if fault then 4 else 12) 4
      let ma := (mget (rp s k).iommu (0x300 + 16 * vec)).toNat
      let md := (mget (rp s k).iommu (0x308 + 16 * vec)).toNat
      match imOf ma with
      | some (h, _) =>
        if bit md 32 = false ∧ hartPart s h = p then
          dmaAdd p r ioLink 0 true [{ kind := .msi, pa := ma, size := 4, data := BitVec.ofNat 512 (md % 2 ^ 32), dst := h / 144 }] s
        else s
      | none => s
    else s

/-- The same for a root port's own instance. -/
def ioQueue (r : Nat) (fault : Bool) (rec : List (BitVec 8)) (s : State) : State := ioQueueAt r r (rpPart s r) fault rec s

/-- A translation fault: the request is refused and reported (R346, Table 15.3). -/
def ioFault (t : Tlp) (posted : Bool) (s : State) : State :=
  let s := tlpUr t 0x06 (rpPart s t.rp) posted s
  let c := if ioMode s t.rp = 0 then (256, s) else let q := drawNat s; (q.1 % 4096, q.2)
  ioQueue t.rp true (leBytes 32 (c.1 + t.addr * 2 ^ 128)) c.2

/-- May the port take a TLP or a CXL.cache message of a link now, and if it refuses it itself, why: some (type, PART) of the
record (R253, R334, R352, R372). -/
def rpGate (s : State) (r l : Nat) (proxy : Bool) : Option (Option (Nat × Nat)) :=
  if !(linkUp s r l) || rpPair s r then none
  else if bhPort s r then (if proxy then none else some (some (0x05, 15)))
  else if rpPart s r = 15 then some (some (0x05, 15))
  else if (port s (16 + r)).fenced || (port s (16 + r)).soft then none
  else some none

/-- The proxy window (R396). -/
def inProxy (a : Nat) : Bool := decide (0x00002D0000000000 ≤ a) && decide (a < 0x00002D0040000000)

/-- The address of a TLP after the IOMMU instance (R346). -/
def tlpXl (s : State) (t : Tlp) : Option Nat :=
  match ioMode s t.rp with
  | 0 => none
  | 1 => some t.addr
  | _ => t.xl

/-- A write TLP, MSI writes included (R338, R340). -/
def dmaWrite (t : Tlp) (s : State) : State :=
  let r := t.rp
  let n := t.data.length
  match rpGate s r t.link (inProxy t.addr) with
  | none => s
  | some (some e) => tlpUr t e.1 e.2 true s
  | some none =>
    match tlpXl s t with
    | none => ioFault t true s
    | some pa =>
      let p := rpPart s r
      let m := rpAllMain r p pa n s
      if n = 0 then s
      else if m.1 then
        let s := if t.poison then logErr (rpErr m.2 r 0x08 true (some pa)) m.2 else m.2
        tlpAdd r t.link t.tag true ((tlpParts pa n).map (fun e =>
          let q := partLine e.1 e.2.1 e.2.2 t.data
          { kind := if e.2.1 = 64 then .wfull else .wpart, pa := e.1, size := e.2.1, at_ := e.2.2, mask := q.1, data := q.2,
            poison := t.poison, relaxed := t.relaxed })) s
      else match imOf pa with
        | some (h, _) =>
          if n = 4 ∧ pa % 4 = 0 ∧ hartPart s h = p then
            tlpAdd r t.link t.tag true [{ kind := .msi, pa := pa, size := 4, data := BitVec.ofNat 512 (leNat t.data * 256 ^ (pa % 64)), relaxed := t.relaxed, dst := h / 144 }] m.2
          else tlpUr t 0x05 p true m.2
        | none => tlpUr t 0x05 p true m.2

/-- Does the port accept another non-posted TLP (R336)? -/
def npRoom (s : State) (r : Nat) : Bool := decide (((rp s r).tlps.filter (fun t => !t.posted)).length < 1024)

/-- A read TLP: RdOnce for each line (R338). A read of no bytes waits for earlier posted writes only (R340). -/
def dmaRead (t : Tlp) (s : State) : State :=
  let r := t.rp
  match rpGate s r t.link (inProxy t.addr) with
  | none => s
  | some (some e) => tlpUr t e.1 e.2 false s
  | some none =>
    if !(npRoom s r) then s
    else if t.len = 0 then tlpAdd r t.link t.tag false [{ kind := .zlr }] s
    else match tlpXl s t with
      | none => ioFault t false s
      | some pa =>
        let m := rpAllMain r (rpPart s r) pa t.len s
        if m.1 ∧ t.len ≤ 4096 then
          tlpAdd r t.link t.tag false ((tlpParts pa t.len).map (fun e =>
            { kind := .read, pa := e.1, size := e.2.1, at_ := e.2.2, relaxed := t.relaxed })) m.2
        else tlpUr t 0x05 (rpPart s r) false m.2

/-- An AtomicOp (R339). -/
def atomicOp (t : Tlp) (op : AtomOp) (opnd cmp : Nat) (s : State) : State :=
  let r := t.rp
  let sizes := if op = .cas then [4, 8, 16] else [4, 8]
  match rpGate s r t.link (inProxy t.addr) with
  | none => s
  | some (some e) => tlpUr t e.1 e.2 false s
  | some none =>
    if !(npRoom s r) then s
    else match tlpXl s t with
      | none => ioFault t false s
      | some pa =>
        let m := rpMain r (rpPart s r) pa s
        if m.1 && sizes.contains t.len && decide (pa % t.len = 0) then
          tlpAdd r t.link t.tag false [{ kind := .atom, pa := pa, size := t.len, op := op, opnd := opnd, cmp := cmp, relaxed := t.relaxed }] m.2
        else tlpUr t 0x05 (rpPart s r) false m.2

/-- A CXL.cache message of the device of a port (Table 10.6). -/
def cxlTake (r op pa : Nat) (data : Line) (poison : Bool) (s : State) : State :=
  let l := lineOf pa
  if (rpLink (rp s r) 0).cxl = false then s
  else match rpGate s r 0 false with
    | none => s
    | some (some e) => logErr { rpErr s r e.1 false (some pa) with part := e.2, fpart := e.2 } s
    | some none =>
      let m := rpMain r (rpPart s r) pa s
      if m.1 then rpRun r (updRp r (fun x => { x with cxlReq := x.cxlReq ++ [{ op := op, pa := 64 * l, data := data, poison := poison }] }) m.2)
      else logErr (rpErr m.2 r 0x05 false (some pa)) m.2

/-! ### Answers of the homes -/

/-- A data flit reaches the port. -/
def rpData (r : Nat) (f : Flit) (s : State) : State :=
  let x := rp s r
  match x.lines.find? (fun y => y.txn = f.txn) with
  | some y =>
    let y : RpLine := { y with gotData := true, gotComp := y.gotComp || f.comp, st := if f.st = St.m then St.m else St.e, data := f.data, poison := f.poison }
    if y.gotComp then rpRun r (rpLineGot r y s)
    else updRp r (fun x => { x with lines := x.lines.map (fun z => if z.line = y.line then y else z) }) s
  | none =>
    match x.cxlReq.find? (fun q => q.txn = some f.txn) with
    | some q =>
      let n := { q with gotData := true, gotComp := q.gotComp || f.comp || decide (q.op = 0), val := f.data, valP := f.poison }
      let s := updRp r (fun x => { x with cxlReq := x.cxlReq.map (fun y => if y = q then n else y) }) s
      if n.gotComp then rpRun r (cxlGot r n (if q.op = 0 then rpAnswered r f s else s)) else s
    | none =>
      match x.ops.find? (fun o => o.txn = some f.txn) with
      | some o =>
        let s := rpAnswered r f s
        let s := if f.poison && decide (r < 12) then logErr (rpErr s r 0x08 true (some o.pa)) s else s
        let v := (f.data.toNat / 256 ^ (o.pa % 64)) % 256 ^ o.size * 256 ^ o.at_
        rpRun r (opDone r o false f.poison v s)
      | none => s

/-- Comp reaches the port. -/
def rpComp (r : Nat) (f : Flit) (s : State) : State :=
  let x := rp s r
  match x.lines.find? (fun y => y.txn = f.txn) with
  | some y =>
    let y := { y with gotComp := true }
    if y.gotData then rpRun r (rpLineGot r y s)
    else updRp r (fun x => { x with lines := x.lines.map (fun z => if z.line = y.line then y else z) }) s
  | none =>
    match x.cxlReq.find? (fun q => q.txn = some f.txn) with
    | some q =>
      if q.op = 3 ∨ q.gotData = true then rpRun r (cxlGot r q s)
      else if q.op = 4 then rpRun r (cxlGot r q (rpAnswered r f s))
      else updRp r (fun x => { x with cxlReq := x.cxlReq.map (fun y => if y = q then { q with gotComp := true } else y) }) s
    | none =>
      match x.ops.find? (fun o => o.txn = some f.txn) with
      | some o => rpRun r (opDone r o false false 0 (rpAnswered r f s))
      | none => s

/-- An announced line is acknowledged: the posted writes that it carried are done (R181). -/
def rpEvictAck (r : Nat) (f : Flit) (s : State) : State :=
  let x := rp s r
  let s := rpAnswered r f s
  let s := updRp r (fun x => { x with wb := x.wb.filter (fun e => e.txn ≠ f.txn), acks := x.acks.filter (fun a => a.1 ≠ f.txn) }) s
  let s := (x.acks.filter (fun a => a.1 = f.txn)).foldl (fun s a => tlpPart r a.2 false false 0 s) s
  let s := match x.cxlReq.find? (fun q => q.txn = some f.txn) with
    | some q => if q.op = 6 then devSend r (.go q.pa 0 none) (cxlEnd r q s) else cxlEnd r q s
    | none => s
  rpRun r s

/-- A request of the port is answered with Fault: a posted write is dropped, a non-posted TLP gets Unsupported Request
(R338). -/
def rpFault (r : Nat) (f : Flit) (s : State) : State :=
  let x := rp s r
  let s := rpAnswered r f s
  let s := if 20 ≤ r then s else logErr { rpErr s r (if r < 12 then 0x05 else 0x07) (f.cause = cDOMAIN_OFF) (some f.addr) with
      frame := if r < 12 then frRp r else frBh, part := f.part, fpart := f.part } s
  match x.wb.find? (fun e => e.txn = f.txn) with
  | some _ => rpEvictAck r f s
  | none =>
    let s := (x.ops.filter (fun o => o.txn = some f.txn)).foldl (fun s o => opDone r o true false 0 s) s
    let s := updRp r (fun x => { x with lines := x.lines.filter (fun y => y.txn ≠ f.txn) }) s
    let s := match x.cxlReq.find? (fun q => q.txn = some f.txn) with
      | some q => devSend r (.go q.pa 4 none) (cxlEnd r q s)
      | none => s
    rpRun r s

/-- The interrupt controller has answered an IntMsg. -/
def rpIoComp (r : Nat) (f : Flit) (s : State) : State :=
  match (rp s r).ops.find? (fun o => o.txn = some f.txn ∧ o.kind = .msi) with
  | some o => rpRun r (opDone r o false false 0 (rpAnswered r f s))
  | none => s

/-- A home refuses a request of the port, and has queued it or not (R171, R175). -/
def rpRetry (r : Nat) (f : Flit) (s : State) : State :=
  if (rp s r).reqs.any (fun q => q.txn = f.txn) then
    let x := home s (agUnit f.src)
    let queued := (x.rq ++ x.rsv).any (fun e => decide (e.src = f.dst) && decide (e.txn = f.txn))
    updRp r (fun x => { x with refused := x.refused ++ [(f.txn, agUnit f.src, b2n queued)] }) s
  else s

/-- A credit is granted: the refused request is sent again with RSV (R173). -/
def rpCredit (r : Nat) (f : Flit) (s : State) : State :=
  match (rp s r).reqs.find? (fun q => q.txn = f.txn) with
  | some q => send { q with rsv := true } (updRp r (fun x => { x with
      refused := x.refused.map (fun e => if e.1 = f.txn then (e.1, e.2.1, 2) else e) }) s)
  | none => s

/-! ### Snoops (R180, R343) -/

/-- Answer a snoop with state I and no data. -/
def rpSnpNone (r : Nat) (f : Flit) (s : State) : State := send { rsp oSnpRsp (dmaAgent r) f.src f.txn f with st := .i } s

/-- A snoop reaches the port: answered from the write-back buffer, by the CXL.cache device, or with state I. -/
def rpSnoop (r : Nat) (f : Flit) (s : State) : State :=
  let x := rp s r
  let l := lineOf f.addr
  match x.wb.find? (fun e => decide (e.line = l) && !e.gone) with
  | some e =>
    let s := wbAnswer (dmaAgent r) e f s
    updRp r (fun x => { x with wb := x.wb.map (fun y => if y.txn = e.txn then { y with gone := true } else y) }) s
  | none =>
    if x.cxl.contains l then
      let s := updRp r (fun y => { y with csnp := y.csnp ++ [f], ops := y.ops.map (fun o => if lineOf o.pa = l ∧ opJoins x o = true then { o with ahead := true } else o) }) s
      if x.recl.contains l || x.csnp.any (fun q => decide (lineOf q.addr = l)) then s else devSend r (.snp (64 * l) (f.op = oSnpCur)) s
    else rpSnpNone r f s

/-- The device has given a recalled line up, with dirty data or none (R344). Dirty data is a copy that the port uses: it executes
the parts queued for the line, with a home snoop waiting those queued before it, announces the line, and then answers the snoop
(R179, R180). -/
def cxlGiven (r l : Nat) (dirty : Bool) (v : Line) (poison : Bool) (s : State) : State :=
  let x := rp s r
  let q := x.csnp.find? (fun f => lineOf f.addr = l)
  let os := x.ops.filter (fun o => decide (lineOf o.pa = l) && o.txn.isNone && (if q.isSome then o.ahead else opJoins x o))
  let s := updRp r (fun x => { x with cxl := x.cxl.erase l, recl := x.recl.erase l, csnp := x.csnp.filter (fun f => lineOf f.addr ≠ l) }) s
  let ans := fun (s : State) => (x.csnp.filter (fun f => lineOf f.addr = l)).foldl (fun s f => rpSnoop r f s) s
  if !(x.cxl.contains l) then ans s
  else if dirty && (!os.isEmpty || q.isNone) then
    let a := lineOps r os (v, poison, true, []) s
    let t := rpAnnounce (rpPart s r) r l true a.1.1 a.1.2.1 a.2
    ans (updRp r (fun y => { y with acks := y.acks ++ a.1.2.2.2.map (fun n => (t.1, n)) }) t.2)
  else match q with
    | some f => if dirty then wbAnswer (rpAgent r) { line := l, st := .m, data := v, poison := poison } f s else rpSnpNone r f s
    | none => (rpAnnounce (rpPart s r) r l false v poison s).2

/-- The device's answer to the oldest snoop of a line, the port's recall before a home's snoop, with dirty data or none. -/
def cxlAnswer (r pa : Nat) (dirty : Bool) (v : Line) (poison : Bool) (s : State) : State :=
  let x := rp s r
  let l := lineOf pa
  if x.recl.contains l then rpRun r (cxlGiven r l dirty v poison s)
  else match x.csnp.find? (fun f => lineOf f.addr = l) with
  | some f =>
    let s := updRp r (fun x => { x with csnp := x.csnp.erase f }) s
    let e : WbEnt := { line := l, st := if dirty then .m else .e, data := v, poison := poison }
    let s := if f.op = oSnpCur then
        (if dirty then send { rsp oSnpRsp (rpAgent r) f.src f.txn f with st := .e, fwdd := true } (forward (rpAgent r) f oDataCopy .i v poison s)
         else send { rsp oSnpRsp (rpAgent r) f.src f.txn f with st := .e } s)
      else
        let s := updRp r (fun x => { x with cxl := x.cxl.erase l }) s
        if dirty then wbAnswer (rpAgent r) e f s else rpSnpNone r f s
    let s := match (rp s r).csnp.find? (fun q => lineOf q.addr = l) with
      | some q =>
        if (rp s r).cxl.contains l then devSend r (.snp (64 * l) (q.op = oSnpCur)) s
        else rpSnpNone r q (updRp r (fun x => { x with csnp := x.csnp.erase q }) s)
      | none => s
    rpRun r s
  | none => s

/-! ### CXL.mem (R342, R353) -/

/-- Does the HDM decoder that an address's slab names cover the slab (R342)? -/
def hdmCovers (s : State) (r pa : Nat) : Bool :=
  let n := slDslab (slabEnt s (slabOf pa)) / 16
  let b := fld s (frRp r) (0x200 + 0x10 * n) 0 14
  decide (n < 8) && decide (b ≤ slabOf pa) && decide (slabOf pa < b + fld s (frRp r) (0x208 + 0x10 * n) 0 14)

/-- The device of a port answers the oldest request for a line, or does not (`none`): then the home receives poisoned
data, and a write is discarded. A decoder that does not cover the address, a disabled one too, sends the device no request. -/
def cxlMem (r pa : Nat) (wr : Option Bool) (ans : Option (Line × Bool)) (ty : Nat) (s : State) : State :=
  if cxlPort s pa ≠ some r then s
  else match memFirst s pa (fun q => decide (wr.getD q.wr = q.wr)) with
    | none => s
    | some q =>
      let dead := (rpLink (rp s r) 0).dpc || !(rpLink (rp s r) 0).dlup || !(hdmCovers s r pa)
      let a := if dead then none else ans
      let bad := match a with
        | some e => e.2 && !q.wr
        | none => true
      let s := if bad then logErr { rpErr s r (if a.isSome then 0x08 else ty) true (some pa) with part := linePart s pa } s else s
      if q.wr then memWriteDone q s
      else match a with
        | some e => memReadDone q e.1 e.2 s
        | none => memReadDone q 0 true s

/-- The requests that wait for a CXL.mem device whose link is contained are answered (R353). -/
def cxlMemDead (r : Nat) (s : State) : State :=
  if (rpLink (rp s r) 0).dpc then
    (s.memq.filter (fun q => cxlPort s q.pa = some r)).foldl (fun s q => cxlMem r q.pa none none 0x07 s) s
  else s

/-! ### Outbound requests (R336, R337) -/

/-- Answer a request: data to DATADST, or IoComp to the sender. -/
def ioAnswer (f : Flit) (err : Bool) (v : Nat) (s : State) : State :=
  if f.op = oIoRd ∨ f.op = oCfgRd then
    let n := 2 ^ f.size
    send { dat oIoData f.dst f.datadst f.datatxn f (BitVec.ofNat 512 ((if err then 256 ^ n - 1 else v % 256 ^ n) * 256 ^ (f.addr % 64))) false with comp := true } s
  else send { rsp oIoComp f.dst f.src f.txn f with err := err } s

/-- An outbound request is answered without the device: all ones or ERR, and a record (R336). -/
def outFail (r ty : Nat) (consq : Bool) (f : Flit) (s : State) : State :=
  logErr { rpErr s r ty consq (some f.addr) with agent := some f.src } (ioAnswer f true 0 s)

/-- Bits of a configuration double word of a link function that software writes: command, bus numbers, windows, bridge
control, the MSI capability at 0x50 and Slot Control at 0x88. -/
def cfgMask (off : Nat) : Nat :=
  match off with
  | 0x04 => 0x0547 | 0x18 => 0x00FFFFFF | 0x20 => 0xFFF0FFF0 | 0x24 => 0xFFF0FFF0 | 0x28 => 0xFFFFFFFF | 0x2C => 0xFFFFFFFF
  | 0x3C => 0x00430000 | 0x50 => 0x00010000 | 0x54 => 0xFFFFFFFC | 0x58 => 0xFFFFFFFF | 0x5C => 0xFFFF | 0x88 => 0x1FFF
  | _ => 0

/-- A configuration double word of link function `l`; Slot Status stands above Slot Control. -/
def cfgRead (s : State) (r l off : Nat) : Nat :=
  let m := cfgMask off
  let v := mget (rp s r).cfg (4096 * l + off)
  if off = 0x88 then v % 65536 + (rpLink (rp s r) l).slotSta * 65536
  else (v &&& m) + (Config.rpCfg (4 * r + l) off % 2 ^ 32 &&& (0xFFFFFFFF - m))

/-- Link function `l` sends its MSI, when enabled (R333): as an IntMsg of the owner of the port. -/
def fnMsi (r l : Nat) (s : State) : State :=
  let a := mget (rp s r).cfg (4096 * l + 0x54) + mget (rp s r).cfg (4096 * l + 0x58) * 2 ^ 32
  match imOf a with
  | some (h, _) =>
    if bit (mget (rp s r).cfg (4096 * l + 0x50)) 16 ∧ hartPart s h = rpPart s r ∧ rpPart s r ≠ 15 then
      tlpAdd r l 0 true [{ kind := .msi, pa := a, size := 4, data := BitVec.ofNat 512 (mget (rp s r).cfg (4096 * l + 0x5C) * 256 ^ (a % 64)), dst := h / 144 }] s
    else s
  | none => s

/-- A slot or link event: bit `i` of Slot Status is set, and the function signals it when `en` and the hot-plug interrupt
are enabled; on a port that no partition owns it goes to the Cox, which reports it to the manager (R351, R352). -/
def slotEvent (r l i en : Nat) (s : State) : State :=
  let s := updRpLink r l (fun x => { x with slotSta := putBit x.slotSta i true }) s
  if rpPart s r = 15 then { s with reports := s.reports ++ [(r, l)] }
  else
    let c := mget (rp s r).cfg (4096 * l + 0x88)
    if bit c en && bit c 5 then fnMsi r l s else s

/-- A write of Slot Control: the port drives the slot's pins (R351). -/
def slotWrite (r l v : Nat) (s : State) : State :=
  if r < 12 ∧ linkLanes s r l ≠ 0 ∧ rpPair s r = false then
    devSend r (.slot l (v % 0x2000)) (updRp r (fun x => { x with cfg := mset x.cfg (4096 * l + 0x88) (v % 0x2000) }) s)
  else s

/-- A write of bytes of a configuration double word. -/
def cfgWrite (r l off : Nat) (mask v : Nat) (s : State) : State :=
  if off = 0x88 then
    let s := updRpLink r l (fun x => { x with slotSta := x.slotSta - (x.slotSta &&& (v &&& mask) / 65536 &&& 0x011B) }) s
    if mask % 65536 = 0 then s
    else slotWrite r l ((mget (rp s r).cfg (4096 * l + 0x88) &&& (0xFFFF - mask % 65536)) + (v &&& mask) % 65536) s
  else
    let m := cfgMask off &&& mask
    let old := mget (rp s r).cfg (4096 * l + off)
    updRp r (fun x => { x with cfg := mset x.cfg (4096 * l + off) (old - (old &&& m) + (v &&& m)) }) s

/-- The link whose bridge windows or bus numbers claim an outbound request: `cfg` with its bus, else its address. -/
def claimLink (s : State) (r : Nat) (cfg : Option Nat) (pa : Nat) : Option Nat :=
  (List.range 4).find? (fun l => decide (linkLanes s r l ≠ 0) &&
    (let g := fun (o : Nat) => mget (rp s r).cfg (4096 * l + o)
     match cfg with
     | some bus => decide (bits (g 0x18) 8 8 ≤ bus) && decide (bus ≤ bits (g 0x18) 16 8) && decide (bits (g 0x18) 8 8 ≠ 0)
     | none => bit (g 0x04) 1 &&
       ((decide (bits (g 0x20) 4 12 ≤ pa / 2 ^ 20) && decide (pa / 2 ^ 20 ≤ bits (g 0x20) 20 12)) ||
        (decide (bits (g 0x24) 4 12 + g 0x28 * 4096 ≤ pa / 2 ^ 20) && decide (pa / 2 ^ 20 ≤ bits (g 0x24) 20 12 + g 0x2C * 4096)))))

/-- Lowest free outbound tag. -/
def outTag (x : Rp) : Nat := ((List.range 256).find? (fun t => x.out.all (fun o => o.tag ≠ t))).getD 0

/-- An outbound request goes to link `l`; a memory write is posted and answered at once. -/
def outSend (r l : Nat) (cfg : Bool) (f : Flit) (s : State) : State :=
  let x := rp s r
  let wr := f.op = oIoWr || f.op = oCfgWr
  let v := (f.data.toNat / 256 ^ (f.addr % 64)) % 256 ^ (2 ^ f.size)
  if (rpLink x l).dpc ∨ (rpLink x l).dlup = false then outFail r 0x09 (rpLink x l).dpc f s
  else if wr && !cfg then ioAnswer f false 0 (devSend r (.req l 0 cfg true f.addr (2 ^ f.size) v) s)
  else if 256 ≤ x.out.length then updRp r (fun x => { x with outq := x.outq ++ [f] }) s
  else
    let t := outTag x
    devSend r (.req l t cfg wr f.addr (2 ^ f.size) (if wr then v else 0)) (updRp r (fun x => { x with out := x.out ++ [{ tag := t, link := l, f := f }] }) s)

/-- A request for a window or the configuration space of a port (R333, R336, R337). -/
def rpIo (r : Nat) (f : Flit) (s : State) : State :=
  let wr := f.op = oIoWr || f.op = oCfgWr
  match ioTarget f.addr with
  | .ecam q off =>
    if q ≠ r ∨ rpPair s r = true then ioAnswer f true 0 s
    else if off < 2 ^ 20 then
      let l := off / 2 ^ 15
      if linkLanes s r l = 0 ∨ off % 2 ^ 15 ≥ 4096 then ioAnswer f true 0 s
      else
        let o := off % 4096
        let n := 2 ^ f.size
        if wr then
          let v := (f.data.toNat / 256 ^ (f.addr % 64)) % 256 ^ n * 256 ^ (o % 4)
          let m := (256 ^ n - 1) * 256 ^ (o % 4)
          let s := cfgWrite r l (o / 4 * 4) (m % 2 ^ 32) (v % 2 ^ 32) s
          let s := if 2 ^ 32 ≤ m then cfgWrite r l (o / 4 * 4 + 4) (m / 2 ^ 32) (v / 2 ^ 32) s else s
          ioAnswer f false 0 s
        else ioAnswer f false ((cfgRead s r l (o / 4 * 4) + cfgRead s r l (o / 4 * 4 + 4) * 2 ^ 32) / 256 ^ (o % 4)) s
    else match claimLink s r (some (off / 2 ^ 20)) f.addr with
      | some l => outSend r l true f s
      | none => ioAnswer f true 0 s
  | .rpMem q _ _ =>
    if q ≠ r then ioAnswer f true 0 s
    else match claimLink s r none f.addr with
      | some l => outSend r l false f s
      | none => outFail r 0x09 false f s
  | _ => ioAnswer f true 0 s

/-- Requests that waited for room go out in their order, as far as there is room again (R238, R336). -/
def outNext (r : Nat) (s : State) : State :=
  (rp s r).outq.foldl (fun s f => rpIo r f s) (updRp r (fun x => { x with outq := [] }) s)

/-- The completion of an outbound request, or its timeout (R336). -/
def outDone (r tag : Nat) (ans : Option (Bool × Nat)) (s : State) : State :=
  match (rp s r).out.find? (fun o => o.tag = tag) with
  | none => s
  | some o =>
    let s := updRp r (fun x => { x with out := x.out.filter (fun y => y.tag ≠ tag) }) s
    match ans with
    | some (ok, v) => outNext r (ioAnswer o.f (!ok) v s)
    | none => outNext r (outFail r 0x04 true o.f s)

/-! ### Links (R351 to R353) -/

/-- A link trains and reports Data Link Layer Active. -/
def pcieUp (r l speed width : Nat) (cxl : Bool) (s : State) : State :=
  let lanes := linkLanes s r l
  if 12 ≤ r ∨ lanes = 0 ∨ speed = 0 ∨ width = 0 then s
  else
    let sp := min speed (fld s (frRp r) 0 8 3)
    let s := updRpLink r l (fun x => { x with speed := sp, width := min width lanes, dlup := true, present := true, dpc := false, cxl := cxl && decide (l = 0) && decide (4 ≤ min width lanes) })  s
    slotEvent r l 8 12 s

/-- A slot pin changes: 0 attention button, 1 power fault, 3 presence detect (R351). -/
def slotPin (r l pin : Nat) (level : Bool) (s : State) : State :=
  if 12 ≤ r ∨ linkLanes s r l = 0 ∨ !([0, 1, 3].contains pin) then s
  else
    let was := bit (rpLink (rp s r) l).pins pin
    let s := updRpLink r l (fun x => { x with pins := putBit x.pins pin level, present := if pin = 3 then level else x.present,
                                              slotSta := if pin = 3 then putBit x.slotSta 6 level else x.slotSta }) s
    if was = level ∨ (pin ≠ 3 ∧ level = false) then s else slotEvent r l pin pin s

/-- A link goes down without warning: DPC contains it (R353). Each effect that comes about makes a record. -/
def linkDown (r l : Nat) (s : State) : State :=
  let x := rp s r
  if 12 ≤ r ∨ (rpLink x l).dlup = false then s
  else
    let recd := fun (some_ : Bool) (n : Nat) (s : State) => if some_ then logErr { rpErr s r 0x03 true none with info := n } s else s
    let s := logErr (rpErr s r 0x03 false none) s
    let s := updRpLink r l (fun y => { y with dpc := true, dlup := false, speed := 0, width := 0 }) s
    let mine := x.out.filter (fun o => o.link = l)
    let s := updRp r (fun y => { y with out := y.out.filter (fun o => o.link ≠ l) }) s
    let s := outNext r (mine.foldl (fun s o => outFail r 0x09 true o.f s) s)
    let dead := fun (n : Nat) => x.tlps.any (fun t => decide (t.seq = n) && decide (t.link = l))
    let s := recd (x.ops.any (fun o => o.link = l ∧ o.txn.isSome = true)) 2 s
    let s := updRp r (fun y => { y with tlps := y.tlps.map (fun t => if t.link = l then { t with dead := true } else t) }) s
    let stop := x.ops.filter (fun o => o.link = l && (o.txn.isNone || o.kind = .wpart || o.kind = .atom))
    let s := recd (stop.any (fun o => o.kind = .wpart ∨ o.kind = .atom)) 3 s
    let s := stop.foldl (fun s o => opDone r o true false 0 s) s
    let s := updRp r (fun y => { y with tlps := y.tlps.filter (fun t => !(dead t.seq) || y.ops.any (fun o => o.seq = t.seq) || y.acks.any (fun a => a.2 = t.seq)) }) s
    let s := if l = 0 then
        let tracked := x.cxl
        let snps := x.csnp
        let s := updRp r (fun y => { y with cxl := [], csnp := [], recl := [], cxlReq := y.cxlReq.filter (fun q => q.txn.isSome) }) s
        let s := recd (!tracked.isEmpty) 4 s
        let s := snps.foldl (fun s f => wbAnswer (rpAgent r) { line := lineOf f.addr, st := .m, poison := true } f s) s
        (tracked.filter (fun n => !(snps.any (fun f => lineOf f.addr = n)))).foldl (fun s n => (rpAnnounce (rpPart s r) r n true 0 true s).2) s
      else s
    let s := slotEvent r l 8 12 s
    rpRun r (cxlMemDead r s)

/-- The CXL.cache device has not answered a snoop (R345): the port answers for it, with poison, and contains the link. -/
def cxlTimeout (r pa : Nat) (s : State) : State :=
  let x := rp s r
  let l := lineOf pa
  if x.csnp.any (fun f => lineOf f.addr = l) ∨ x.recl.contains l = true then
    let s := logErr (rpErr s r 0x07 true (some pa)) s
    let s := match x.csnp.find? (fun f => lineOf f.addr = l) with
      | some f =>
        let s := updRp r (fun y => { y with csnp := y.csnp.erase f, cxl := y.cxl.erase l, recl := y.recl.erase l }) s
        send { rsp oSnpRsp (rpAgent r) f.src f.txn f with st := .i, wb := true } (snpData (rpAgent r) f 0 true 0 s)
      | none => s
    linkDown r 0 s
  else s

/-- A hot reset of the links of a port, with its IOMMU instance (Table 9.9 step 2): the devices' work is gone, and the links
train again. -/
def rpReset (r : Nat) (s : State) : State :=
  updRp r (fun x => { x with tlps := [], ops := [], lines := [], acks := [], out := [], outq := [], cxl := [], cxlReq := [], csnp := [], recl := [], iommu := [], cfg := [], reqs := x.reqs.filter (fun f => x.wb.any (fun e => e.txn = f.txn)), links := x.links.map (fun l => { present := l.present, pins := l.pins }) }) s

/-! ### The IOMMU instance's registers (R346) -/

/-- `capabilities` of Table 10.7: version 1.0, Sv39 to Sv57 and their x4 forms, flat MSI, AMO of A and D bits, ATS, the debug
interface, interrupts as MSI, 52-bit addresses, PD8, PD17 and PD20, an HPM. -/
def ioCaps : Nat := 0x10 + (0x7 <<< 9) + (0x7 <<< 17) + (1 <<< 22) + (1 <<< 24) + (1 <<< 25) + (1 <<< 30) + (1 <<< 31) + (52 <<< 32) + (0x7 <<< 38)

/-- A read of the instance's registers at an offset of the port's frame. -/
def ioRegRead (s : State) (r off : Nat) : Nat := if off = 0x1000 then ioCaps else (mget (rp s r).iommu (off - 0x1000)).toNat

/-- A write of the instance's registers. A queue that is enabled is on at once; commands complete at once, for the
translations they invalidate are not held here. -/
def ioRegWrite (r off v : Nat) (s : State) : State :=
  let o := off - 0x1000
  let old := (mget (rp s r).iommu o).toNat
  let csr := fun (old v : Nat) => let w1c := old &&& v &&& 0x700; (v &&& 3) + ((old &&& 0x700) - w1c) + (v &&& 1) * 65536
  let n := match o with
    | 0x00 => old
    | 0x10 => if bits v 0 4 ≤ 4 then v &&& 0x3FFFFFFFFFFC0F else old
    | 0x20 => setBits v 0 32 (bits v 32 32)
    | 0x30 => setBits v 32 32 (bits old 32 32)
    | 0x40 => setBits v 32 32 (bits old 32 32)
    | 0x48 => csr (bits old 0 32) (bits v 0 32) + csr (bits old 32 32) (bits v 32 32) * 2 ^ 32
    | 0x50 => csr (bits old 0 32) (bits v 0 32) + (bits old 32 32 - (bits old 32 32 &&& bits v 32 32)) * 2 ^ 32
    | _ => v
  updRp r (fun x => { x with iommu := mset x.iommu o (BitVec.ofNat 64 n) }) s

/-- A device asks for a translation (R346): answered by a walk, refused in Off and Bare mode. -/
def atsRequest (r rid iova : Nat) (xl : Option Nat) (s : State) : State :=
  match rpGate s r 0 false with
  | none => s
  | some (some e) => logErr { rpErr s r e.1 false (some iova) with part := e.2, fpart := e.2 } (devSend r (.ats rid iova none) s)
  | some none =>
    if ioMode s r < 2 then ioQueue r true (leBytes 32 (260 + rid * 2 ^ 40 + iova * 2 ^ 128)) (logErr (rpErr s r 0x06 false (some iova)) (devSend r (.ats rid iova none) s))
    else devSend r (.ats rid iova xl) s

/-- A device's page request enters the instance's page-request queue (R346). -/
def pageRequest (r rid iova grp : Nat) (s : State) : State :=
  match rpGate s r 0 false with
  | some none => ioQueue r false (leBytes 16 (rid * 2 ^ 40 + (4 + grp % 512 * 8 + iova / 4096 * 4096) * 2 ^ 64)) s
  | some (some e) => logErr { rpErr s r e.1 false (some iova) with part := e.2, fpart := e.2 } s
  | none => s

end Sys2Proof.Machine
end

