-- ==== Sys2Proof/Machine/BhOps.lean ====
section
/-! DEFINITION. The Boathouse: virtual functions, completions, the extent map, range locks and the write path
(R360 to R396).
Log entries with the choices and readings made here: 141, 142, 143, 144, 146, 208. -/

namespace Sys2Proof.Machine

/-! ### Parts -/

/-- VF `v`. -/
def vf (s : State) (v : Nat) : Vf := mget s.bh.vfs v
/-- Does a VF exist? -/
def vfIs (s : State) (v : Nat) : Bool := (mfind s.bh.vfs v).isSome
/-- Change the Boathouse. -/
def updBh (g : Bh → Bh) (s : State) : State := { s with bh := g s.bh }
/-- Change a VF. -/
def updVf (v : Nat) (g : Vf → Vf) (s : State) : State := updBh (fun b => { b with vfs := mupd b.vfs v g }) s
/-- Slot `n`. -/
def slot (s : State) (n : Nat) : Option Slot := s.bh.slots.find? (fun x => x.n = n)
/-- Change a slot. -/
def updSlot (n : Nat) (g : Slot → Slot) (s : State) : State :=
  updBh (fun b => { b with slots := b.slots.map (fun x => if x.n = n then g x else x) }) s
/-- Number of a VF's admin slot. -/
def admSlot (v : Nat) : Nat := 8192 + v
/-- I/O command slots in use. -/
def slotsUsed (s : State) : Nat := (s.bh.slots.filter (fun x => x.n < 8192)).length
/-- Occupancy of a VF (R384). -/
def occ (s : State) (v : Nat) : Nat := (s.bh.slots.filter (fun x => x.n < 8192 && decide (x.vf = v))).length
/-- Sum of the guarantees. -/
def guarSum (s : State) : Nat := s.bh.vfs.foldl (fun n e => n + e.2.guar) 0
/-- Queue pairs allotted. -/
def qpSum (s : State) : Nat := s.bh.vfs.foldl (fun n e => n + e.2.nqp) 0
/-- Sum of the greater of occupancy and guarantee: FREE of R385 is 8,192 less this. -/
def heldSum (s : State) : Nat := s.bh.vfs.foldl (fun n e => n + max (occ s e.1) e.2.guar) 0
/-- VFs of a partition. -/
def vfsOf (s : State) (p : Nat) : List Nat := (s.bh.vfs.filter (fun e => e.2.owner = p)).map (·.1)
/-- A record of the Boathouse (Table 11.13). -/
def bhErr (ty cls p : Nat) (addr : Option Nat) : Err :=
  { frame := frBh, ty := ty, cls := cls, part := p, addr := addr, fpart := 15 }

/-- The data mover that serves a VF, and the VF's order class there. -/
def bhEng (v : Nat) : Nat := 16 + v % 4
def bhLink (v : Nat) : Nat := 256 + v
/-- Routing ID of a VF (R364). -/
def vfRid (v : Nat) : Nat := (1 + v / 256) * 256 + v % 256

/-- The address that the owner's IOMMU instance gives for an address in a page whose translation is known (R368). -/
def bhXl (s : State) (p iova : Nat) (page : Option Nat) : Option Nat :=
  match ioMode s (32 + p) with
  | 0 => none
  | 1 => some iova
  | _ => page.map (fun b => b / 4096 * 4096 + iova % 4096)

/-- A translation fault or Fault on DMA of a VF: the record, and the instance's fault queue when it translated (R368, R406). -/
def vfDmaFault (v : Nat) (iova : Nat) (xl : Bool) (s : State) : State :=
  let p := (vf s v).owner
  let s := logErr (bhErr 0x07 1 p (some iova)) s
  if xl then
    let c := if ioMode s (32 + p) = 0 then (256, s) else let q := drawNat s; (q.1 % 4096, q.2)
    ioQueueAt (32 + p) (bhEng v) p true (leBytes 32 (c.1 + (0x0C0000 + vfRid v) * 2 ^ 40 + iova * 2 ^ 128)) c.2
  else s

/-- Write host memory for a VF: the data mover's number for it, and the state. -/
def hostWrite (v : Nat) (relaxed : Bool) (pa n val : Nat) (s : State) : Nat × State :=
  let r := bhEng v
  let bs := leBytes n val
  ((rp s r).seq, dmaAdd (vf s v).owner r (bhLink v) 0 true ((tlpParts pa n).map (fun e =>
    let q := partLine e.1 e.2.1 e.2.2 bs
    { kind := if e.2.1 = 64 then RpKind.wfull else RpKind.wpart, pa := e.1, size := e.2.1, at_ := e.2.2, mask := q.1, data := q.2,
      relaxed := relaxed })) s)

/-- Read host memory for a VF with RdOnce; the data comes back under `tag`. -/
def hostRead (v tag pa n : Nat) (s : State) : State :=
  dmaAdd (vf s v).owner (bhEng v) (bhLink v) tag false ((tlpParts pa n).map (fun e =>
    { kind := RpKind.read, pa := e.1, size := e.2.1, at_ := e.2.2, relaxed := true })) s

/-- Remember a write until the data mover has finished it. -/
def bhTrack (e : WrEnt) (s : State) : State := updBh (fun b => { b with wrq := b.wrq ++ [e] }) s

/-- The page of a write that the VF's dirty log is to name, if it is enabled (R404). -/
def dlPage (s : State) (v iova : Nat) : Option Nat := if (vf s v).dlog.isSome then some (iova / 4096 * 4096) else none

/-- A write is done: its page goes into the dirty log, or OVF counts it (R404). -/
def dlSet (v page : Nat) (s : State) : State :=
  match (vf s v).dlog with
  | none => s
  | some a =>
    let x := vf s v
    let r := bhEng v
    if x.dlBase ≤ page ∧ page < x.dlBase + 4096 * x.dlPages then
      let i := (page - x.dlBase) / 4096
      let pa := a + 64 + i / 8
      dmaAdd x.owner r (bhLink v) 0 true [{ kind := .setb, pa := pa, size := 1, data := BitVec.ofNat 512 (2 ^ (8 * (pa % 64) + i % 8)), relaxed := true }] s
    else dmaAdd x.owner r (bhLink v) (2 ^ 25) false [{ kind := .atom, pa := a + 16, size := 8, op := .fetchAdd, opnd := 1, relaxed := true }] s

/-! ### Interrupts (R369, R370) -/

/-- A double word of a VF's MSI-X table; the mask bit of each vector is set at reset. -/
def msixDw (x : Vf) (i : Nat) : Nat := if i % 4 = 3 then mget x.msix i ^^^ 1 else mget x.msix i
/-- MSI-X control of a VF, bits 15 enable and 14 function mask. -/
def msixCtl (x : Vf) : Nat := bits (mget x.cfg 0x90) 16 16

/-- Send the MSI-X message of a vector, or set its pending bit (R369): only an address of an interrupt file is sent, as
IntMsg. -/
def bhMsi (v vec : Nat) (s : State) : State :=
  let x := vf s v
  if bit (msixCtl x) 15 = false then s
  else if bit (msixCtl x) 14 ∨ bit (msixDw x (4 * vec + 3)) 0 = true then updVf v (fun x => { x with pba := putBit x.pba vec true }) s
  else
    let iova := msixDw x (4 * vec) + msixDw x (4 * vec + 1) * 2 ^ 32
    let s := updVf v (fun x => { x with pba := putBit x.pba vec false }) s
    let q := if ioMode s (32 + x.owner) < 2 then (none, s) else let q := drawNat s; (some q.1, q.2)
    match bhXl q.2 x.owner iova q.1 with
    | none => vfDmaFault v iova true q.2
    | some pa =>
      match imOf pa with
      | some (h, _) =>
        dmaAdd x.owner (bhEng v) (bhLink v) 0 true [{ kind := .msi, pa := pa, size := 4, data := BitVec.ofNat 512 (msixDw x (4 * vec + 2) * 256 ^ (pa % 64)), dst := h / 144 }] q.2
      | none => q.2

/-- A completion entry raises its queue's interrupt, which coalescing may hold. -/
def bhIrq (v cq : Nat) (s : State) : State :=
  let x := vf s v
  let c : Cq := mget x.cqs cq
  let thr := bits x.coal 0 8
  let tim := bits x.coal 8 8
  if c.ien = false then s
  else if cq = 0 ∨ thr = 0 ∨ tim = 0 ∨ mget x.ivc c.iv ≠ 0 then bhMsi v c.iv s
  else
    let n := mget x.irqs c.iv + 1
    if thr < n then bhMsi v c.iv (updVf v (fun x => { x with irqs := mset x.irqs c.iv 0 }) s)
    else updVf v (fun x => { x with irqs := mset x.irqs c.iv n }) s

/-- Every message that coalescing holds is sent. -/
def bhIrqAll (v : Nat) (s : State) : State :=
  (vf s v).irqs.foldl (fun s e => bhMsi v e.1 (updVf v (fun x => { x with irqs := mset x.irqs e.1 0 }) s)) s

/-! ### Completions (R369, R384, R423) -/

/-- Set CSTS.CFS. -/
def bhFatal (v : Nat) (s : State) : State := updVf v (fun x => { x with cfs := true }) s

/-- The translation of an offset of a queue whose pages are known. -/
def queueXl (s : State) (p base off : Nat) (pages : List (Option Nat)) : Option Nat :=
  bhXl s p (base + off) ((pages[off / 4096]?).getD none)

/-- Write a completion entry (16 bytes) at a completion queue's tail. -/
def cqWrite (v cq : Nat) (c : Cpl) (s : State) : State :=
  let x := vf s v
  let k : Cq := mget x.cqs cq
  let iova := k.base + 16 * k.tail
  match queueXl s x.owner k.base (16 * k.tail) k.pages with
  | none => bhFatal v (vfDmaFault v iova true s)
  | some pa =>
    let e := c.dw0 % 2 ^ 32 + ((mget x.sqs c.q).head % 2 ^ 16) * 2 ^ 64 + c.q * 2 ^ 80 + (c.cid % 2 ^ 16) * 2 ^ 96 + (b2n k.phase) * 2 ^ 112 + c.status * 2 ^ 113
    let last := decide (k.tail + 1 = k.size)
    let s := updVf v (fun x => { x with cqs := mset x.cqs cq { k with tail := if last then 0 else k.tail + 1, phase := k.phase != last } }) s
    let w := hostWrite v false pa 16 e s
    bhIrq v cq (bhTrack { eng := bhEng v, seq := w.1, vf := v, slot := c.slot, page := dlPage s v iova, cqe := true } w.2)

/-- Write the completion entries of a queue that nothing holds back: room in the queue, and the pair's epoch (R423). -/
def cqRun : Nat → Nat → Nat → State → State
  | 0, _, _, s => s
  | n + 1, v, cq, s =>
    let x := vf s v
    let k : Cq := mget x.cqs cq
    match mget x.cpls cq with
    | [] => s
    | c :: t =>
      let held := pairHolds s x.owner && decide (pairCommit s x.owner < c.epoch)
      if held ∨ x.cfs = true ∨ k.size = 0 ∨ (k.tail + 1) % k.size = k.head then s
      else cqRun n v cq (cqWrite v cq c (updVf v (fun x => { x with cpls := mset x.cpls cq t }) s))

/-- Completion queue of a submission queue. -/
def sqCq (x : Vf) (q : Nat) : Nat := if q = 0 then 0 else (mget x.sqs q).cq

/-- Post a completion. -/
def bhPost (v : Nat) (c : Cpl) (s : State) : State :=
  let x := vf s v
  let cq := sqCq x c.q
  let c := { c with epoch := (pairP s x.owner).epoch }
  let s := updVf v (fun x => { x with cpls := mset x.cpls cq (mget x.cpls cq ++ [c]) }) s
  cqRun ((mget x.cpls cq).length + 1) v cq s

/-- Everything that waits for a completion queue of a partition's VFs goes on (R423). -/
def bhRelease (p : Nat) (s : State) : State :=
  (vfsOf s p).foldl (fun s v => (vf s v).cpls.foldl (fun s e => cqRun (e.2.length + 1) v e.1 s) s) s

/-- An asynchronous event is reported with an outstanding request, or waits for one (R370). -/
def vfEvent (v dw0 : Nat) (s : State) : State :=
  let x := vf s v
  match x.aers with
  | cid :: t => bhPost v { q := 0, cid := cid, dw0 := dw0 } (updVf v (fun x => { x with aers := t }) s)
  | [] => if x.events.contains dw0 then s else updVf v (fun x => { x with events := x.events ++ [dw0] }) s

/-- A slot's command is complete with a status: its completion is posted and its locks are released; an error enters the
Error Information log. A command that an FLR met is discarded. -/
def slotPost (n st dw0 : Nat) (s : State) : State :=
  match slot s n with
  | none => s
  | some x =>
    if x.drop then updBh (fun b => { b with slots := b.slots.filter (fun y => y.n ≠ n) }) s
    else
      let s := updSlot n (fun x => { x with ph := .post, locks := false, status := st }) s
      let s := if st = 0 then s else updVf x.vf (fun y => { y with errN := y.errN + 1, errs := ({ n := y.errN + 1, q := x.q, cid := x.e.cid, status := st, lba := x.e.lba, nsid := x.e.nsid } :: y.errs).take 64 }) s
      bhPost x.vf { q := x.q, cid := x.e.cid, status := st, dw0 := dw0, slot := some n } s

/-! ### The extent map (R375 to R378) -/

/-- A namespace. -/
def nsOf (s : State) (nsid : Nat) : NsDef := mget s.bh.nss nsid
/-- Number of a span. -/
def spanKey (nsid span : Nat) : Nat := nsid * 2 ^ 32 + span
/-- A block of a drive. -/
def blkKey (drv blk : Nat) : Nat := drv * 2 ^ 40 + blk
/-- Bytes of a logical block. -/
def nsBs (d : NsDef) : Nat := if d.fmt4k then 4096 else 512
/-- The bytes of its namespace that a command names. -/
def slotBytes (s : State) (x : Slot) : Nat × Nat :=
  let bs := nsBs (nsOf s x.e.nsid)
  (x.e.lba * bs, x.e.nlb * bs)
/-- The 4 KiB blocks that bytes touch. -/
def byteBlocks (r : Nat × Nat) : List Nat :=
  if r.2 = 0 then [] else (List.range ((r.1 + r.2 - 1) / 4096 - r.1 / 4096 + 1)).map (r.1 / 4096 + ·)
/-- Does a command cover a block whole? -/
def blockWhole (r : Nat × Nat) (b : Nat) : Bool := decide (r.1 ≤ 4096 * b) && decide (4096 * (b + 1) ≤ r.1 + r.2)
/-- Spans of blocks of a namespace. -/
def spansOf (nsid : Nat) (bs : List Nat) : List Nat := (bs.map (fun b => spanKey nsid (b / 512))).eraseDups
/-- The place of a block, in a map block that is held. -/
def mapEnt (s : State) (nsid b : Nat) : Option Nat :=
  match mget (mget s.bh.maps (spanKey nsid (b / 512))).ents (b % 512) with
  | 0 => none
  | l + 1 => some l
/-- Does a place lie in a pool range of a partition (R378)? -/
def inPool (s : State) (p loc : Nat) : Bool :=
  s.bh.pools.any (fun e => decide (e.2.part = p) && decide (blkKey e.2.drv e.2.first ≤ loc) && decide (loc < blkKey e.2.drv (e.2.first + e.2.count)))
/-- The lowest `k` free blocks of a partition's pool ranges; fewer when there are not so many. -/
def freeBlocks (s : State) (p k : Nat) : List Nat :=
  ((s.bh.pools.filter (fun e => e.2.part = p)).flatMap (fun e =>
    ((List.range e.2.count).map (fun i => blkKey e.2.drv (e.2.first + i))).filter (fun l => (mfind s.bh.alloc l).isNone))).take k
/-- Mark blocks as used by a namespace. -/
def allocate (nsid : Nat) (ls : List Nat) (s : State) : State :=
  updBh (fun b => { b with alloc := ls.foldl (fun m l => mins m l (nsid + 1)) b.alloc }) s
/-- Free blocks. -/
def release (ls : List Nat) (s : State) : State := updBh (fun b => { b with alloc := ls.foldl mdel b.alloc }) s

/-- The bytes of a map block (Table 11.5), as a little-endian number. -/
def mapBytes (nsuid span : Nat) (m : MapBlk) : Nat :=
  let body := nsuid % 2 ^ 64 + (span % 2 ^ 32) * 2 ^ 64 + (m.seq % 2 ^ 64) * 2 ^ 128 +
    m.ents.foldl (fun a e => a + (((e.2 - 1) % 2 ^ 40 + (e.2 - 1) / 2 ^ 40 * 2 ^ 40 + 2 ^ 47) * 2 ^ (8 * (1024 + 6 * e.1)))) 0
  body + crcNat 4096 body * 2 ^ 96
/-- The map block that bytes hold, when they pass the checks of R377. -/
def mapParse (nsuid span v : Nat) : Option MapBlk :=
  let body := v - bits v 96 32 * 2 ^ 96
  if bits v 0 64 = nsuid % 2 ^ 64 ∧ bits v 64 32 = span % 2 ^ 32 ∧ bits v 96 32 = crcNat 4096 body then
    some { seq := bits v 128 64,
           ents := (List.range 512).foldl (fun m i => let e := bits v (8 * (1024 + 6 * i)) 48; if bit e 47 then mins m i (bits e 0 46 + 1) else m) [] }
  else none

/-- Spans that a slot's work needs held. -/
def mapPinned (s : State) (key : Nat) : Bool :=
  s.bh.slots.any (fun x => x.ph ≠ .post && (x.got.contains key || x.spans.contains key))

/-- A map block enters the cache of 1,536 blocks; the least recently used one that nothing needs leaves. -/
def mapHold (key : Nat) (m : MapBlk) (s : State) : State :=
  let use_ := s.bh.mapUse.erase key ++ [key]
  let out := if 1536 < use_.length then use_.find? (fun k => decide (k ≠ key) && !(mapPinned s k)) else none
  match out with
  | some k => updBh (fun b => { b with maps := mset (mdel b.maps k) key m, mapUse := use_.erase k }) s
  | none => updBh (fun b => { b with maps := mset b.maps key m, mapUse := use_ }) s

/-- A span is lost (R377). -/
def spanLose (key : Nat) (s : State) : State :=
  updBh (fun b => { b with lostSp := if b.lostSp.contains key then b.lostSp else b.lostSp ++ [key], maps := mdel b.maps key, mapUse := b.mapUse.erase key }) s

/-! ### Backing commands and the proxy window (R379, R396) -/

/-- The lowest free pages of the window. -/
def freePages (s : State) (k : Nat) : List Nat :=
  ((List.range (s.bh.binds.length + k)).filter (fun i => (mfind s.bh.binds i).isNone && decide (i < 262144))).take k

/-- Runs of blocks that lie together on one drive, of at most 64 blocks (256 KiB): pairs of block of the namespace and place,
newest run first. -/
def extents : List (Nat × Nat) → List (Nat × Nat × Nat) → List (Nat × Nat × Nat)
  | [], acc => acc
  | (b, l) :: t, acc =>
    match acc with
    | (b0, l0, c) :: r =>
      if b = b0 + c ∧ l = l0 + c ∧ c < 64 ∧ l / 2 ^ 40 = l0 / 2 ^ 40 then extents t ((b0, l0, c + 1) :: r) else extents t ((b, l, 1) :: acc)
    | [] => extents t [(b, l, 1)]

/-- Pages of host data: place in the data, I/O virtual address, bytes, and the address translated. -/
def hostChunks (s : State) (x : Slot) (len : Nat) : List (Nat × Nat × Nat × Option Nat) :=
  let off := x.e.prp1 % 4096
  if len = 0 then []
  else (List.range ((off + len - 1) / 4096 + 1)).map (fun j =>
    let at_ := if j = 0 then 0 else 4096 * j - off
    let o := if j = 0 then off else 0
    let g := x.e.pages.getD j (0, none)
    let iova := g.1 / 4096 * 4096 + o
    (at_, iova, min (4096 - o) (len - at_), bhXl s (vf s x.vf).owner iova g.2))

/-- May a slot's read data go from the drive straight into its owner's pages: whole blocks, pages in step with them? -/
def directRead (s : State) (x : Slot) : Bool :=
  decide (x.e.op = 2) && decide (x.q ≠ 0) && (nsOf s x.e.nsid).fmt4k && decide (x.e.prp1 % 4096 = 0) && !x.drop

/-- The target of page `i` of a backing command. -/
def bindTo (s : State) (x : Slot) (c : Bcmd) (i : Nat) : BindTo :=
  match c.map with
  | some k => .map k
  | none =>
    let a := c.at_ + 4096 * i
    if directRead s x && !c.wr then
      let g := x.e.pages.getD (a / 4096) (0, none)
      match bhXl s (vf s x.vf).owner g.1 g.2 with
      | some pa => .host pa g.1
      | none => .img a
    else .img a

/-- Issue a backing command for a slot; a drive that is lost fails it at once. -/
def bcIssue (n : Nat) (c : Bcmd) (s : State) : State :=
  match slot s n with
  | none => s
  | some x =>
    match mfind s.drives c.drv with
    | none => updSlot n (fun x => { x with status := if x.status = 0 then 0xFFFF else x.status }) s
    | some d =>
      if d.lost then updSlot n (fun x => { x with status := if x.status = 0 then 0xFFFF else x.status }) s
      else
        let ps := freePages s c.cnt
        let c := { c with id := s.bh.bcId, pages := ps }
        let bs := (ps.zipIdx).foldl (fun m e => mins m e.1 { rp := d.rp, rid := d.rid, wr := !c.wr, slot := n, dest := bindTo s x c e.2 }) s.bh.binds
        let s := updBh (fun b => { b with bcId := b.bcId + 1, binds := bs }) s
        let s := updSlot n (fun x => { x with bcs := x.bcs ++ [c] }) s
        devSend d.rp (.blk d.rid c.wr c.blk c.cnt ps) s

/-- Remove bindings of pages. -/
def unbind (ps : List Nat) (s : State) : State := updBh (fun b => { b with binds := ps.foldl mdel b.binds }) s

/-- Where block `b` of the namespace stands in a slot's image. -/
def imgAt (s : State) (x : Slot) (b : Nat) : Nat := 4096 * (b - (slotBytes s x).1 / 4096)

/-- Read or write places of blocks of a slot's namespace. -/
def bcBlocks (n : Nat) (wr : Bool) (bl : List (Nat × Nat)) (s : State) : State :=
  match slot s n with
  | none => s
  | some x => (extents bl []).reverse.foldl (fun s e =>
      bcIssue n { drv := e.2.1 / 2 ^ 40, blk := e.2.1 % 2 ^ 40, cnt := e.2.2, wr := wr, at_ := imgAt s x e.1 } s) s

/-! ### Commits (Table 11.6 step 3) -/

/-- A map block with the changes of a slot in a span applied. -/
def applySlot (key : Nat) (x : Slot) (m : MapBlk) : MapBlk :=
  let mine := fun (b : Nat) => decide (spanKey x.e.nsid (b / 512) = key)
  let es := (x.unmap.filter mine).foldl (fun e b => mdel e (b % 512)) m.ents
  { m with ents := (x.shadow.filter (fun e => mine e.1)).foldl (fun es e => mins es (e.1 % 512) (e.2 + 1)) es }

/-- The map block that the running commit writes: SEQ + 1, with every write that it carries. -/
def commitBlk (s : State) (key : Nat) : MapBlk :=
  let c := mget s.bh.commits key
  let m : MapBlk := mget s.bh.maps key
  (s.bh.slots.filter (fun x => c.run.contains x.n)).foldl (fun m x => applySlot key x m) { m with seq := m.seq + 1 }

/-- Start the next commit of a map block, if one waits and none runs. -/
def commitStart (key : Nat) (s : State) : State :=
  let c := mget s.bh.commits key
  if !(c.run.isEmpty) ∨ c.next.isEmpty = true then s
  else
    let pg := (freePages s 1).headD 0
    let loc := (nsOf s (key / 2 ^ 32)).maps.getD (key % 2 ^ 32) 0
    let d : Drive := mget s.drives (loc / 2 ^ 40)
    let s := updBh (fun b => { b with commits := mset b.commits key { run := c.next, next := [], page := pg }, binds := mins b.binds pg { rp := d.rp, rid := d.rid, wr := false, slot := c.next.headD 0, dest := .map key } }) s
    devSend d.rp (.blk d.rid true (loc % 2 ^ 40) 1 [pg]) s

/-- BLK frames of data of a mirrored partition (R424): 256 bytes each, with the logical block that holds the first byte; the
frames of one block come in order. -/
def blkFrames (p e nsid bs start len v : Nat) : List PairFrame :=
  (List.range ((len + 255) / 256)).map (fun i =>
    { ty := 7, part := p, stream := 33, epoch := e, arg := BitVec.ofNat 64 (nsid + (start + 256 * i) / bs * 2 ^ 12),
      data := leBytes (min 256 (len - 256 * i)) (v / 256 ^ (256 * i)) })

/-- A slot's command ends: shadow blocks that no commit took go back; a mirrored partition's data goes to its partner. -/
def slotEnd (n : Nat) (s : State) : State :=
  match slot s n with
  | none => s
  | some x =>
    let s := release (x.shadow.map (·.2)) s
    let p := (vf s x.vf).owner
    let r := slotBytes s x
    let s := if x.status = 0 ∧ x.q ≠ 0 ∧ [1, 8, 9].contains x.e.op = true ∧ mirrored s p = true then
        (blkFrames p (pairP s p).epoch x.e.nsid (nsBs (nsOf s x.e.nsid)) r.1 r.2 (if x.e.op = 1 then x.buf else 0)).foldl (fun s f => pairPut f s) s
      else s
    let q := (nsOf s x.e.nsid).part
    let s := if x.vf = 1024 ∧ x.e.op = 2 ∧ x.status = 0 then
        (blkFrames q (pairP s q).epoch x.e.nsid (nsBs (nsOf s x.e.nsid)) r.1 r.2 x.img).foldl (fun s f => pairPut f s) s
      else s
    slotPost n x.status x.dw0 s

/-! ### The path of a command (Table 11.6) -/

/-- Is a status one of a write (the fault of a backing command is Write Fault, else Unrecovered Read Error)? -/
def backFault (x : Slot) : Nat := if [1, 8, 9].contains x.e.op then 0x280 else 0x281

/-- Give a slot a status, if it has none. -/
def slotStatus (n st : Nat) (s : State) : State := updSlot n (fun x => { x with status := if x.status = 0 then st else x.status }) s

/-- Read the host's data for a slot; a page with no translation ends it with Data Transfer Error. -/
def hostFetch (n len : Nat) (s : State) : State :=
  match slot s n with
  | none => s
  | some x =>
    let cs := hostChunks s x len
    match cs.find? (fun c => c.2.2.2.isNone) with
    | some c => slotStatus n 0x04 (vfDmaFault x.vf c.2.1 true s)
    | none =>
      let s := updSlot n (fun x => { x with reads := cs.length }) s
      (cs.zipIdx).foldl (fun s c => hostRead x.vf (1024 * n + c.2) (c.1.2.2.2.getD 0) c.1.2.2.1 s) s

/-- Write data to the host for a slot, but for the places in `skip`. -/
def hostDeliver (n len val : Nat) (skip : Nat → Bool) (s : State) : State :=
  match slot s n with
  | none => s
  | some x =>
    let cs := (hostChunks s x len).filter (fun c => !(skip c.1))
    match cs.find? (fun c => c.2.2.2.isNone) with
    | some c => slotStatus n 0x04 (vfDmaFault x.vf c.2.1 true s)
    | none =>
      cs.foldl (fun s c =>
        let w := hostWrite x.vf true (c.2.2.2.getD 0) c.2.2.1 (bits val (8 * c.1) (8 * c.2.2.1)) s
        let s := match dlPage s x.vf c.2.1 with
          | some g => bhTrack { eng := bhEng x.vf, seq := w.1, vf := x.vf, page := some g } w.2
          | none => w.2
        updSlot n (fun x => { x with wr := x.wr ++ [w.1] }) s) s

/-- The map blocks are held: check the entries, then allocate, read and fetch as the command asks (R378, R379). -/
def slotMapped (n : Nat) (s : State) : State :=
  match slot s n with
  | none => s
  | some x =>
    let d := nsOf s x.e.nsid
    let r := slotBytes s x
    let bl := byteBlocks r
    let ents := bl.filterMap (fun b => (mapEnt s x.e.nsid b).map (fun l => (b, l)))
    let s := updSlot n (fun x => { x with ph := .data, len := r.2 }) s
    if (spansOf x.e.nsid bl).any (fun k => s.bh.lostSp.contains k) then
      slotStatus n (backFault x) (logErr (bhErr 0x04 1 (vf s x.vf).owner none) s)
    else if ents.any (fun e => !(inPool s d.part e.2)) then slotStatus n 0x06 (logErr (bhErr 0x03 1 (vf s x.vf).owner none) s)
    else if x.e.op = 9 then updSlot n (fun x => { x with unmap := bl.filter (blockWhole r) }) s
    else if x.e.op = 2 then
      match (if x.drop then [] else hostChunks s x r.2).find? (fun c => c.2.2.2.isNone) with
      | some c => slotStatus n 0x04 (vfDmaFault x.vf c.2.1 true s)
      | none => bcBlocks n false ents s
    else if x.e.op = 5 then hostFetch n r.2 (bcBlocks n false ents s)
    else
      let part := bl.filter (fun b => !(blockWhole r b))
      let need := if x.e.op = 1 then bl else part.filter (fun b => (mapEnt s x.e.nsid b).isSome)
      let got := freeBlocks s d.part need.length
      if got.length < need.length then slotStatus n 0x81 s
      else
        let s := allocate x.e.nsid got s
        let s := updSlot n (fun x => { x with shadow := need.zip got, unmap := if x.e.op = 8 then bl.filter (blockWhole r) else [] }) s
        let s := bcBlocks n false (ents.filter (fun e => part.contains e.1)) s
        if x.e.op = 1 ∧ x.vf < 1024 then hostFetch n r.2 s else s

/-- The data is complete: write the shadow extents, compare, or deliver. -/
def slotData (n : Nat) (s : State) : State :=
  match slot s n with
  | none => s
  | some x =>
    let r := slotBytes s x
    let o := r.1 % 4096
    if x.e.op = 2 then
      let s := updSlot n (fun x => { x with ph := .deliver }) s
      if x.drop then s
      else
        let direct := directRead s x
        hostDeliver n r.2 (x.img / 256 ^ o) (fun at_ => direct && (mapEnt s x.e.nsid ((r.1 + at_) / 4096)).isSome) s
    else if x.e.op = 5 then
      let s := updSlot n (fun x => { x with ph := .deliver }) s
      if bits x.img (8 * o) (8 * r.2) = x.buf then s else slotStatus n 0x285 s
    else
      let img := if x.e.op = 9 then x.img else setBits x.img (8 * o) (8 * r.2) (if x.e.op = 1 then x.buf else 0)
      bcBlocks n true x.shadow (updSlot n (fun x => { x with ph := .shadow, img := img }) s)

/-- Join the next commit of each span touched. -/
def slotJoin (n : Nat) (s : State) : State :=
  match slot s n with
  | none => s
  | some x =>
    let ks := spansOf x.e.nsid (byteBlocks (slotBytes s x))
    let s := updSlot n (fun x => { x with ph := .commit, spans := ks }) s
    ks.foldl (fun s k => commitStart k (updBh (fun b => { b with commits := mupd b.commits k (fun c => { c with next := c.next ++ [n] }) }) s)) s

/-- The pair's number among VFs: the slots of its copies and of the writes it receives (R424, R436). -/
def pairVf : Nat := 1024
/-- Does a write received from the partner wait for its epoch's commit (R424)? -/
def gateShut (s : State) (x : Slot) : Bool :=
  match x.gate with
  | some e => decide ((pairP s (nsOf s x.e.nsid).part).com < e)
  | none => false

/-- A slot goes on as far as it can. -/
def slotGo : Nat → Nat → State → State
  | 0, _, s => s
  | k + 1, n, s =>
    match slot s n with
    | none => s
    | some x =>
      let idle := x.bcs.isEmpty && decide (x.reads = 0) && x.wr.isEmpty
      let s := if x.status = 0xFFFF then updSlot n (fun y => { y with status := backFault x }) (logErr (bhErr 0x05 1 (vf s x.vf).owner none) s) else s
      match x.ph with
      | .map => if !idle then s else if x.status ≠ 0 then slotEnd n s else slotGo k n (slotMapped n s)
      | .data => if !idle then s else if x.status ≠ 0 then slotEnd n s else slotGo k n (slotData n s)
      | .shadow => if !idle then s else if x.status ≠ 0 then slotEnd n s else if gateShut s x then s else slotGo k n (slotJoin n s)
      | .commit => if x.spans.isEmpty then slotEnd n s else s
      | .deliver => if idle then slotEnd n s else s
      | _ => s

/-- A slot goes on. -/
def slotRun (n : Nat) (s : State) : State := slotGo 6 n s

/-! ### Locks (R388, R389) -/

/-- Commands that take range locks. -/
def takesLock (x : Slot) : Bool := decide (x.q ≠ 0) && [1, 2, 5, 8, 9].contains x.e.op
/-- Commands that only read. -/
def onlyReads (x : Slot) : Bool := x.e.op = 2 || x.e.op = 5
/-- Must a command wait for another (R389)? -/
def lockBars (s : State) (x y : Slot) : Bool :=
  takesLock x && takesLock y && y.locks && decide (y.seq < x.seq) && decide (y.e.nsid = x.e.nsid) && !(onlyReads x && onlyReads y) &&
  (let a := slotBytes s x; let b := slotBytes s y; decide (a.1 < b.1 + b.2) && decide (b.1 < a.1 + a.2))
/-- Is a command free to start? -/
def lockFree (s : State) (x : Slot) : Bool := s.bh.slots.all (fun y => !(lockBars s x y))

/-- A waiting command takes its locks and starts (R389). -/
def lockGrant (n : Nat) (s : State) : State :=
  match slot s n with
  | some x => if !x.started && lockFree s x then updSlot n (fun x => { x with started := true }) s else s
  | none => s

/-! ### What follows an event -/

/-- Writes that a Flush waits for (R390). -/
def flushWaits (s : State) (x : Slot) : Bool :=
  s.bh.slots.any (fun y => decide (y.vf = x.vf) && decide (y.q ≠ 0) && [1, 8, 9].contains y.e.op && y.locks && decide (y.seq < x.seq) &&
    (decide (x.e.nsid = 0xFFFFFFFF) || decide (y.e.nsid = x.e.nsid)))

/-- A controller reset is complete when every entry is posted: RDY clears, and the controller is as after reset (Table 11.7). -/
def vfResetDone (v : Nat) (s : State) : State :=
  let x := vf s v
  if x.resetting ∧ s.bh.slots.all (fun y => y.vf ≠ v ∨ y.drop = true) = true ∧ x.cpls.all (fun e => e.2.isEmpty) = true ∧ s.bh.wrq.all (fun w => !(decide (w.vf = v) && w.cqe)) = true then
    updVf v (fun x => { x with rdy := false, resetting := false, cfs := false, sqs := [], cqs := [], cpls := [], aerIn := [], aers := [], events := [], irqs := [], arb := 0, coal := 0, ivc := [], aec := 0, ps := 0, ps1 := false, ps1Entry := false, wake := false }) s
  else s

/-- A command reads the map blocks that are not held (R377). -/
def slotMaps (n : Nat) (s : State) : State :=
  match slot s n with
  | none => s
  | some x =>
    let ks := spansOf x.e.nsid (byteBlocks (slotBytes s x))
    let s := updSlot n (fun x => { x with ph := .map, got := ks }) s
    let s := ks.foldl (fun s k =>
      if s.bh.mapUse.contains k then mapHold k (mget s.bh.maps k) s
      else
        let loc := (nsOf s x.e.nsid).maps.getD (k % 2 ^ 32) 0
        bcIssue n { drv := loc / 2 ^ 40, blk := loc % 2 ^ 40, map := some k } s) s
    slotRun n s

/-- Queue deletions, flushes and resets that nothing holds back any longer are complete; the pair's own slots go on. -/
def bhSettle (s : State) : State :=
  let s := (s.bh.slots.filter (fun x => x.vf = 1024)).foldl (fun s x =>
    if x.ph = .start then (if lockFree s x then slotMaps x.n (updSlot x.n (fun y => { y with started := true }) s) else s)
    else if x.ph = .shadow then slotRun x.n s else s) s
  let s := (s.bh.slots.filter (fun x => x.ph = .flush)).foldl (fun s x => if flushWaits s x then s else slotPost x.n 0 0 s) s
  let s := (s.bh.slots.filter (fun x => x.ph = .drain)).foldl (fun s x =>
    let q := x.e.cdw10 % 65536
    if s.bh.slots.any (fun y => decide (y.vf = x.vf) && decide (y.q = q) && decide (y.n < 8192)) then s
    else slotPost x.n 0 0 (updVf x.vf (fun y => { y with sqs := mdel y.sqs q }) s)) s
  s.bh.vfs.foldl (fun s e => vfResetDone e.1 s) s

/-- Data that the data mover has read arrives for a slot, or for a manager command (tags from 2²⁴). -/
def bhGotData (tag : Nat) (ok poison : Bool) (val : Nat) (s : State) : State :=
  if 2 ^ 25 ≤ tag then s
  else if 2 ^ 24 ≤ tag then
    updBh (fun b => { b with image := setBits b.image (32768 * (tag - 2 ^ 24)) 32768 val, imageLeft := b.imageLeft - 1, imageBad := b.imageBad || !ok || poison }) s
  else
    let n := tag / 1024
    match slot s n with
    | none => s
    | some x =>
      if x.reads = 0 then s
      else
        let off := x.e.prp1 % 4096
        let j := tag % 1024
        let at_ := if j = 0 then 0 else 4096 * j - off
        let s := if ok && !poison then s else slotStatus n 0x04 s
        let s := if ok && poison then logErr { bhErr 0x07 1 (vf s x.vf).owner none with consq := true } s else s
        slotRun n (updSlot n (fun x => { x with reads := x.reads - 1, buf := x.buf + val * 256 ^ at_ }) s)

/-- The data mover of a stop has moved on: data read, writes finished. -/
def bhSync (r : Nat) (s : State) : State :=
  let dev := (rp s r).dev
  let s := updRp r (fun x => { x with dev := [] }) s
  let s := dev.foldl (fun s m => match m with
    | .cpl _ tag ok poison val => bhGotData tag ok poison val s
    | _ => s) s
  let live := fun (q : Nat) => (rp s r).tlps.any (fun t => t.seq = q)
  let fin := s.bh.wrq.filter (fun w => decide (w.eng = r) && !(live w.seq))
  let s := updBh (fun b => { b with wrq := b.wrq.filter (fun w => !(decide (w.eng = r) && !(live w.seq))) }) s
  let s := fin.foldl (fun s w =>
    let s := match w.page with | some g => dlSet w.vf g s | none => s
    match w.slot with
    | some n => updBh (fun b => { b with slots := b.slots.filter (fun y => y.n ≠ n) }) s
    | none => s) s
  let ns := (s.bh.slots.filter (fun x => decide (bhEng x.vf = r) && x.wr.any (fun q => !(live q)))).map (·.n)
  let s := ns.foldl (fun s n => slotRun n (updSlot n (fun x => { x with wr := x.wr.filter live }) s)) s
  bhSettle s

/-- A request of the data mover is answered with Fault: a data transfer ends with Data Transfer Error, a completion entry sets
CSTS.CFS (R368, R406). -/
def bhFault (r : Nat) (f : Flit) (s : State) : State :=
  let seqs := ((rp s r).ops.filter (fun o => o.txn = some f.txn)).map (·.seq)
  let s := (s.bh.wrq.filter (fun w => decide (w.eng = r) && w.cqe && seqs.contains w.seq)).foldl (fun s w => bhFatal w.vf s) s
  let s := (s.bh.slots.filter (fun x => decide (bhEng x.vf = r) && x.wr.any (fun q => seqs.contains q))).foldl (fun s x => slotStatus x.n 0x04 s) s
  bhSync r (rpFault r f s)

/-! ### Events of the drives -/

/-- A backing command of a slot has completed, failed or run out of time: the oldest outstanding one. -/
def backDone (n : Nat) (ok : Bool) (s : State) : State :=
  match slot s n with
  | none => s
  | some x =>
    match x.bcs with
    | [] => s
    | c :: t =>
      let s := unbind c.pages (updSlot n (fun x => { x with bcs := t }) s)
      let s := match c.map with
        | some key =>
          let d := nsOf s (key / 2 ^ 32)
          let got := mget s.bh.mapIn key
          let s := updBh (fun b => { b with mapIn := mdel b.mapIn key }) s
          match (if ok then mapParse d.nsuid (key % 2 ^ 32) got else none) with
          | some m => mapHold key m s
          | none => spanLose key (if ok then s else logErr (bhErr 0x05 1 (vf s x.vf).owner none) s)
        | none => if ok then s else slotStatus n 0xFFFF s
      bhSettle (slotRun n s)

/-- A map-block write has completed or failed (Table 11.6 step 4). -/
def commitDone (key : Nat) (ok : Bool) (s : State) : State :=
  let c := mget s.bh.commits key
  if c.run.isEmpty then s
  else
    let old : MapBlk := mget s.bh.maps key
    let new := commitBlk s key
    let s := unbind [c.page] s
    let gone := (old.ents.filter (fun e => mget new.ents e.1 ≠ e.2)).map (fun e => e.2 - 1)
    let s := if ok then release gone (mapHold key new s) else s
    let s := updBh (fun b => { b with commits := mupd b.commits key (fun c => { c with run := [], page := 0 }) }) s
    let s := c.run.foldl (fun s n =>
      let mine := fun (e : Nat × Nat) => (match slot s n with | some x => decide (spanKey x.e.nsid (e.1 / 512) = key) | none => false)
      let s := if ok then updSlot n (fun x => { x with shadow := x.shadow.filter (fun e => !(mine e)) }) s
        else match slot s n with
          | some x => slotStatus n 0x280 (logErr (bhErr 0x05 1 (vf s x.vf).owner none) s)
          | none => s
      slotRun n (updSlot n (fun x => { x with spans := x.spans.erase key }) s)) s
    bhSettle (commitStart key s)

/-- A drive is lost (R406): its commands fail, and the spans whose map block it holds are lost. -/
def driveLost (drv : Nat) (s : State) : State :=
  match mfind s.drives drv with
  | none => s
  | some d =>
    if d.lost then s
    else
      let s := logErr (bhErr 0x06 1 15 none) { s with drives := mset s.drives drv { d with lost := true } }
      let s := s.bh.nss.foldl (fun s e => (e.2.maps.zipIdx).foldl (fun s m => if m.1 / 2 ^ 40 = drv then spanLose (spanKey e.1 m.2) s else s) s) s
      let s := s.bh.slots.foldl (fun s x => (x.bcs.filter (fun c => c.drv = drv)).foldl (fun s c =>
        slotRun x.n (slotStatus x.n 0xFFFF (unbind c.pages (updSlot x.n (fun y => { y with bcs := y.bcs.erase c }) s)))) s) s
      s.bh.commits.foldl (fun s e => if (nsOf s (e.1 / 2 ^ 32)).maps.getD (e.1 % 2 ^ 32) 0 / 2 ^ 40 = drv then commitDone e.1 false s else s) s

/-- A drive reaches into the proxy window (R395, R396): forwarded by its binding, or refused. -/
def proxyAccess (r rid page off : Nat) (wr : Bool) (data : List (BitVec 8)) (s : State) : State :=
  if !(bhPort s r) then s
  else
    let hit := match mfind s.bh.binds page with
      | some b => if b.rp = r ∧ b.rid = rid ∧ b.wr = wr ∧ off + data.length ≤ 4096 then some b else none
      | none => none
    match hit with
    | none =>
      let s := logErr { bhErr 0x02 1 15 (some (0x00002D0000000000 + 4096 * page + off)) with agent := some (rpAgent r) } s
      let s := if wr then s else devSend r (.cpl 0 page false false 0) s
      match mfind s.bh.binds page with
      | some b => slotStatus b.slot 0x04 s
      | none => s
    | some b =>
      let v := leNat data
      if wr then
        match b.dest with
        | .map key => updBh (fun x => { x with mapIn := mset x.mapIn key (setBits (mget x.mapIn key) (8 * off) (8 * data.length) v) }) s
        | .img a => updSlot b.slot (fun x => { x with img := setBits x.img (8 * (a + off)) (8 * data.length) v }) s
        | .host pa iova =>
          match slot s b.slot with
          | none => s
          | some x =>
            let w := hostWrite x.vf true (pa + off) data.length v s
            let s := match dlPage s x.vf (iova + off) with
              | some g => bhTrack { eng := bhEng x.vf, seq := w.1, vf := x.vf, page := some g } w.2
              | none => w.2
            updSlot b.slot (fun x => { x with wr := x.wr ++ [w.1] }) s
      else
        let n := data.length
        let v := match b.dest with
          | .map key => bits (mapBytes (nsOf s (key / 2 ^ 32)).nsuid (key % 2 ^ 32) (commitBlk s key)) (8 * off) (8 * n)
          | .img a => match slot s b.slot with
            | some x => bits x.img (8 * (a + off)) (8 * n)
            | none => 0
          | .host _ _ => 0
        devSend r (.cpl 0 page true false v) s

end Sys2Proof.Machine
end

