-- ==== Sys2Proof/Machine/BhCmd.lean ====
section
/-! DEFINITION. The NVMe commands of the Boathouse: registers and doorbells of a VF, admission, I/O and admin commands, and the
events that meet admitted commands (R364 to R371, R384 to R394).
Log entries with the choices and readings made here: 139, 140, 141, 146, 148, 150. -/

namespace Sys2Proof.Machine

/-! ### Registers of a VF (R364 to R367) -/

/-- CAP (R367). -/
def nvmeCap : Nat := 0x000000200A0103FF

/-- May a partition's access reach a VF (R395)? Else it is refused with a record, when the VF is another's. -/
def vfGate (part v : Nat) (s : State) : Bool × State :=
  if vfIs s v && decide ((vf s v).owner = part) then (true, s)
  else (false, logErr { bhErr 0x01 1 part (some (0x00002C0000000000 + v * 0x4000)) with part := part } s)

/-- CC names what the controller does not support (R367). -/
def ccBad (cc : Nat) : Bool :=
  decide (bits cc 4 3 ≠ 0) || decide (bits cc 7 4 ≠ 0) || decide (bits cc 11 3 ≠ 0) || decide (bits cc 16 4 ≠ 6) || decide (bits cc 20 4 ≠ 4)

/-- Software sets CC.EN: the controller is ready with its admin queues, or CFS is set (R367). -/
def ccEnSet (v cc : Nat) (acq : Option Nat) (s : State) : State :=
  let x := vf s v
  if bit x.cc 0 ∨ x.resetting = true then s
  else
    let s := updVf v (fun x => { x with cc := putBit cc 0 true, shst := 0 }) s
    if ccBad cc then bhFatal v s
    else
      let na := bits x.aqa 0 12 + 1
      let nc := bits x.aqa 16 12 + 1
      updVf v (fun x => { x with rdy := true, sqs := mins x.sqs 0 { base := x.asq, size := na }, cqs := mins x.cqs 0 { base := x.acq, size := nc, pages := [acq] } }) s

/-- CC.EN is cleared: commands not started and event requests are aborted, started ones run on (Table 11.7). -/
def ctrlReset (v : Nat) (s : State) : State :=
  let x := vf s v
  if bit x.cc 0 = false then s
  else
    let s := updVf v (fun x => { x with cc := putBit x.cc 0 false, resetting := true }) s
    let s := (s.bh.slots.filter (fun y => decide (y.vf = v) && !y.started && !y.drop)).foldl (fun s y => slotPost y.n 0x08 0 s) s
    let s := (x.aers ++ x.aerIn).foldl (fun s c => bhPost v { q := 0, cid := c, status := 0x08 } s) (updVf v (fun x => { x with aers := [], aerIn := [] }) s)
    bhSettle s

/-- A function-level reset (Table 11.7, R392, R400). -/
def flrVf (v : Nat) (s : State) : State :=
  if !(vfIs s v) then s
  else
    let r := bhEng v
    let mine := fun (y : Slot) => decide (y.vf = v)
    let s := updBh (fun b => { b with slots := b.slots.filter (fun y => !(mine y && (!y.started || y.ph = .start || y.ph = .post || y.ph = .flush || y.ph = .drain || decide (y.q = 0)))) }) s
    let s := updRp r (fun x =>
      let ops := x.ops.filter (fun o => decide (o.link ≠ bhLink v) || o.txn.isSome)
      { x with ops := ops, tlps := x.tlps.filter (fun t => decide (t.link ≠ bhLink v) || ops.any (fun o => o.seq = t.seq) || x.acks.any (fun a => a.2 = t.seq)) }) s
    let s := updBh (fun b => { b with wrq := b.wrq.filter (fun w => w.vf ≠ v),
                                      binds := b.binds.map (fun e => match e.2.dest with
                                        | .host _ iova => if (b.slots.any (fun y => mine y && decide (y.n = e.2.slot))) then (e.1, { e.2 with dest := .img (iova % 4096) }) else e
                                        | _ => e) }) s
    let s := updVf v (fun x => { owner := x.owner, nqp := x.nqp, share := x.share, guar := x.guar, frozen := x.frozen, ns := x.ns, dlog := x.dlog, dlBase := x.dlBase, dlPages := x.dlPages }) s
    let left := (s.bh.slots.filter mine).map (·.n)
    let s := left.foldl (fun s n =>
      slotRun n (updSlot n (fun y => { y with drop := true, reads := 0, wr := [], status := if y.status = 0 && (y.ph = .map || (y.ph = .data && decide (0 < y.reads))) && decide (y.e.op = 1) then 0x08 else y.status }) s)) s
    bhSettle s

/-- BAR0 is reached: memory space enabled and the VF in D0. -/
def vfMem (x : Vf) : Bool := bit (mget x.cfg 0x04) 1 && decide (bits (mget x.cfg 0x84) 0 2 = 0)

/-- A write of CC. -/
def ccWrite (v cc : Nat) (s : State) : State :=
  let x := vf s v
  let s := if bits cc 14 2 ≠ 0 then updVf v (fun x => { x with shst := 2 }) s else s
  if bit x.cc 0 = false ∧ bit cc 0 = true then
    let q := drawNat s
    ccEnSet v cc (some (q.1 / 4096 * 4096)) q.2
  else if bit x.cc 0 ∧ bit cc 0 = false then ctrlReset v (updVf v (fun x => { x with cc := putBit cc 0 true }) s)
  else updVf v (fun x => { x with cc := cc % 2 ^ 32 }) s

/-- A submission queue tail doorbell (R366): a bad value is reported as an event. -/
def sqTail (v y n : Nat) (s : State) : State :=
  let x := vf s v
  match mfind x.sqs y with
  | none => if x.rdy then vfEvent v 0x00010000 s else s
  | some q => if n < q.size then updVf v (fun x => { x with sqs := mins x.sqs y { q with tail := n } }) s else vfEvent v 0x00010100 s

/-- A completion queue head doorbell: entries are free again. -/
def cqHead (v y n : Nat) (s : State) : State :=
  let x := vf s v
  match mfind x.cqs y with
  | none => if x.rdy then vfEvent v 0x00010000 s else s
  | some q =>
    if n < q.size then bhSettle (cqRun ((mget x.cpls y).length + 1) v y (updVf v (fun x => { x with cqs := mins x.cqs y { q with head := n } }) s))
    else vfEvent v 0x00010100 s

/-- A 4-byte half of BAR0 (R366). -/
def barDw (x : Vf) (off : Nat) : Nat :=
  if off = 0x00 then nvmeCap % 2 ^ 32 else if off = 0x04 then nvmeCap / 2 ^ 32 else if off = 0x08 then 0x00020000
  else if off = 0x14 then x.cc else if off = 0x1C then b2n x.rdy + 2 * b2n x.cfs + 4 * x.shst
  else if off = 0x24 then x.aqa else if off = 0x28 then x.asq % 2 ^ 32 else if off = 0x2C then x.asq / 2 ^ 32
  else if off = 0x30 then x.acq % 2 ^ 32 else if off = 0x34 then x.acq / 2 ^ 32
  else if 0x3000 ≤ off ∧ off < 0x3800 then msixDw x ((off - 0x3000) / 4)
  else if 0x3800 ≤ off ∧ off < 0x3810 then bits x.pba (8 * (off - 0x3800)) 32
  else 0

/-- Is an 8-byte access of BAR0 of a register's own width? -/
def barWide (off : Nat) : Bool := off = 0x00 || off = 0x28 || off = 0x30 || (decide (0x3000 ≤ off) && decide (off < 0x3810))

/-- A read of BAR0. -/
def barRead (s : State) (v off size : Nat) : Nat :=
  let x := vf s v
  if size = 4 ∧ off % 4 = 0 then barDw x off
  else if size = 8 ∧ off % 8 = 0 ∧ barWide off = true then barDw x off + barDw x (off + 4) * 2 ^ 32
  else 0

/-- A write of a 4-byte half of BAR0. -/
def barPut (v off n : Nat) (s : State) : State :=
  let x := vf s v
  let base := fun (old lo : Nat) => setBits old lo 32 (if lo = 0 then n / 4096 * 4096 else n)
  if off = 0x14 then ccWrite v n s
  else if off = 0x24 then (if bit x.cc 0 then s else updVf v (fun x => { x with aqa := min (bits n 0 12) 255 + min (bits n 16 12) 255 * 2 ^ 16 }) s)
  else if off = 0x28 ∨ off = 0x2C then (if bit x.cc 0 then s else updVf v (fun x => { x with asq := base x.asq (8 * (off - 0x28)) }) s)
  else if off = 0x30 ∨ off = 0x34 then (if bit x.cc 0 then s else updVf v (fun x => { x with acq := base x.acq (8 * (off - 0x30)) }) s)
  else if 0x1000 ≤ off ∧ off < 0x1408 then
    (if off % 8 = 0 then sqTail v ((off - 0x1000) / 8) (n % 65536) s else cqHead v ((off - 0x1000) / 8) (n % 65536) s)
  else if 0x3000 ≤ off ∧ off < 0x3800 then
    let i := (off - 0x3000) / 4
    let s := updVf v (fun x => { x with msix := mset x.msix i (if i % 4 = 3 then (n % 2) ^^^ 1 else if i % 4 = 0 then n / 4 * 4 else n) }) s
    if i % 4 = 3 ∧ n % 2 = 0 ∧ bit x.pba (i / 4) = true then bhMsi v (i / 4) s else s
  else s

/-- A write of BAR0. -/
def barWrite (v off size n : Nat) (s : State) : State :=
  if size = 4 ∧ off % 4 = 0 then barPut v off n s
  else if size = 8 ∧ off % 8 = 0 ∧ barWide off = true then barPut v (off + 4) (n / 2 ^ 32) (barPut v off (n % 2 ^ 32) s)
  else s

/-- A double word of a VF's configuration space (Table 11.3). -/
def vfCfgDw (x : Vf) (v off : Nat) : Nat :=
  let w := fun (o : Nat) => mget x.cfg o
  let ba := 0x00002C0000000000 + v * 0x4000
  match off with
  | 0x00 => 0x05801F3A | 0x04 => 0x00100000 + (w 0x04 &&& 0x0406) | 0x08 => 0x010802A2 | 0x34 => 0x40
  | 0x40 => 0x00028010 | 0x44 => 0x10008000 | 0x48 => w 0x48 &&& 0x7FFF
  | 0x80 => 0x00039001 | 0x84 => 8 + (w 0x84 &&& 3)
  | 0x90 => 0x007FA011 + (w 0x90 &&& 0xC0000000) | 0x94 => 0x3000 | 0x98 => 0x3800
  | 0xA0 => 0x00010014 | 0xA4 => 0x80000003 | 0xA8 => ba % 2 ^ 32 + 2 | 0xAC => 0x3FFC | 0xB0 => ba / 2 ^ 32
  | 0x100 => 0x0001000E
  | _ => 0

/-- A write of bytes of a VF's configuration space; Initiate Function Level Reset is bit 15 of Device Control. -/
def vfCfgPut (v off mask n : Nat) (s : State) : State :=
  let ok := match off with
    | 0x04 => 0x0406 | 0x48 => 0x7FFF | 0x84 => 3 | 0x90 => 0xC0000000 | _ => 0
  let m := ok &&& mask
  let s := if ok = 0 then s else updVf v (fun x => { x with cfg := mset x.cfg off (mget x.cfg off - (mget x.cfg off &&& m) + (n &&& m)) }) s
  if off = 0x48 ∧ bit (n &&& mask) 15 = true then flrVf v s
  else if off = 0x90 ∧ bit mask 30 = true ∧ bit n 30 = false then (onesOf 128 (vf s v).pba).foldl (fun s i => bhMsi v i s) s
  else s

/-- An access of a hart to a VF's windows reaches a Boathouse stop (R364 to R366, R395). -/
def bhIo (f : Flit) (s : State) : State :=
  let wr := f.op = oIoWr || f.op = oCfgWr
  let n := 2 ^ f.size
  let val := (f.data.toNat / 256 ^ (f.addr % 64)) % 256 ^ n
  match ioTarget f.addr with
  | .vfBar v off =>
    let g := vfGate f.part v s
    if !g.1 then ioAnswer f false (256 ^ n - 1) g.2
    else if !(vfMem (vf s v)) then ioAnswer f false (256 ^ n - 1) s
    else if wr then barWrite v off n val (ioAnswer f false 0 s)
    else ioAnswer f false (barRead s v off n) s
  | .vfCfg v off =>
    let g := if decide (v < 1024) && vfIs s v then vfGate f.part v s else (false, s)
    if !g.1 then ioAnswer f false (256 ^ n - 1) g.2
    else
      let o := off / 4 * 4
      if wr then
        let m := (256 ^ n - 1) * 256 ^ (off % 4)
        let w := val * 256 ^ (off % 4)
        let s := vfCfgPut v o (m % 2 ^ 32) (w % 2 ^ 32) s
        ioAnswer f false 0 (if 2 ^ 32 ≤ m then vfCfgPut v (o + 4) (m / 2 ^ 32) (w / 2 ^ 32) s else s)
      else ioAnswer f false ((vfCfgDw (vf s v) v o + vfCfgDw (vf s v) v (o + 4) * 2 ^ 32) / 256 ^ (off % 4)) s
  | _ => ioAnswer f true 0 s

/-! ### Admission (R384 to R386, R394) -/

/-- Is a partition's fetching stopped for the pair (R418, Table 12.3)? -/
def bhPairStops (s : State) (p : Nat) : Bool := (pairP s p).hold || decide (0 < (pairP s p).close)

/-- Does the BQE fetch for a VF? -/
def vfFetches (s : State) (v : Nat) : Bool :=
  let x := vf s v
  vfIs s v && x.rdy && !x.resetting && !x.frozen && !x.cfs && bit (mget x.cfg 0x04) 2 && decide (bits (mget x.cfg 0x84) 0 2 = 0) &&
  s.bh.ready && !s.bh.pause && !(bhPairStops s x.owner)

/-- An entry of a queue waits to be fetched. -/
def sqHas (x : Vf) (q : Nat) : Bool :=
  match mfind x.sqs q with
  | some k => decide (k.head ≠ k.tail)
  | none => false

/-- May the VF take in an I/O command (R385)? -/
def mayAdmit (s : State) (v : Nat) : Bool :=
  let x := vf s v
  decide (occ s v < x.share) && (decide (occ s v < x.guar) || decide (heldSum s < 8192)) && decide (slotsUsed s < 8192)

/-- The queue that the BQE would serve next for a VF: the admin queue first, then the I/O queues in round robin (R386). -/
def nextQueue (s : State) (v : Nat) : Option Nat :=
  let x := vf s v
  if !(vfFetches s v) then none
  else if sqHas x 0 && (slot s (admSlot v)).isNone then some 0
  else if !(mayAdmit s v) then none
  else
    let qs := (x.sqs.map (·.1)).filter (fun q => decide (q ≠ 0) && sqHas x q && (mfind x.cqs (mget x.sqs q).cq).isSome)
    match qs.find? (fun q => decide (x.rr < q)) with
    | some q => some q
    | none => qs.head?

/-- The VF that the BQE visits next: in rotating order, one that may take one in (R386). -/
def nextVf (s : State) : Option Nat :=
  let vs := (s.bh.vfs.map (·.1)).filter (fun v => (nextQueue s v).isSome)
  match vs.find? (fun v => decide (s.bh.rot < v)) with
  | some v => some v
  | none => vs.head?

/-- Lowest free slot. -/
def freeSlot (s : State) : Nat := ((List.range 8192).find? (fun n => (slot s n).isNone)).getD 8192

/-- The BQE admits the entry at the head of a queue (R385, R386, R388, R394). -/
def bqeAdmit (v q : Nat) (e : Sqe) (fault : Bool) (s : State) : State :=
  if nextVf s ≠ some v ∨ nextQueue s v ≠ some q then s
  else
    let x := vf s v
    let k : Sq := mget x.sqs q
    if fault ∨ ioMode s (32 + x.owner) = 0 then bhFatal v (vfDmaFault v (k.base + 64 * k.head) true s)
    else
      let s := updVf v (fun x => { x with sqs := mins x.sqs q { k with head := if k.head + 1 = k.size then 0 else k.head + 1 }, rr := if q = 0 then x.rr else q, wake := x.ps1Entry, ps1 := false, ps := if x.ps1Entry then x.ps else 0 }) s
      let s := updBh (fun b => { b with rot := v }) s
      if q = 0 ∧ e.op = 0x0C then updVf v (fun x => { x with aerIn := x.aerIn ++ [e.cid] }) s
      else
        let y : Slot := { n := if q = 0 then admSlot v else freeSlot s, seq := s.bh.seq, vf := v, q := q, e := e }
        let y := { y with started := !(takesLock y) || lockFree s y, locks := takesLock y }
        updBh (fun b => { b with seq := b.seq + 1, slots := b.slots ++ [y] }) s

/-- 1,000 µs after Power Management set PS1 (R394). -/
def ps1Entry (v : Nat) (s : State) : State :=
  let x := vf s v
  if vfIs s v && x.ps1Entry then updVf v (fun x => { x with ps1Entry := false, ps1 := !x.wake, ps := if x.wake then 0 else 1, wake := false }) s else s

/-! ### I/O commands (R370, R377 to R379, R390, R395) -/

/-- A slot whose command is at its own row: started and at its first step. -/
def atStart (s : State) (n : Nat) (adm : Bool) (op : Nat) : Option Slot :=
  match slot s n with
  | some x => if x.started && decide (x.ph = .start) && decide ((x.q = 0) = adm) && decide (x.e.op = op) then some x else none
  | none => none

/-- End a command at its first step. -/
def slotStop (n st : Nat) (s : State) : State := bhSettle (slotPost n st 0 s)

/-- The error that a command of a namespace meets before its work (R370, R383, R395): 0 for none. -/
def rwError (s : State) (x : Slot) : Nat :=
  let v := vf s x.vf
  let d := nsOf s x.e.nsid
  let bs := nsBs d
  if x.e.flags ≠ 0 then 0x02
  else if !(v.ns.contains x.e.nsid) then 0x0B
  else if s.bh.unready.contains x.e.nsid then 0x82
  else if x.e.op = 9 ∧ x.e.cdw10 % 256 ≠ 0 then 0x183
  else if 2 ^ 21 < x.e.nlb * bs then (if x.e.op = 9 then 0x183 else 0x02)
  else if d.size * (4096 / bs) < x.e.lba + x.e.nlb then 0x80
  else 0

/-- A Read, Compare, Write, Write Zeroes or Dataset Management begins: checks, then the map blocks that are not held. -/
def rwBegin (op n : Nat) (s : State) : State :=
  match atStart s n false op with
  | none => s
  | some x =>
    let p := (vf s x.vf).owner
    let st := rwError s x
    let ks := spansOf x.e.nsid (byteBlocks (slotBytes s x))
    if st ≠ 0 then slotStop n st s
    else if op = 9 ∧ bit x.e.cdw11 2 = false then slotStop n 0 s
    else if op = 9 ∧ bhXl s p (x.e.pages.headD (0, none)).1 (x.e.pages.headD (0, none)).2 = none then
      slotStop n 0x04 (vfDmaFault x.vf x.e.prp1 true s)
    else if ks.any (fun k => s.bh.lostSp.contains k) then slotStop n (backFault x) (logErr (bhErr 0x04 1 p none) s)
    else bhSettle (slotMaps n s)

/-- A Flush begins: it completes when the earlier writes have committed (R390). -/
def flushBegin (n : Nat) (s : State) : State :=
  match atStart s n false 0 with
  | none => s
  | some x =>
    let v := vf s x.vf
    if x.e.nsid ≠ 0xFFFFFFFF ∧ v.ns.contains x.e.nsid = false then slotStop n 0x0B s
    else if s.bh.unready.contains x.e.nsid then slotStop n 0x82 s
    else bhSettle (updSlot n (fun x => { x with ph := .flush }) s)

/-- An opcode that Table 11.4 does not list (R370). -/
def badOpcode (v n : Nat) (s : State) : State :=
  match slot s n with
  | none => s
  | some x =>
    let known := if x.q = 0 then [0x00, 0x01, 0x02, 0x04, 0x05, 0x06, 0x08, 0x09, 0x0A, 0x0C] else [0x00, 0x01, 0x02, 0x05, 0x08, 0x09]
    if x.vf = v ∧ x.started = true ∧ x.ph = .start ∧ known.contains x.e.op = false then slotStop n 0x01 s else s

/-! ### Admin commands (R370, R371) -/

/-- The admin command of a VF with an opcode, at its first step. -/
def admin (s : State) (v op : Nat) : Option Slot := if vfIs s v then atStart s (admSlot v) true op else none
/-- End the admin command of a VF. -/
def adminEnd (v st dw0 : Nat) (s : State) : State := bhSettle (slotPost (admSlot v) st dw0 s)
/-- The admin command of a VF delivers data and completes. -/
def adminData (v len val : Nat) (s : State) : State :=
  let n := admSlot v
  slotRun n (hostDeliver n len (val % 256 ^ len) (fun _ => false) (updSlot n (fun x => { x with ph := .deliver }) s))

/-- Delete I/O SQ: commands not started are aborted, started ones run on; then the queue goes (Table 11.7). -/
def deleteSq (v : Nat) (s : State) : State :=
  match admin s v 0x00 with
  | none => s
  | some x =>
    let q := x.e.cdw10 % 65536
    if q = 0 ∨ (vf s v).nqp < q ∨ (mfind (vf s v).sqs q).isNone = true then adminEnd v 0x101 0 s
    else
      let s := (s.bh.slots.filter (fun y => decide (y.vf = v) && decide (y.q = q) && !y.started && !y.drop)).foldl (fun s y => slotPost y.n 0x08 0 s) s
      let s := updVf v (fun y => { y with sqs := mupd y.sqs q (fun k => { k with head := k.tail }) }) s
      bhSettle (updSlot (admSlot v) (fun y => { y with ph := .drain }) s)

/-- Create I/O SQ (R371). -/
def createSq (v : Nat) (s : State) : State :=
  match admin s v 0x01 with
  | none => s
  | some x =>
    let y := vf s v
    let q := x.e.cdw10 % 65536
    let size := x.e.cdw10 / 65536 % 65536 + 1
    let cq := x.e.cdw11 / 65536 % 65536
    if q = 0 ∨ y.nqp < q ∨ (mfind y.sqs q).isSome = true then adminEnd v 0x101 0 s
    else if cq = 0 ∨ (mfind y.cqs cq).isNone = true ∨ y.sqs.any (fun e => e.1 ≠ 0 && decide (e.2.cq = cq)) = true then adminEnd v 0x100 0 s
    else if size < 2 ∨ 1024 < size then adminEnd v 0x102 0 s
    else if bit x.e.cdw11 0 = false then adminEnd v 0x02 0 s
    else if x.e.prp1 % 4096 ≠ 0 then adminEnd v 0x13 0 s
    else adminEnd v 0 0 (updVf v (fun y => { y with sqs := mins y.sqs q { base := x.e.prp1, size := size, cq := cq, pages := x.e.pages.map (·.2) } }) s)

/-- Delete I/O CQ (R370). -/
def deleteCq (v : Nat) (s : State) : State :=
  match admin s v 0x04 with
  | none => s
  | some x =>
    let y := vf s v
    let q := x.e.cdw10 % 65536
    if q = 0 ∨ y.nqp < q ∨ (mfind y.cqs q).isNone = true then adminEnd v 0x101 0 s
    else if y.sqs.any (fun e => e.1 ≠ 0 && decide (e.2.cq = q)) then adminEnd v 0x10C 0 s
    else adminEnd v 0 0 (updVf v (fun y => { y with cqs := mdel y.cqs q, cpls := mdel y.cpls q }) s)

/-- Create I/O CQ (R371). -/
def createCq (v : Nat) (s : State) : State :=
  match admin s v 0x05 with
  | none => s
  | some x =>
    let y := vf s v
    let q := x.e.cdw10 % 65536
    let size := x.e.cdw10 / 65536 % 65536 + 1
    let iv := x.e.cdw11 / 65536 % 65536
    if q = 0 ∨ y.nqp < q ∨ (mfind y.cqs q).isSome = true then adminEnd v 0x101 0 s
    else if size < 2 ∨ 1024 < size then adminEnd v 0x102 0 s
    else if bit x.e.cdw11 0 = false then adminEnd v 0x02 0 s
    else if 127 < iv then adminEnd v 0x108 0 s
    else if x.e.prp1 % 4096 ≠ 0 then adminEnd v 0x13 0 s
    else adminEnd v 0 0 (updVf v (fun y => { y with cqs := mins y.cqs q { base := x.e.prp1, size := size, ien := bit x.e.cdw11 1, iv := iv, pages := x.e.pages.map (·.2) } }) s)

/-- Sum of fields: byte offset and value. -/
def atBytes (fs : List (Nat × Nat)) : Nat := fs.foldl (fun a e => a + e.2 * 256 ^ e.1) 0

/-- Identify Controller (Table 11.4): serial, model, firmware and subsystem names are free. -/
def idCtrl (v free : Nat) : Nat :=
  atBytes [(0, 0x1F3A), (4, free % 256 ^ 68), (77, 9), (78, v), (80, 0x00020000), (92, 0x100), (111, 1), (259, 3), (261, 2), (262, 63), (263, 1),
    (512, 0x66), (513, 0x44), (516, 2048), (520, 0xD), (528, 63), (2080, 0x02000000 + 1000 * 2 ^ 32 + 5000 * 2 ^ 64)]

/-- Identify Namespace (R380): size, use, thin provisioning, atomicity and format. -/
def idNs (s : State) (nsid : Nat) : Nat :=
  let d := nsOf s nsid
  let k := 4096 / nsBs d
  let used := (s.bh.alloc.filter (fun e => decide (e.2 = nsid + 1) && !(d.maps.contains e.1) && !(d.dir.contains e.1))).length
  atBytes [(0, d.size * k), (8, d.size * k), (16, used * k), (24, 3), (36, if d.fmt4k then 63 else 511), (44, if d.fmt4k then 511 else 4095),
    (120, d.nsuid % 2 ^ 64), (128, (if d.fmt4k then 12 else 9) * 2 ^ 16)]

/-- Identify (R370). -/
def identify (v : Nat) (s : State) : State :=
  match admin s v 0x06 with
  | none => s
  | some x =>
    let y := vf s v
    let cns := x.e.cdw10 % 256
    let bad := decide (x.e.nsid = 0) || decide (2048 < x.e.nsid)
    match cns with
    | 0x00 => if bad then adminEnd v 0x0B 0 s else adminData v 4096 (if y.ns.contains x.e.nsid then idNs s x.e.nsid else 0) s
    | 0x01 => let q := drawNat s; adminData v 4096 (idCtrl v q.1) q.2
    | 0x02 =>
      let l := (List.range 2049).filter (fun n => decide (x.e.nsid < n) && y.ns.contains n)
      if 0xFFFFFFFE ≤ x.e.nsid then adminEnd v 0x0B 0 s else adminData v 4096 (atBytes (l.zipIdx.map (fun e => (4 * e.2, e.1)))) s
    | 0x03 =>
      if bad ∨ y.ns.contains x.e.nsid = false then adminEnd v 0x0B 0 s
      else adminData v 4096 (atBytes [(0, 0x0801), (4, (nsOf s x.e.nsid).nsuid % 2 ^ 64), (12, 0x0104)]) s
    | 0x06 =>
      if x.e.cdw11 / 2 ^ 24 % 256 ≠ 0 then adminEnd v 0x02 0 s
      else let q := drawNat s; adminData v 4096 (atBytes [(1, 9), (3, 1), (4, q.1 % 256 ^ 12)]) q.2
    | _ => adminEnd v 0x02 0 s

/-- An entry of the Error Information log. -/
def errBytes (e : ErrEnt) : Nat :=
  atBytes [(0, e.n), (8, e.q), (10, e.cid % 2 ^ 16), (12, (e.status % 2 ^ 15) * 2), (16, e.lba), (24, e.nsid)]

/-- Commands Supported and Effects: bit 0 of a supported command's double word, bit 1 where it changes data. -/
def effects : Nat :=
  atBytes (([0x00, 0x01, 0x02, 0x04, 0x05, 0x06, 0x08, 0x09, 0x0A, 0x0C].map (fun o => (4 * o, 1))) ++
    ([(0x00, 1), (0x01, 3), (0x02, 1), (0x05, 1), (0x08, 3), (0x09, 3)].map (fun e => (1024 + 4 * e.1, e.2))))

/-- Get Log Page (R370). Reading the Changed Namespace List clears it, unless the event is to be retained. -/
def getLogPage (v : Nat) (s : State) : State :=
  match admin s v 0x02 with
  | none => s
  | some x =>
    let y := vf s v
    let len := 4 * (x.e.cdw10 / 65536 % 65536 + x.e.cdw11 % 65536 * 65536 + 1)
    let off := x.e.cdw12 % 2 ^ 32
    if 2 ^ 21 < len ∨ off % 4 ≠ 0 then adminEnd v 0x02 0 s
    else match x.e.cdw10 % 256 with
      | 0x01 => adminData v len (atBytes (y.errs.zipIdx.map (fun e => (64 * e.2, errBytes e.1))) / 256 ^ off) s
      | 0x02 => let q := drawNat s; adminData v len (q.1 % 256 ^ 512 / 256 ^ off) q.2
      | 0x04 =>
        let s := if bit x.e.cdw10 15 then s else updVf v (fun y => { y with chg := [] }) s
        adminData v len (atBytes (y.chg.zipIdx.map (fun e => (4 * e.2, e.1))) / 256 ^ off) s
      | 0x05 => adminData v len (effects / 256 ^ off) s
      | _ => adminEnd v 0x02 0 s

/-- Abort (Table 11.7): a command not started is completed with Command Abort Requested; dword 0 says whether it was aborted. -/
def abortCmd (v : Nat) (s : State) : State :=
  match admin s v 0x08 with
  | none => s
  | some x =>
    match s.bh.slots.find? (fun y => decide (y.vf = v) && decide (y.q = x.e.cdw10 % 65536) && decide (y.e.cid = x.e.cdw10 / 65536 % 65536) && !y.started && !y.drop && y.ph ≠ .post) with
    | some y => adminEnd v 0 0 (slotPost y.n 0x07 0 s)
    | none => adminEnd v 0 1 s

/-- Set Features (R370, R371, R394). -/
def setFeatures (v : Nat) (s : State) : State :=
  match admin s v 0x09 with
  | none => s
  | some x =>
    let y := vf s v
    let w := x.e.cdw11 % 2 ^ 32
    if bit x.e.cdw10 31 then adminEnd v 0x10D 0 s
    else match x.e.cdw10 % 256 with
      | 0x01 => adminEnd v 0 0 (updVf v (fun y => { y with arb := w }) s)
      | 0x02 =>
        if 1 < w % 32 then adminEnd v 0x02 0 s
        else if w % 32 = 1 then adminEnd v 0 0 (updVf v (fun y => { y with ps := 1, ps1Entry := !y.ps1 }) s)
        else adminEnd v 0 0 (updVf v (fun y => { y with ps := 0, ps1 := false, ps1Entry := false, wake := false }) s)
      | 0x07 =>
        if w % 65536 = 65535 ∨ w / 65536 = 65535 then adminEnd v 0x02 0 s
        else if y.sqs.any (fun e => e.1 ≠ 0) ∨ y.cqs.any (fun e => e.1 ≠ 0) = true then adminEnd v 0x0C 0 s
        else adminEnd v 0 ((y.nqp - 1) * 65537) s
      | 0x08 => adminEnd v 0 0 (updVf v (fun y => { y with coal := w % 65536 }) s)
      | 0x09 =>
        if 127 < w % 65536 then adminEnd v 0x02 0 s
        else adminEnd v 0 0 (updVf v (fun y => { y with ivc := mset y.ivc (w % 65536) (w / 65536 % 2) }) s)
      | 0x0B => adminEnd v 0 0 (updVf v (fun y => { y with aec := w }) s)
      | _ => adminEnd v 0x02 0 s

/-- Current value of a feature. -/
def featVal (y : Vf) (fid w : Nat) : Nat :=
  match fid with
  | 0x01 => y.arb | 0x02 => y.ps | 0x07 => (y.nqp - 1) * 65537 | 0x08 => y.coal
  | 0x09 => w % 65536 + mget y.ivc (w % 65536) * 65536 | 0x0B => y.aec | _ => 0

/-- Get Features (R370): current value; default and saved are the values after reset; capabilities: changeable. -/
def getFeatures (v : Nat) (s : State) : State :=
  match admin s v 0x0A with
  | none => s
  | some x =>
    let fid := x.e.cdw10 % 256
    let sel := x.e.cdw10 / 256 % 8
    if !([0x01, 0x02, 0x07, 0x08, 0x09, 0x0B].contains fid) ∨ 3 < sel ∨ (fid = 0x09 ∧ 127 < x.e.cdw11 % 65536) then adminEnd v 0x02 0 s
    else adminEnd v 0 (if sel = 0 then featVal (vf s v) fid x.e.cdw11 else if sel = 3 then 4 else featVal { nqp := (vf s v).nqp } fid x.e.cdw11) s

/-- Asynchronous Event Request (R370, R384): at most four are outstanding. -/
def aerTake (v : Nat) (s : State) : State :=
  let x := vf s v
  match x.aerIn with
  | [] => s
  | c :: t =>
    let s := updVf v (fun x => { x with aerIn := t }) s
    if 4 ≤ x.aers.length then bhSettle (bhPost v { q := 0, cid := c, status := 0x105 } s)
    else match x.events with
      | ev :: es => bhSettle (bhPost v { q := 0, cid := c, dw0 := ev } (updVf v (fun x => { x with events := es }) s))
      | [] => updVf v (fun x => { x with aers := x.aers ++ [c] }) s

end Sys2Proof.Machine
end

