-- ==== Sys2Proof/Machine/BhMgr.lean ====
section
/-! DEFINITION. The Boathouse manager commands: drives, pools, namespaces, virtual functions, freeze, save, restore and the dirty
log (R362, R372 to R375, R383, R387, R397 to R405).
Log entries with the choices and readings made here: 147, 148, 149, 153, 154, 203. -/

namespace Sys2Proof.Machine

/-! ### The catalogue (R374) -/

/-- Every attached drive's copy is brought up to date. -/
def catUpdate (s : State) : State :=
  let n := s.bh.catSeq + 1
  let s := updBh (fun b => { b with catSeq := n }) s
  let c : CatCopy := { seq := n, drives := s.drives, pools := s.bh.pools, nss := s.bh.nss }
  { s with catCopies := (s.drives.filter (fun e => !e.2.lost)).foldl (fun m e => mins m (e.2.rp * 65536 + e.2.rid) c) s.catCopies }

/-- At cold start: the valid copy with the highest sequence number among the drives that answer is adopted; the other copies
are recorded (R374, R383). `bad` lists copies that fail their CRC. The namespaces wait for their pools to be rebuilt. -/
def catAdopt (bad : List Nat) (s : State) : State :=
  let have_ := s.catCopies.filter (fun e => s.drives.any (fun d => decide (d.2.rp * 65536 + d.2.rid = e.1)))
  let ok := have_.filter (fun e => !(bad.contains e.1))
  let best := ok.foldl (fun (b : CatCopy) e => if b.seq < e.2.seq then e.2 else b) {}
  let s := (have_.filter (fun e => bad.contains e.1 || decide (e.2.seq ≠ best.seq))).foldl (fun s _ => logErr (bhErr 0x0B 0 15 none) s) s
  if best.seq = 0 then s
  else
    let s := updBh (fun b => { b with catSeq := best.seq, pools := best.pools, nss := best.nss, unready := best.nss.map (·.1), alloc := [], nsuid := best.nss.foldl (fun n e => max n e.2.nsuid) 0 }) s
    catUpdate (best.nss.foldl (fun s e => allocate e.1 (e.2.dir ++ e.2.maps) s) s)

/-- A partition's pools are rebuilt from the map blocks of its namespaces (R377, R383): a block that fails its check, or could
not be read, makes its span lost. -/
def poolRebuilt (p : Nat) (maps : List (Nat × Nat × List (BitVec 8))) (s : State) : State :=
  let mine := (s.bh.nss.filter (fun e => decide (e.2.part = p) && s.bh.unready.contains e.1)).map (·.1)
  let s := mine.foldl (fun s nsid =>
    let d := nsOf s nsid
    (List.range d.maps.length).foldl (fun s i =>
      let got := (maps.find? (fun m => decide (m.1 = nsid) && decide (m.2.1 = i))).bind (fun m => mapParse d.nsuid i (leNat m.2.2))
      match got with
      | some m => allocate nsid (m.ents.map (fun e => e.2 - 1)) s
      | none => spanLose (spanKey nsid i) (logErr (bhErr 0x04 1 p none) s)) s) s
  updBh (fun b => { b with unready := b.unready.filter (fun n => !(mine.contains n)) }) s

/-! ### Images (Tables 11.10 and 11.11) -/

/-- Context of queue pair `q`. -/
def qCtx (x : Vf) (q : Nat) : Nat :=
  let a : Sq := mget x.sqs q
  let c : Cq := mget x.cqs q
  if (mfind x.sqs q).isNone ∧ (mfind x.cqs q).isNone = true then 0
  else atBytes [(0, a.base), (8, c.base), (16, a.size - 1), (18, c.size - 1), (20, a.head), (22, a.tail), (24, c.tail), (26, c.head),
    (28, b2n c.phase + 2 * b2n c.ien + 4), (30, c.iv)]

/-- Queue pairs in use, the admin pair included. -/
def qPairs (x : Vf) : Nat := (((x.sqs.map (·.1)) ++ (x.cqs.map (·.1))).eraseDups).length

/-- The 16 KiB image of a VF. -/
def vfImage (s : State) (v : Nat) : Nat :=
  let x := vf s v
  let body := atBytes ([(0, 1 + qPairs x * 2 ^ 16 + x.ns.length * 2 ^ 24), (0x0C, x.cc), (0x10, b2n x.rdy + 2 * b2n x.cfs + 4 * x.shst), (0x14, x.aqa), (0x18, x.asq), (0x20, x.acq),
      (0x40, x.arb % 2 ^ 32), (0x44, x.ps), (0x48, (x.nqp - 1) * 65537), (0x4C, x.coal), (0x50, x.aec % 2 ^ 32), (0xD4, x.aers.length), (0x0A00, x.pba)] ++
    (x.ivc.map (fun e => (0x54 + e.1, e.2))) ++ ((x.events.take 8).zipIdx.map (fun e => (0xD5 + 4 * e.2, e.1))) ++
    (x.ns.zipIdx.map (fun e => (0x100 + 32 * e.2, e.1 + b2n (nsOf s e.1).fmt4k * 2 ^ 32 + (nsOf s e.1).size * 2 ^ 64))) ++
    ((List.range 512).map (fun i => (0x200 + 4 * i, msixDw x i))) ++
    ((List.range 129).map (fun q => (0x1000 + 64 * q, qCtx x q))))
  body + crcNat 16384 body * 2 ^ 64

/-- Does an image pass the checks of R403 for a VF? -/
def imageOk (s : State) (v img : Nat) : Bool :=
  let x := vf s v
  let g := fun (o n : Nat) => bits img (8 * o) (8 * n)
  decide (g 0 2 = 1) && decide (g 8 4 = crcNat 16384 (img - g 8 4 * 2 ^ 64)) && decide (g 2 1 ≤ x.nqp + 1) &&
  (List.range (min 8 (g 3 1 % 16))).all (fun i =>
    let nsid := g (0x100 + 32 * i) 4
    x.ns.contains nsid && decide (g (0x104 + 32 * i) 1 = b2n (nsOf s nsid).fmt4k) && decide (g (0x108 + 32 * i) 8 = (nsOf s nsid).size))

/-- Load an image as a VF's controller state (R403). The image counts outstanding event requests and does not name them: their
command identifiers are free. -/
def imageLoad (v img : Nat) (s : State) : State :=
  let g := fun (o n : Nat) => bits img (8 * o) (8 * n)
  let f := drawNat s
  let pg := (List.range 4).map (fun i => some ((f.1 / 2 ^ (64 * i)) % 2 ^ 44 / 4096 * 4096))
  let qs := (List.range 129).filter (fun q => bit (g (0x1000 + 64 * q + 28) 1) 2)
  updVf v (fun x => { x with
    cc := g 0x0C 4, rdy := bit (g 0x10 1) 0, cfs := bit (g 0x10 1) 1, shst := bits (g 0x10 1) 2 2, aqa := g 0x14 4, asq := g 0x18 8, acq := g 0x20 8, resetting := false,
    arb := g 0x40 4, ps := g 0x44 4 % 2, coal := g 0x4C 4, aec := g 0x50 4,
    ivc := (List.range 128).foldl (fun m i => mset m i (g (0x54 + i) 1 % 2)) [],
    aers := (List.range (min 4 (g 0xD4 1))).map (fun i => f.1 / 2 ^ (256 + 16 * i) % 2 ^ 16),
    events := ((List.range 8).map (fun i => g (0xD5 + 4 * i) 4)).filter (fun e => decide (e ≠ 0)),
    msix := (List.range 512).foldl (fun m i => mset m i (if i % 4 = 3 then g (0x200 + 4 * i) 4 ^^^ 1 else g (0x200 + 4 * i) 4)) [],
    pba := g 0xA00 16,
    sqs := qs.foldl (fun m q => let a := 0x1000 + 64 * q; mins m q { base := g a 8, size := g (a + 16) 2 + 1, head := g (a + 20) 2, tail := g (a + 22) 2, cq := q, pages := pg }) [],
    cqs := qs.foldl (fun m q => let a := 0x1000 + 64 * q; mins m q { base := g (a + 8) 8, size := g (a + 18) 2 + 1, tail := g (a + 24) 2, head := g (a + 26) 2, phase := bit (g (a + 28) 1) 0, ien := bit (g (a + 28) 1) 1, iv := g (a + 30) 2 % 128, pages := pg }) [] }) f.2

/-- An image or log address: 4 KiB aligned, and `n` bytes in slabs of the VF's owner (R402, R404). -/
def imgAddrOk (s : State) (v a n : Nat) : Bool :=
  decide (a % 4096 = 0) && decide (slabOwner s a = some (vf s v).owner) && decide (slabOwner s (a + n - 1) = some (vf s v).owner)

/-! ### Manager commands (Table 11.9) -/

/-- A namespace's attachments change: its name enters the Changed Namespace List and the owner's VF is told (Table 11.9). -/
def nsChanged (v nsid : Nat) (s : State) : State :=
  let told := (vf s v).chg.isEmpty
  let s := updVf v (fun x => { x with chg := if x.chg.contains nsid then x.chg else x.chg ++ [nsid] }) s
  if told && bit (vf s v).aec 8 then vfEvent v 0x00040002 s else s

/-- BH_DRIVE_ATTACH (R372, R373). -/
def bhAttach (pr : Proc) (s : State) : State :=
  let i := bits (arg0 pr) 0 6
  let r := bits (arg1 pr) 0 4
  let id := pr.id
  if 12 ≤ r then mgrEnd rINVALID 0 s
  else if (mfind s.drives i).isSome ∨ rpPart s r ≠ 15 ∨ rpPair s r = true then mgrEnd rSTATE 0 s
  else if !id.responds then mgrEnd rFAILED 5 s
  else if id.bsize ≠ 4096 ∧ id.bsize ≠ 512 then mgrEnd rFAILED 1 s
  else if id.bsize = 512 ∧ id.awupf < 7 then mgrEnd rFAILED 2 s
  else if id.volatileCache ∧ id.disables = false then mgrEnd rFAILED 3 s
  else if id.qpairs < 8 then mgrEnd rFAILED 4 s
  else
    let s := if bhPort s r then s else fenceLift (16 + r) (updRp r (fun x => { x with iommu := mset x.iommu 0x10 1 }) s)
    mgrEnd rDONE 0 (catUpdate { s with drives := mins s.drives i { rp := r, rid := bits (arg1 pr) 8 16, blocks := id.blocks } })

/-- BH_DRIVE_DETACH. A port whose last drive goes is unassigned again, and fenced like every unassigned port (DEDUCED: R309 and
R311 assign a port to a stopped partition fenced). -/
def bhDetach (pr : Proc) (s : State) : State :=
  let i := bits (arg0 pr) 0 6
  match mfind s.drives i with
  | none => mgrEnd rSTATE 0 s
  | some d =>
    if s.bh.pools.any (fun e => e.2.drv = i) then mgrEnd rSTATE 0 s
    else
      let s := { s with drives := mdel s.drives i, catCopies := mdel s.catCopies (d.rp * 65536 + d.rid) }
      let s := if bhPort s d.rp then s else hardFence (16 + d.rp) (updRp d.rp (fun x => { x with iommu := mset x.iommu 0x10 0 }) s)
      mgrEnd rDONE 0 (catUpdate s)

/-- BH_POOL_ADD. -/
def bhPoolAdd (pr : Proc) (s : State) : State :=
  let a := arg0 pr
  let p := bits a 0 4
  let i := bits a 8 6
  let n := bits a 24 40
  let b := bits (arg1 pr) 0 40
  if 12 ≤ p ∨ n = 0 then mgrEnd rINVALID 0 s
  else match mfind s.drives i with
    | none => mgrEnd rSTATE 0 s
    | some d =>
      if (part s p).st = .none ∨ b < 1024 ∨ d.blocks < b + n ∨
          s.bh.pools.any (fun e => decide (e.2.drv = i) && decide (b < e.2.first + e.2.count) && decide (e.2.first < b + n)) = true then mgrEnd rSTATE 0 s
      else if 256 ≤ s.bh.pools.length then mgrEnd rNORES 0 s
      else
        let k := ((List.range 256).find? (fun k => (mfind s.bh.pools k).isNone)).getD 0
        mgrEnd rDONE k (catUpdate (updBh (fun b' => { b' with pools := mins b'.pools k { part := p, drv := i, first := b, count := n } }) s))

/-- BH_POOL_REMOVE. -/
def bhPoolRemove (pr : Proc) (s : State) : State :=
  let k := bits (arg0 pr) 0 8
  match mfind s.bh.pools k with
  | none => mgrEnd rSTATE 0 s
  | some g =>
    if s.bh.alloc.any (fun e => decide (blkKey g.drv g.first ≤ e.1) && decide (e.1 < blkKey g.drv (g.first + g.count))) then mgrEnd rSTATE 0 s
    else mgrEnd rDONE 0 (catUpdate (updBh (fun b => { b with pools := mdel b.pools k }) s))

/-- BH_NS_CREATE (R375). -/
def bhNsCreate (pr : Proc) (s : State) : State :=
  let p := bits (arg0 pr) 0 4
  let size := arg1 pr
  if 12 ≤ p ∨ size = 0 ∨ size % 512 ≠ 0 then mgrEnd rINVALID 0 s
  else if (part s p).st = .none then mgrEnd rSTATE 0 s
  else
    let spans := size / 512
    let dirs := (spans + 511) / 512
    let got := freeBlocks s p (spans + dirs)
    if 2048 ≤ s.bh.nss.length ∨ got.length < spans + dirs then mgrEnd rNORES 0 s
    else
      let nsid := ((List.range 2048).map (· + 1)).find? (fun k => (mfind s.bh.nss k).isNone) |>.getD 1
      let u := s.bh.nsuid + 1
      let d : NsDef := { part := p, fmt4k := bit (arg0 pr) 8, size := size, nsuid := u, dir := got.drop spans, maps := got.take spans }
      let s := allocate nsid got (updBh (fun b => { b with nsuid := u, nss := mins b.nss nsid d }) s)
      mgrEnd rDONE nsid (catUpdate s)

/-- VFs that a namespace is attached to. -/
def nsVfs (s : State) (nsid : Nat) : List Nat := (s.bh.vfs.filter (fun e => e.2.ns.contains nsid)).map (·.1)

/-- BH_NS_DELETE. -/
def bhNsDelete (pr : Proc) (s : State) : State :=
  let nsid := bits (arg0 pr) 0 12
  if nsid = 0 ∨ 2048 < nsid then mgrEnd rINVALID 0 s
  else if (mfind s.bh.nss nsid).isNone ∨ (nsVfs s nsid).isEmpty = false then mgrEnd rSTATE 0 s
  else
    let mine := fun (k : Nat) => decide (k / 2 ^ 32 = nsid)
    mgrEnd rDONE 0 (catUpdate (updBh (fun b => { b with
      nss := mdel b.nss nsid, alloc := b.alloc.filter (fun e => decide (e.2 ≠ nsid + 1)), maps := b.maps.filter (fun e => !(mine e.1)), mapUse := b.mapUse.filter (fun k => !(mine k)),
      lostSp := b.lostSp.filter (fun k => !(mine k)), unready := b.unready.erase nsid }) s))

/-- BH_NS_ATTACH. -/
def bhNsAttach (pr : Proc) (s : State) : State :=
  let nsid := bits (arg0 pr) 0 12
  let v := bits (arg1 pr) 0 10
  if nsid = 0 ∨ 2048 < nsid then mgrEnd rINVALID 0 s
  else if (mfind s.bh.nss nsid).isNone ∨ vfIs s v = false ∨ (nsOf s nsid).part ≠ (vf s v).owner ∨ (vf s v).ns.contains nsid = true then mgrEnd rSTATE 0 s
  else if 8 ≤ (vf s v).ns.length ∨ 8 ≤ (nsVfs s nsid).length then mgrEnd rNORES 0 s
  else mgrEnd rDONE 0 (nsChanged v nsid (updVf v (fun x => { x with ns := x.ns ++ [nsid] }) s))

/-- BH_NS_DETACH: the VF's commands on the namespace complete first. -/
def bhNsDetach (pr : Proc) (s : State) : Option State :=
  let nsid := bits (arg0 pr) 0 12
  let v := bits (arg1 pr) 0 10
  if nsid = 0 ∨ 2048 < nsid then some (mgrEnd rINVALID 0 s)
  else if vfIs s v = false ∨ (vf s v).ns.contains nsid = false then some (mgrEnd rSTATE 0 s)
  else if s.bh.slots.any (fun x => decide (x.vf = v) && decide (x.n < 8192) && decide (x.e.nsid = nsid)) then none
  else some (mgrEnd rDONE 0 (nsChanged v nsid (updVf v (fun x => { x with ns := x.ns.erase nsid }) s)))

/-- The Cox tells a VF's owner that it was added (2) or deleted (3) (R399). -/
def vfMsg (p b v : Nat) (s : State) : State := sysMsg (some p) (b + v * 2 ^ 16) s

/-- BH_VF_CREATE (R398, R399): the VF is visible from the route switch on. -/
def bhVfCreate (pr : Proc) (s : State) : Option State :=
  let p := bits (arg0 pr) 0 4
  let nqp := bits (arg0 pr) 8 8
  let share := bits (arg1 pr) 0 14
  let guar := bits (arg1 pr) 16 14
  if 12 ≤ p ∨ nqp = 0 ∨ 128 < nqp ∨ share = 0 ∨ 8192 < share ∨ share < guar then some (mgrEnd rINVALID 0 s)
  else if (part s p).st = .none then some (mgrEnd rSTATE 0 s)
  else if 1024 ≤ s.bh.vfs.length ∨ 4096 < qpSum s + nqp ∨ 8192 < guarSum s + guar then some (mgrEnd rNORES 0 s)
  else if !(drained s) then none
  else
    let v := ((List.range 1024).find? (fun v => !(vfIs s v))).getD 0
    let t := updBh (fun b => { b with vfs := mins b.vfs v { owner := p, nqp := nqp, share := share, guar := guar, frozen := bit (arg0 pr) 16 } }) s
    if routesExist (routeSet t (nowVis t)) then some (mgrEnd rDONE v (vfMsg p 2 v (switchRoutes t)))
    else some (mgrEnd rFAILED 2 s)

/-- BH_VF_DELETE. -/
def bhVfDelete (pr : Proc) (s : State) : Option State :=
  let v := bits (arg0 pr) 0 10
  if vfIs s v = false ∨ (vf s v).ns.isEmpty = false then some (mgrEnd rSTATE 0 s)
  else if !(drained s) then none
  else
    let p := (vf s v).owner
    let s := flrVf v s
    some (mgrEnd rDONE 0 (vfMsg p 3 v (switchRoutes (updBh (fun b => { b with vfs := mdel b.vfs v }) s))))

/-- BH_VF_SHARE (R387). -/
def bhVfShare (pr : Proc) (s : State) : State :=
  let v := bits (arg0 pr) 0 10
  let share := bits (arg1 pr) 0 14
  let guar := bits (arg1 pr) 16 14
  if share = 0 ∨ 8192 < share ∨ share < guar then mgrEnd rINVALID 0 s
  else if !(vfIs s v) then mgrEnd rSTATE 0 s
  else if 8192 < guarSum s - (vf s v).guar + guar then mgrEnd rNORES 0 s
  else mgrEnd rDONE 0 (updVf v (fun x => { x with share := share, guar := guar }) s)

/-- BH_VF_FREEZE (R401). -/
def bhVfFreeze (pr : Proc) (s : State) : Option State :=
  let v := bits (arg0 pr) 0 10
  if pr.step = 0 then
    if vfIs s v = false ∨ (vf s v).frozen = true then some (mgrEnd rSTATE 0 s)
    else some (mgrStep { pr with step := 1, n := v } (updVf v (fun x => { x with frozen := true }) s))
  else if occ s v = 0 ∧ (slot s (admSlot v)).isNone = true then some (mgrEnd rDONE 0 (bhIrqAll v s))
  else none

/-- A freeze has not reached an idle VF in 5 s (R401). -/
def freezeTimeout (v : Nat) (s : State) : State :=
  match s.cox.cur with
  | some pr => if pr.op = 0x2B ∧ pr.step = 1 ∧ pr.n = v then mgrEnd rFAILED 0 s else s
  | none => s

/-- BH_VF_SAVE (R402). -/
def bhVfSave (pr : Proc) (s : State) : Option State :=
  let v := bits (arg0 pr) 0 10
  if pr.step = 0 then
    if vfIs s v = false ∨ (vf s v).frozen = false then some (mgrEnd rSTATE 0 s)
    else if imgAddrOk s v (arg1 pr) 16384 = false then some (mgrEnd rINVALID 0 s)
    else
      let w := hostWrite v true (arg1 pr) 16384 (vfImage s v) s
      some (mgrStep { pr with step := 1, n := v, d := w.1 } w.2)
  else if (rp s (bhEng pr.n)).tlps.any (fun t => t.seq = pr.d) then none
  else some (mgrEnd rDONE 0 s)

/-- BH_VF_RESTORE (R403). -/
def bhVfRestore (pr : Proc) (s : State) : Option State :=
  let v := bits (arg0 pr) 0 10
  if pr.step = 0 then
    if vfIs s v = false ∨ (vf s v).frozen = false ∨ (vf s v).sqs.any (fun e => e.1 ≠ 0) = true ∨ (vf s v).cqs.any (fun e => e.1 ≠ 0) = true then some (mgrEnd rSTATE 0 s)
    else if imgAddrOk s v (arg1 pr) 16384 = false then some (mgrEnd rINVALID 0 s)
    else
      let s := updBh (fun b => { b with image := 0, imageLeft := 4, imageBad := false }) s
      let s := (List.range 4).foldl (fun s i => hostRead v (2 ^ 24 + i) (arg1 pr + 4096 * i) 4096 s) s
      some (mgrStep { pr with step := 1, n := v } s)
  else if 0 < s.bh.imageLeft then none
  else if s.bh.imageBad ∨ imageOk s pr.n s.bh.image = false then some (mgrEnd rINVALID 0 s)
  else some (mgrEnd rDONE 0 (imageLoad pr.n s.bh.image s))

/-- BH_VF_THAW (R403). -/
def bhVfThaw (pr : Proc) (s : State) : State :=
  let v := bits (arg0 pr) 0 10
  if vfIs s v = false ∨ (vf s v).frozen = false then mgrEnd rSTATE 0 s
  else mgrEnd rDONE 0 ((onesOf 128 (vf s v).pba).foldl (fun s i => bhMsi v i s) (updVf v (fun x => { x with frozen := false }) s))

/-- BH_DIRTY_LOG (R404): the log's BASE and PAGES are read as it is enabled. -/
def bhDirtyLog (pr : Proc) (s : State) : Option State :=
  let v := bits (arg0 pr) 0 10
  if pr.step = 0 then
    if !(vfIs s v) then some (mgrEnd rSTATE 0 s)
    else if bit (arg0 pr) 16 = false then some (mgrEnd rDONE 0 (updVf v (fun x => { x with dlog := none, dlBase := 0, dlPages := 0 }) s))
    else if imgAddrOk s v (arg1 pr) 64 = false then some (mgrEnd rINVALID 0 s)
    else some (mgrStep { pr with step := 1, n := v } (hostRead v (2 ^ 24) (arg1 pr) 64 (updBh (fun b => { b with image := 0, imageLeft := 1, imageBad := false }) s)))
  else if 0 < s.bh.imageLeft then none
  else some (mgrEnd rDONE 0 (updVf pr.n (fun x => { x with dlog := some (arg1 pr), dlBase := bits s.bh.image 0 64 / 4096 * 4096, dlPages := bits s.bh.image 64 64 }) s))

/-- A Boathouse manager command goes a step further, or waits (R362, R397). -/
def bhStep (pr : Proc) (s : State) : Option State :=
  if s.bh.slab.isNone then some (mgrEnd rSTATE 0 s)
  else match pr.op with
    | 0x20 => some (bhAttach pr s)
    | 0x21 => some (bhDetach pr s)
    | 0x22 => some (bhPoolAdd pr s)
    | 0x23 => some (bhPoolRemove pr s)
    | 0x24 => some (bhNsCreate pr s)
    | 0x25 => some (bhNsDelete pr s)
    | 0x26 => some (bhNsAttach pr s)
    | 0x27 => bhNsDetach pr s
    | 0x28 => bhVfCreate pr s
    | 0x29 => bhVfDelete pr s
    | 0x2A => some (bhVfShare pr s)
    | 0x2B => bhVfFreeze pr s
    | 0x2C => bhVfSave pr s
    | 0x2D => bhVfRestore pr s
    | 0x2E => some (bhVfThaw pr s)
    | _ => bhDirtyLog pr s

/-- The VFs of a partition meet its reset or teardown (R392, R400). -/
def bhPartReset (p : Nat) (s : State) : State := (vfsOf s p).foldl (fun s v => flrVf v s) s

/-! ### Registers (Table 11.12) -/

/-- `BH_STAT`. -/
def bhStat (s : State) : Nat :=
  s.bh.vfs.length + qpSum s * 2 ^ 16 + slotsUsed s * 2 ^ 32 + guarSum s * 2 ^ 48 + b2n s.bh.pause * 2 ^ 62 + b2n s.bh.ready * 2 ^ 63

/-- `BH_VFSTAT` of a VF, and `BH_PVFSTAT` for partition `p`. -/
def bhVfStat (s : State) (v : Nat) (p : Option Nat) : Nat :=
  let x := vf s v
  let seen := match p with
    | some p => decide (x.owner = p)
    | none => true
  if vfIs s v && seen then
    1 + 2 * b2n x.frozen + 4 * b2n x.dlog.isSome + 8 * b2n (x.ps1 || x.ps1Entry) + x.owner * 2 ^ 4 + x.nqp * 2 ^ 8 + occ s v * 2 ^ 16 + x.share * 2 ^ 32 + x.guar * 2 ^ 48
  else 0

end Sys2Proof.Machine
end

