-- ==== Sys2Proof/Machine/CardOps.lean ====
section
/-! DEFINITION. The Race Card in the flash: slot directory, image, records and verification (R443 to R456).
Log entries with the choices and readings made here: 6, 58, 110, 111, 113, 174. -/

namespace Sys2Proof.Machine

/-- Change the card's state. -/
def updCard (g : Card → Card) (s : State) : State := { s with card := g s.card }

/-! ### Flash (R443 to R445) -/

/-- Bytes of a flash device. -/
def flBytes (cs : List Host.Cell) (a n : Nat) : List Nat := (List.range n).map (fun i => (rdByte cs (a + i)).toNat)
/-- A little-endian field of a flash device. -/
def fle (cs : List Host.Cell) (a n : Nat) : Nat := rdMem cs a n
/-- First byte of slot `k` (Table 13.1). -/
def slotBase (k : Nat) : Nat := 0x01000000 + 0x04000000 * k
/-- Bytes of a slot. -/
def slotSize : Nat := 0x04000000
/-- Chunks of bytes as a flash device's cells. -/
def flashOf (l : List (Nat × List (BitVec 8))) : List Host.Cell :=
  l.foldl (fun m e => (e.2.zipIdx).foldl (fun m b => wrByte m (e.1 + b.2) b.1) m) []

/-- Does a copy of the slot directory have its CRC (R445)? -/
def dirOk (cs : List Host.Cell) (a : Nat) : Bool := decide (crc32c (flBytes cs a 4092) = fle cs (a + 4092) 4)
/-- The copy in force: the valid one with the higher SEQ; `none` with no valid copy. -/
def dirCopy (cs : List Host.Cell) : Option Nat :=
  match dirOk cs 0, dirOk cs 0x1000 with
  | true, true => some (if fle cs 0 8 < fle cs 0x1000 8 then 0x1000 else 0)
  | true, false => some 0
  | false, true => some 0x1000
  | false, false => none
/-- Roles of Table 13.9. -/
def roEMPTY : Nat := 0
def roCURRENT : Nat := 1
def roPREVIOUS : Nat := 2
def roPENDING : Nat := 3
def roFAILED : Nat := 4
def roWRITING : Nat := 5
/-- Role of slot `k`; EMPTY where no copy of the directory is valid. -/
def slotRole (cs : List Host.Cell) (k : Nat) : Nat := ((dirCopy cs).map (fun a => fle cs (a + 8 + k) 1)).getD 0
/-- The slot of a role. -/
def slotOf (cs : List Host.Cell) (r : Nat) : Option Nat := (List.range 3).find? (fun k => slotRole cs k = r)
/-- Manager that owns the WRITING slot. -/
def writeOwner (cs : List Host.Cell) : Nat := ((dirCopy cs).map (fun a => fle cs (a + 16) 8)).getD 0
/-- Write the directory's other copy with SEQ + 1 (R445). -/
def dirWrite (roles : List Nat) (owner : Nat) (cs : List Host.Cell) : List Host.Cell :=
  let old := (dirCopy cs).getD 0x1000
  let seq := ((dirCopy cs).map (fun a => fle cs a 8)).getD 0
  let a := if old = 0 then 0x1000 else 0
  let cs := clearMem cs a (a + 4096)
  let cs := wrMem cs a 8 (seq + 1)
  let cs := (roles.zipIdx).foldl (fun m e => wrMem m (a + 8 + e.2) 1 e.1) cs
  let cs := wrMem cs (a + 16) 8 owner
  wrMem cs (a + 4092) 4 (crc32c (flBytes cs a 4092))
/-- The roles of the three slots. -/
def rolesOf (cs : List Host.Cell) : List Nat := (List.range 3).map (slotRole cs)
/-- Change the roles in the flash. -/
def setRoles (roles : List Nat) (owner : Nat) (s : State) : State := updCard (fun c => { c with cs0 := dirWrite roles owner c.cs0 }) s
/-- Change one slot's role. -/
def setRole (k r : Nat) (s : State) : State := setRoles ((rolesOf s.card.cs0).set k r) (writeOwner s.card.cs0) s

/-- The device and first byte of image `i`: slots 0 to 2 of CS0, 4 to 6 of CS1. -/
def imgAt0 (s : State) (i : Nat) : List Host.Cell × Nat := if i < 4 then (s.card.cs0, slotBase i) else ((s.card.cs1).getD [], slotBase (i - 4))

/-! ### Images and records (R446, R447) -/

/-- One section table entry: type, instance, offset, size and CRC. -/
structure Sect where
  ty : Nat := 0
  inst : Nat := 0
  off : Nat := 0
  size : Nat := 0
  crc : Nat := 0
  deriving DecidableEq, Repr, Inhabited
/-- The section table of the image at `b`. -/
def sects (cs : List Host.Cell) (b : Nat) : List Sect :=
  (List.range (fle cs (b + 6) 2)).map (fun i =>
    let a := b + 64 + 16 * i
    { ty := fle cs a 2, inst := fle cs (a + 2) 2, off := fle cs (a + 4) 4, size := fle cs (a + 8) 4, crc := fle cs (a + 12) 4 })
/-- The section of a type. -/
def sectOf (cs : List Host.Cell) (b ty : Nat) : Option Sect := (sects cs b).find? (fun x => x.ty = ty)
/-- One record (Table 13.5): KIND, byte 1, word at 4, words at 8 and 16. -/
structure Rec where
  kind : Nat := 0
  crit : Bool := false
  id : Nat := 0
  a : Nat := 0
  m : Nat := 0
  deriving DecidableEq, Repr, Inhabited
/-- The records of a section. -/
def recsOf (cs : List Host.Cell) (b ty : Nat) : List Rec :=
  match sectOf cs b ty with
  | none => []
  | some x => (List.range (x.size / 24)).map (fun i =>
      let a := b + x.off + 24 * i
      { kind := fle cs a 1, crit := bit (fle cs (a + 1) 1) 0, id := fle cs (a + 4) 4, a := fle cs (a + 8) 8, m := fle cs (a + 16) 8 })

/-! ### Register fields that a record or a software write meets (R12, R447) -/

/-- The registers that are not stored as registers but take writes: a slab entry, a route entry, a link's correction count, UART1
and an IOMMU instance. -/
def extraFlds (kind off : Nat) : List Fld :=
  if kind = 0x06 ∧ off = 0x008 then
    [⟨0, 2, .ro, .w, 0⟩, ⟨2, 4, .ro, .w, 0⟩, ⟨6, 2, .rw, .w, 0⟩, ⟨8, 1, .rw, .w, 0⟩, ⟨9, 2, .rw, .w, 0⟩, ⟨11, 2, .rw, .w, 0⟩,
     ⟨13, 11, .rw, .w, 0⟩, ⟨24, 1, .rw, .w, 0⟩]
  else if kind = 0x19 ∧ 0x1000 ≤ off ∧ off < 0x1800 ∧ (off - 0x1000) % 0x400 < 97 * 8 ∧ off % 8 = 0 then
    [⟨0, 36, .rw, .w, 0⟩, ⟨36, 16, .rw, .w, 0⟩, ⟨52, 1, .rw, .w, 0⟩]
  else if (kind = 0x11 ∨ kind = 0x30) ∧ off = 0x428 then [⟨48, 16, .rw, .v, 0⟩]
  else if kind = 0x26 ∧ off < 0x40 ∧ off % 8 = 0 then [⟨0, 8, .rw, .v, 0⟩]
  else if (kind = 0x12 ∨ kind = 0x25) ∧ 0x1000 ≤ off ∧ off < 0x2000 ∧ off % 8 = 0 then [⟨0, 64, .rw, .v, 0⟩]
  else []

/-- All fields of a register of a frame. -/
def allFlds (f off : Nat) : List Fld :=
  let l := fieldsAt f off
  if l.isEmpty then extraFlds (keyKind f) off else l

/-- Is a value no reserved encoding of the field at bit `lo` of a register (R12)?
DESIGN CHOICE: a value outside a field's stated range that the spec does not call reserved (PPA LIMIT outside 450 to 800,
`PRB_CTL`.STOP from 96, `MBX_TXCTL`.DST from 12, DEMO_THR 31) is treated as one; a group number of 96 to 127 in `LNK_ERR_INJ` is
stored and names no group. -/
def legalFld (kind off : Nat) (x : Fld) (v : Nat) : Bool :=
  if kind = 0x02 ∧ 0x100 ≤ off ∧ off < 0x400 then decide (v ≠ 3)
  else if kind = 0x03 ∧ off = 0 then decide (450 ≤ v) && decide (v ≤ 800)
  else if kind = 0x06 ∧ off = 0x008 then (if x.lo = 6 ∨ x.lo = 9 then decide (v ≠ 3) else true)
  else if kind = 0x06 ∧ off = 0x020 then decide (v ≠ 0)
  else if kind = 0x08 ∧ off = 0 then (if x.lo = 8 then true else decide (v ≠ 0))
  else if kind = 0x11 ∧ (off = 0x410 ∨ off = 0x418) then
    (if x.lo % 9 = 0 then decide (v = 1 ∨ v = 2) else decide (v ≠ 0))
  else if kind = 0x12 ∧ off = 0 then (if x.lo = 0 then decide (v ≤ 4) else if x.lo = 8 then decide (v ≠ 0 ∧ v ≠ 7) else true)
  else if kind = 0x15 ∧ off = 0 then (if x.lo = 8 then decide (v ≠ 0) else true)
  else if kind = 0x15 ∧ off = 8 then (if x.lo = 0 then decide (v ≠ 0) else if x.lo = 5 then decide (v ≠ 31) else true)
  else if kind = 0x17 ∧ off % 64 = 0 then (if x.lo = 0 then decide (v < 96) else if x.lo = 7 then decide (v ≤ 4) else true)
  else if kind = 0x22 ∧ off = 0x040 then decide (v < 12)
  else if (kind = 0x22 ∧ off = 0x0D0) ∨ (kind = 0x23 ∧ off = 0x050) ∨ (kind = 0x24 ∧ off = 0x018) then
    (if x.lo = 12 then decide (v ≠ 0) else true)
  else if kind = 0x30 ∧ off = 0x200 then (if x.lo = 0 then decide (v ≠ 7) else true)
  else true

/-- Bits of a field. -/
def fldBits (x : Fld) : Nat := (2 ^ x.w - 1) * 2 ^ x.lo
/-- Is a field one that a record may write? -/
def fldRw (x : Fld) : Bool := x.acc = .rw || x.acc = .rwl

/-- Does a REG record pass check 0x09 (Table 13.7)? -/
def regRecOk (r : Rec) : Bool :=
  let f := r.id / 65536
  let off := r.id % 65536
  let fs := allFlds f off
  let rw := fs.foldl (fun a x => if fldRw x then a ||| fldBits x else a) 0
  decide (f < 4096) && decide (off % 8 = 0) && !fs.isEmpty && decide (r.m &&& rw = r.m) &&
  fs.all (fun x => !(fldRw x) || decide (r.m &&& fldBits x = 0) || legalFld (keyKind f) off x (bits r.a x.lo x.w))

/-- Is a PARAM record's ID defined and its value in range (check 0x0A, Table 13.6)? -/
def paramOk (id v : Nat) : Bool :=
  let n4 := fun (i : Nat) => bits v (4 * i) 4
  if id = 0x0001 then decide (450 ≤ v) && decide (v ≤ 800)
  else if id = 0x0002 then decide (v &&& 0xF101 = v) && (!(bit v 8) || decide (bits v 12 4 < 12))
  else if id = 0x0003 ∨ id = 0x0031 ∨ (0x0010 ≤ id ∧ id < 0x001C) then decide (v < 4096)
  else if 0x0020 ≤ id ∧ id < 0x002C then decide (v < 2 ^ 32)
  else if id = 0x0030 then true
  else if id = 0x0032 ∨ id = 0x0033 ∨ id = 0x0034 then decide (v < 16384) && decide (v % 4 = 0)
  else if 0x0040 ≤ id ∧ id < 0x0070 then decide (v < 2 ^ 17)
  else if id = 0x0070 then decide (v < 12) || decide (v = 15)
  else if id = 0x0071 ∨ id = 0x0072 then (List.range 16).all (fun i => decide (n4 i < 12) || decide (n4 i = 15))
  else if 0x0100 ≤ id ∧ id < 0x010C then decide (v < 8) || decide (2 ^ 64 - 8 ≤ v ∧ v < 2 ^ 64)
  else if 0x0110 ≤ id ∧ id < 0x011C then decide (v < 16) || decide (2 ^ 64 - 16 ≤ v ∧ v < 2 ^ 64)
  else false

/-- Is a command's opcode one of Table 9.4 or 11.9 with arguments in range (check 0x0B)? -/
def cmdOk (op a0 a1 : Nat) : Bool :=
  let p := decide (bits a0 0 4 < 12)
  if op = 0x01 ∨ op = 0x06 ∨ op = 0x07 then p && decide (bits a1 0 4 < 12)
  else if op = 0x0A then p && decide (bits a1 0 4 < 12)
  else if op = 0x0B then decide (bits a1 0 4 < 12)
  else if op = 0x09 then true
  else if 0x02 ≤ op ∧ op ≤ 0x0C then p
  else if op = 0x20 then decide (bits a1 0 4 < 12)
  else if op = 0x22 then p && decide (a0 / 2 ^ 24 ≠ 0)
  else if op = 0x24 then p && decide (a1 ≠ 0) && decide (a1 % 512 = 0)
  else if op = 0x25 ∨ op = 0x26 ∨ op = 0x27 then decide (1 ≤ bits a0 0 12) && decide (bits a0 0 12 ≤ 2048)
  else if op = 0x28 then
    p && decide (1 ≤ bits a0 8 8) && decide (bits a0 8 8 ≤ 128) && decide (1 ≤ bits a1 0 14) && decide (bits a1 0 14 ≤ 8192) && decide (bits a1 16 14 ≤ bits a1 0 14)
  else if op = 0x2A then decide (1 ≤ bits a1 0 14) && decide (bits a1 0 14 ≤ 8192) && decide (bits a1 16 14 ≤ bits a1 0 14)
  else decide (0x20 ≤ op) && decide (op ≤ 0x2F)

/-! ### The layout that an image produces (check 0x0C; R306, R313, R337, R412) -/

/-- The layout: slab entries, dies and ports of each partition, partitions created, and whether it is still legal. -/
structure Lay where
  slab : Map Nat := []
  dies : List Nat := List.replicate 12 0
  rps : List Nat := List.replicate 12 0
  made : Nat := 0
  sel : Nat := 0
  ok : Bool := true
  deriving DecidableEq, Repr, Inhabited

/-- One record's part in the layout. -/
def layRec (x : Lay) (r : Rec) : Lay :=
  let p := bits r.a 0 4
  let d := bits r.m 0 4
  if r.kind = 1 then
    if r.id = 0x00050000 then { x with sel := setBits x.sel 0 14 (r.a &&& r.m ||| (x.sel &&& (2 ^ 14 - 1 - (r.m &&& (2 ^ 14 - 1))))) }
    else if r.id = 0x00050008 then
      let old := mget x.slab x.sel
      { x with slab := mset x.slab x.sel ((old - (old &&& r.m)) ||| (r.a &&& r.m)) }
    else x
  else if r.kind ≠ 2 then x
  else if r.id = 1 then
    { x with made := x.made ||| 2 ^ p, dies := x.dies.set p (x.dies.getD p 0 ||| 2 ^ d),
             ok := x.ok && !(bit x.made p) && x.dies.all (fun m => !(bit m d)) }
  else if r.id = 7 then
    { x with dies := x.dies.set p (x.dies.getD p 0 ||| 2 ^ d), ok := x.ok && x.dies.all (fun m => !(bit m d)) && bit x.made p }
  else if r.id = 0x0A then
    { x with rps := x.rps.set p (x.rps.getD p 0 ||| 2 ^ d), ok := x.ok && x.rps.all (fun m => !(bit m d)) && bit x.made p }
  else if r.id = 8 then
    let b := bits r.m 0 14
    let lw := slLw (mget x.slab b)
    let ns := (List.range (2 ^ lw)).map (b + ·)
    { x with slab := ns.foldl (fun m n => mset m n (setBits (setBits (mget m n) 0 2 slOWNED) 2 4 p)) x.slab,
             ok := x.ok && bit x.made p && ns.all (fun n => slState (mget x.slab n) ≠ slOWNED) }
  else if r.id = 5 then
    { x with made := putBit x.made p false, dies := x.dies.set p 0, rps := x.rps.set p 0,
             slab := x.slab.map (fun e => (e.1, if slState e.2 = slOWNED ∧ slOwner e.2 = p then setBits e.2 0 2 0 else e.2)) }
  else if r.id = 6 then { x with dies := x.dies.set p (putBit (x.dies.getD p 0) d false) }
  else if r.id = 9 then
    let b := bits r.m 0 14
    { x with slab := ((List.range (2 ^ slLw (mget x.slab b))).map (b + ·)).foldl (fun m n => mset m n (setBits (mget m n) 0 2 0)) x.slab }
  else if r.id = 0x0B then { x with rps := x.rps.set p (putBit (x.rps.getD p 0) d false) }
  else x

/-- Is the produced layout legal for the image? -/
def layOk (cs : List Host.Cell) (b : Nat) : Bool :=
  let conf := recsOf cs b 1
  let x := (conf ++ recsOf cs b 2).foldl layRec {}
  let st : State := { slab := x.slab }
  let par := fun (id : Nat) => ((conf.filter (fun r => r.kind = 3 && r.id = id)).getLast?.map (·.a)).getD 0
  let prot := par 0x0031
  let owned := x.slab.filter (fun e => decide (slState e.2 = slOWNED))
  x.ok && (List.range 12).all (fun p => !(bit x.made p) || decide (x.dies.getD p 0 ≠ 0)) &&
  mget x.slab 3 = 0 &&
  owned.all (fun e => !(setBad st (e.1 / 2 ^ slLw e.2 * 2 ^ slLw e.2))) &&
  owned.all (fun e => decide (slKind e.2 ≠ 2) || (bit (x.rps.getD (slOwner e.2) 0) (slDslab e.2 % 16) && !(bit prot (slOwner e.2)))) &&
  (sects cs b).all (fun t => decide (t.ty ≠ 5) ||
    (let a := fle cs (b + t.off) 8
     let n := t.size - 8
     (List.range ((n + 2 ^ 30 - 1) / 2 ^ 30 + 1)).all (fun i =>
       let q := if a + i * 2 ^ 30 < a + n then a + i * 2 ^ 30 else a + n - 1
       decide (n = 0) || (decide (q < memTop) && decide (slState (mget x.slab (slabOf q)) = slOWNED) && decide (slOwner (mget x.slab (slabOf q)) = t.inst)))))

/-! ### Verification (R448) -/

/-- SVN floor of the fuses. -/
def svnFloor (s : State) : Nat := max Config.factorySvn.toNat s.card.svn

/-- The first record of the two sections that fails a test, by its index in its section. -/
def badRec (cs : List Host.Cell) (b : Nat) (p : Nat → Rec → Bool) : Option Nat :=
  let go := fun (ty : Nat) => ((recsOf cs b ty).zipIdx.find? (fun e => !(p ty e.1))).map (·.2)
  match go 1 with
  | some i => some i
  | none => go 2

/-- Check 0x06: the section table. -/
def sectOk (cs : List Host.Cell) (b : Nat) : Bool :=
  let len := fle cs (b + 24) 4
  let n := fle cs (b + 6) 2
  let ts := sects cs b
  let cnt := fun (ty : Nat) => (ts.filter (fun x => x.ty = ty)).length
  let pfw := ts.filter (fun x => x.ty = 5)
  decide (1 ≤ n) && decide (n ≤ 64) && decide (64 + 16 * n ≤ len - 512) &&
  ts.all (fun x => decide (x.off % 4096 = 0) && decide (0x1000 ≤ x.off) && decide (x.off + x.size ≤ len - 512) && decide (1 ≤ x.ty ∧ x.ty ≤ 5)) &&
  ts.zipIdx.all (fun x => ts.zipIdx.all (fun y => decide (x.2 = y.2) || decide (x.1.off + x.1.size ≤ y.1.off) || decide (y.1.off + y.1.size ≤ x.1.off))) &&
  [1, 2, 3, 4].all (fun ty => decide (cnt ty = 1)) && decide (pfw.length ≤ 12) && decide (((pfw.map (·.inst)).eraseDups).length = pfw.length) &&
  ts.all (fun x => if x.ty ≤ 2 then decide (x.size / 24 ≤ 65536) else if x.ty ≤ 4 then decide (x.size ≤ 0x200000) else decide (x.size ≤ 0x2000000) && decide (x.inst < 12))

/-- Bytes of a section as the FWONLY check compares them. -/
def sectBytes (cs : List Host.Cell) (b ty inst : Nat) : Option (List Nat) :=
  ((sects cs b).find? (fun x => x.ty = ty && x.inst = inst)).map (fun x => flBytes cs (b + x.off) x.size)

/-- Verify the image at `b` (Table 13.7): the code of the first check that fails, and the index of a failing record. -/
def verify (s : State) (cs : List Host.Cell) (b : Nat) : Option (Nat × Nat) :=
  let len := fle cs (b + 24) 4
  let sb := b + len - 512
  let key := fle cs (b + 28) 1
  let kb := flBytes cs sb 97
  let be := fun (a n : Nat) => (flBytes cs a n).foldl (fun v x => 256 * v + x) 0
  let bv := fun (l : List Nat) => l.map (BitVec.ofNat 8)
  let cur := (slotOf cs roCURRENT).map slotBase
  if fle cs b 4 ≠ 0x43524E52 ∨ fle cs (b + 4) 2 ≠ 1 ∨ fle cs (b + 20) 4 ≠ 0x00A20576 ∨ slotSize < len ∨ len < 4096 ∨ len % 4096 ≠ 0 then some (1, 0)
  else if 4 ≤ key ∨ kb.headD 0 ≠ 4 ∨ (flBytes cs (sb + 97) 7).any (· ≠ 0) = true ∨ (flBytes cs (sb + 200) 312).any (· ≠ 0) = true ∨
      sha384 (bv kb) ≠ Config.keyHash key then some (2, 0)
  else if Config.factoryRevoked.getLsbD key = true then some (3, 0)
  else if ecdsaOk (be (sb + 1) 48) (be (sb + 49) 48) (be (sb + 104) 48) (be (sb + 152) 48) (sha384 (bv (flBytes cs b (len - 512)))).toNat = false then some (4, 0)
  else if fle cs (b + 16) 4 < svnFloor s then some (5, 0)
  else if sectOk cs b = false then some (6, 0)
  else if (sects cs b).any (fun x => crc32c (flBytes cs (b + x.off) x.size) ≠ x.crc) = true then some (7, 0)
  else if bit (fle cs (b + 29) 1) 0 = true ∧ (match cur with
      | none => true
      | some c => (List.range 12).any (fun i => sectBytes cs b 5 i ≠ sectBytes cs c 5 i) || sectBytes cs b 1 0 ≠ sectBytes cs c 1 0 || sectBytes cs b 2 0 ≠ sectBytes cs c 2 0) = true then some (8, 0)
  else match badRec cs b (fun ty r => if r.kind = 1 then regRecOk r else (ty = 1 && r.kind = 3) || (ty = 2 && r.kind = 2)) with
    | some i => some (9, i)
    | none => match badRec cs b (fun _ r => r.kind ≠ 3 || paramOk r.id r.a) with
      | some i => some (10, i)
      | none => match badRec cs b (fun _ r => r.kind ≠ 2 || (cmdOk r.id r.a r.m && decide (r.id < 256))) with
        | some i => some (11, i)
        | none => if layOk cs b then none else some (12, 0)

/-- The image a start may use is verified. -/
def imgVerify (s : State) (i : Nat) : Option (Nat × Nat) := let x := imgAt0 s i; verify s x.1 x.2

/-! ### Parameters (Table 13.6) and calibration (R456) -/

/-- Value of a parameter in force. -/
def param (s : State) (id : Nat) : Option Nat := (mfind s.card.params id).map (·.toNat)
/-- A PARAM record takes effect. -/
def paramPut (id v : Nat) (s : State) : State :=
  let s := updCard (fun c => { c with params := mins c.params id (BitVec.ofNat 64 v) }) s
  if id = 0x0001 then setFld frPpa 0 0 10 v s
  else if id = 0x0002 then { s with bmcMgr := bit v 0, parts := (List.range 12).foldl (fun m p => mupd m p (fun x => { x with manager := bit v 8 && decide (bits v 12 4 = p) })) s.parts }
  else if 0x0010 ≤ id ∧ id < 0x001C then { s with mailMx := s.mailMx.set (id - 0x10) v }
  else if 0x0020 ≤ id ∧ id < 0x002C then { s with dieIds := s.dieIds.set (id - 0x20) (bits v 0 16, bits v 16 16) }
  else if id = 0x0030 then { s with pair := { s.pair with id := BitVec.ofNat 64 v } }
  else if id = 0x0031 then { s with pairP := (List.range 12).foldl (fun m p => mupd m p (fun x => { x with prot := bit v p })) s.pairP }
  else if id = 0x0034 then { s with bh := { s.bh with slab := some v } }
  else if id = 0x0070 then { s with uart1 := v }
  else if id = 0x0071 then { s with gpioOwn := setBits s.gpioOwn 0 64 v }
  else if id = 0x0072 then { s with gpioOwn := setBits s.gpioOwn 64 64 v }
  else s
/-- Every parameter returns to its default before CONFIG is applied. -/
def paramReset (s : State) : State :=
  let s := { s with dieIds := List.replicate 12 (0x0A53, 0x0576), uart1 := 15, gpioOwn := 2 ^ 128 - 1, mailMx := List.replicate 12 0, pair := { s.pair with id := 0 },
                    pairP := (List.range 12).foldl (fun m p => mupd m p (fun x => { x with prot := false })) s.pairP }
  paramPut 0x0001 800 (paramPut 0x0002 1 (updCard (fun c => { c with params := [] }) s))

/-- A signed 64-bit parameter; 0 where CONFIG gives none. -/
def paramInt (s : State) (id : Nat) : Int := let v := (param s id).getD 0; if v < 2 ^ 63 then (v : Int) else (v : Int) - 2 ^ 64
/-- Factory voltages of a die's level: nominal, minimum and maximum in mV (Table 14.10). -/
def vFuse (d k : Nat) : Nat × Nat × Nat :=
  let w := (Config.factory (frDie d) (0x240 + 8 * k)).toNat
  (bits w 0 10, bits w 16 10, bits w 32 10)
/-- R456 for a core voltage: the effective value, and whether the sum was clamped. -/
def effVolt (s : State) (d k : Nat) : Nat × Bool :=
  let f := vFuse d k
  let v : Int := (f.1 : Int) + 5 * paramInt s (0x100 + d)
  (min (max v.toNat f.2.1) f.2.2, decide (v < f.2.1) || decide ((f.2.2 : Int) < v))
/-- Effective offset of a die's thermal sensors in 0.25 °C, within ±4 °C (Table 13.8). -/
def effTherm (s : State) (d : Nat) : Int := if d < 12 then min (max (paramInt s (0x110 + d)) (-16)) 16 else 0
/-- `MGR_CALVAL` for a parameter ID (Table 13.9). -/
def calVal (s : State) (id : Nat) : Nat :=
  if 0x100 ≤ id ∧ id < 0x10C then
    let lv := (List.range 7).foldl (fun a k => if (effVolt s (id - 0x100) k).2 then a + 2 ^ k else a) 0
    (paramInt s id % 256).toNat + b2n (decide (lv ≠ 0)) * 2 ^ 8 + lv * 2 ^ 9
  else if 0x110 ≤ id ∧ id < 0x11C then (paramInt s id % 256).toNat
  else 0

end Sys2Proof.Machine
end

