-- ==== Sys2Proof/Machine/DieOps.lean ====
section
/-! DEFINITION. What E4 of a compute die does: the way locks of its L3 (R106 to R110), and the range invalidations
that the Cox orders (R112 to R114).
Log entries with the choices and readings made here: 24. -/

namespace Sys2Proof.Machine

/-- Do two ranges of regions overlap? -/
def rangesMeet (a b : Nat × Nat) : Bool := decide (a.1 ≤ b.2) && decide (b.1 ≤ a.2)

/-- Does R107 refuse a write of `L3_LOCKn_CTL` with WAYS `w` and EN `en`? -/
def lockRefused (s : State) (d n w : Nat) (en : Bool) : Bool :=
  let fr := frDie d
  let now := lockEnt s d n
  let mine := (fld s fr (0x100 + 0x20 * n) 12 40, fld s fr (0x108 + 0x20 * n) 12 40)
  let others := ((List.range 4).filter (· ≠ n)).filterMap (lockEnt s d)
  match now with
  | some e => decide (e.1 ≠ w)
  | none => en && (decide (w = 0) || decide (mine.2 < mine.1) || others.any (fun e => decide (e.1 &&& w ≠ 0)) ||
      others.any (fun e => rangesMeet mine e.2) || decide (8 < popcount 12 w + (others.map (fun e => popcount 12 e.1)).sum))

/-- The lines that a sweep removes from a slice: those in the entry's ways that lie outside its range (R108). -/
def sweepKeys (s : State) (d k n : Nat) : List Nat :=
  match lockEnt s d n with
  | none => []
  | some (w, b, e) => ((slice s d k).l3.filter (fun x => x.2.v && bit w (x.1 % 12) &&
      !(decide (b ≤ lineRegion x.2.line) && decide (lineRegion x.2.line ≤ e)))).map (·.1)

/-- A write of `L3_LOCKn_CTL`: the entry is enabled and its sweep begins, or it is disabled, or the write is refused
(R107, R108). -/
def lockCtl (d n v : Nat) (s : State) : State :=
  let fr := frDie d
  let w := bits v 0 12
  let en := bit v 16
  if lockRefused s d n w en then setBit fr 0x180 8 s
  else
    let was := (lockEnt s d n).isSome
    let s := setFld fr (0x110 + 0x20 * n) 0 12 w (setFld fr (0x110 + 0x20 * n) 16 1 (b2n en) s)
    if en && !was then
      let s := updDie d (fun x => { x with sweep := x.sweep ++ [n] }) s
      (List.range 24).foldl (fun s k => sliceRun d k ((sweepKeys s d k n).foldl (fun s key => l3Evict d k key s) s)) s
    else if en then s
    else updDie d (fun x => { x with sweep := x.sweep.filter (· ≠ n) }) s

/-- A write of BASE or LIMIT of an enabled entry is refused (R107). -/
def lockRangeWrite (d off v : Nat) (s : State) : State :=
  if (lockEnt s d ((off - 0x100) / 0x20)).isSome then setBit (frDie d) 0x180 8 s
  else setFld (frDie d) off 12 40 (bits v 12 40) s

/-- All slices have finished a sweep: allocation into the locked ways begins (R108). -/
def sweepDone (d : Nat) (s : State) : State :=
  (List.range 24).foldl (fun s k => sliceRun d k s) (updDie d (fun x => { x with sweep := x.sweep.drop 1 }) s)

/-- Every slice goes on. -/
def dieRun (d : Nat) (s : State) : State := (List.range 24).foldl (fun s k => sliceRun d k s) s

/-- E4 takes a range invalidation: it runs when no other runs on the die, else it waits in the CoxCmd buffer (R113). -/
def rangeTake (d lo hi : Nat) (s : State) : State :=
  match (die s d).ri with
  | some _ => updDie d (fun x => { x with coxq := x.coxq ++ [.range lo hi] }) s
  | none => dieRun d (updDie d (fun x => { x with ri := some { lo := lo, hi := hi } }) s)

/-- The CoxCmd of a range invalidation: its data names the first and last byte. -/
def rangeFlit (d lo hi : Nat) : Flit :=
  { coxCmdFlit coxAgent d 3 with data := BitVec.ofNat 512 (3 + lo * 2 ^ 64 + hi * 2 ^ 128) }

/-- Is a range invalidation of the Cox open at a die: waiting at the Cox, on its way, at E4, or its completion on the way? -/
def rangeAt (s : State) (d : Nat) : Bool :=
  (die s d).ri.isSome || !((die s d).coxq.isEmpty) || s.cox.cmds.any (fun f => decide (f.dst = agent d 100) && decide (f.data.toNat % 256 = 3)) ||
  s.wires.any (fun f =>
    (decide (f.net = .dat) && decide (f.op = oIoWrData) && decide (f.src = coxAgent) && decide (f.dst = agent d 100) && decide (f.data.toNat % 256 = 3)) ||
    (decide (f.net = .rsp) && decide (f.op = oIoComp) && decide (f.src = agent d 100) && decide (f.dst = coxAgent)))

/-- Every slice is done (Table 3.8 step 4): E4 releases what is held, answers the Cox and starts the next command that waits. -/
def rangeComplete (d : Nat) (s : State) : State :=
  match (die s d).ri with
  | none => s
  | some r =>
    if (List.range 24).all (fun k => rangeDone s d k) then
      let s := cmdAnswer d (rangeFlit d r.lo r.hi) (dieRun d (updDie d (fun x => { x with ri := none }) s))
      match (die s d).coxq with
      | .range lo hi :: t => rangeTake d lo hi (updDie d (fun x => { x with coxq := t }) s)
      | _ => s
    else s

/-- A bound of Table 3.8 is exceeded (R113). -/
def rangeTimeout (d : Nat) (s : State) : State :=
  if (die s d).ri.isSome then
    logErr { frame := frDlog d, ty := 0x07, cls := 2, consq := true, part := diePart s d, agent := some (agent d 100) } s
  else s

/-- The Cox receives no completion in time (R113). -/
def rangeNoresp (d : Nat) (s : State) : State :=
  if rangeAt s d then
    logErr { frame := frCox, ty := 0x09, cls := 2, consq := true, part := diePart s d, agent := some (agent d 100) } s
  else s

end Sys2Proof.Machine
end

