-- ==== Sys2Proof/Machine/PairOps.lean ====
section
/-! DEFINITION. Pair mode: the link and its logs, epochs, output commit, takeover and resync (R407 to R439); and the start of a
partition's teardown (Table 15.1).
Log entries with the choices and readings made here: 50, 155, 156, 159, 160, 204, 205, 210. -/

namespace Sys2Proof.Machine

/-! ### The link (R407 to R411, R426) -/

/-- A crosslink is up: 0 RP10, 1 RP11. -/
def xUp (s : State) (i : Nat) : Bool := fbit s frPair 0x008 i
/-- The crosslink of a stream (R408). -/
def xOf (s : State) (stream : Nat) : Nat :=
  let i := if stream < 32 then stream % 2 else 0
  if xUp s i then i else 1 - i
/-- Some crosslink is up. -/
def pairUp (s : State) : Bool := xUp s 0 || xUp s 1
/-- Send a frame now, past the send log: those of the Cox's own (Table 12.1). -/
def pairNow (f : PairFrame) (s : State) : State :=
  if pairUp s then { s with pair := { s.pair with out := s.pair.out ++ [(xOf s f.stream, f)] } } else s
/-- A record of the Cox whose type the specification does not give. -/
def coxErr (cls p : Nat) (consq : Bool) (s : State) : State :=
  let q := drawNat s
  logErr { frame := frCox, ty := q.1 % 256, cls := cls, consq := consq, part := p } q.2

/-- What the package tells its partner of a protected partition (R412). -/
def myDesc (s : State) (p : Nat) : PairDesc :=
  { part := p, dies := (part s p).dies,
    sets := (s.slab.filter (fun e => decide (slState e.2 = slOWNED) && decide (slOwner e.2 = p) && decide (e.1 % 2 ^ slLw e.2 = 0))).map (fun e => (e.1, slLw e.2)),
    vfs := vfsOf s p, nss := (s.bh.nss.filter (fun e => e.2.part = p)).map (fun e => (e.1, b2n e.2.fmt4k, e.2.size)) }
/-- The protected partitions of the package. -/
def myProt (s : State) : List Nat := (List.range 12).filter (fun p => (pairP s p).prot)

/-- The Cox sends HELLO (R411). The bytes of its payload are not laid out; they are free. -/
def helloSend (s : State) : State :=
  if s.pair.helloOn && pairUp s then
    let q := drawNat s
    pairNow { ty := 1, part := 15, stream := 32, arg := Config.factory frIof 0, data := (List.range 64).map (fun i => BitVec.ofNat 8 (q.1 / 256 ^ i)) }
      { q.2 with pair := { q.2.pair with hellos := q.2.pair.hellos + 1 } }
  else s

/-- A HELLO arrives (R411, R412). -/
def helloTakePair (id : Word) (ds : List PairDesc) (s : State) : State :=
  if !(s.pair.helloOn && pairUp s) then s
  else
    let mine := (myProt s).map (myDesc s)
    let ok := decide (id = s.pair.id) && mine.all (fun d => ds.contains d) && ds.all (fun d => mine.contains d)
    if ok then
      let s := { s with pair := { s.pair with helloOn := false } }
      (myProt s).foldl (fun s p => setReg (frPpair p) 0x008 1 (updPairP p (fun x => { x with matched := true, epoch := 1 }) s)) (setFld frPair 0x008 2 1 1 s)
    else (myProt s).foldl (fun s p => setPairSt p .alone s) (coxErr 1 15 false s)

/-- The Cox drains `k` frames of the send log to the link in order (R417); they are kept until their epoch commits. -/
def pairDrain : Nat → State → State
  | 0, s => s
  | k + 1, s =>
    match s.pair.send with
    | [] => s
    | f :: t =>
      if pairUp s then pairDrain k (pairNow f { s with pair := { s.pair with send := t, sent := s.pair.sent ++ [f] } }) else s

/-- Frames of a partition leave the logs. -/
def pairDrop (p : Nat) (s : State) : State :=
  { s with pair := { s.pair with send := s.pair.send.filter (fun f => f.part ≠ p), sent := s.pair.sent.filter (fun f => f.part ≠ p) } }

/-! ### Teardown begins (R182, R503, Table 15.1) -/

/-- FATAL that names partitions goes out over every crosslink that is up (R427). -/
def fatalSend (ps : List Nat) (s : State) : State :=
  if ps.isEmpty then s
  else
    let f : PairFrame := { ty := 10, part := 15, stream := 32, arg := BitVec.ofNat 64 (ps.foldl (fun a p => a + 2 ^ p) 0) }
    { s with pair := { s.pair with out := s.pair.out ++ ((List.range 2).filter (xUp s)).map (fun i => (i, f)) } }

/-- FATAL for every protected partition in every pair role (R457 step 1, Table 15.10 step 2). -/
def fatalAll (s : State) : State := fatalSend ((List.range 12).filter (fun p => isProtected s p)) s

/-- Those of some partitions that run here as protected ones are GONE (R427). -/
def pairGive (ps : List Nat) (s : State) : State :=
  (ps.filter (fun p => mirrored s p)).foldl (fun s p => updPairP p (fun x => { x with close := 0, told := [], todo := [], hold := false, bulk := [], blk := [] }) (setPairSt p .gone (pairDrop p s))) s

/-- The Cox fences a partition's dies and root ports and sends the homes the teardown command; the manager is told (R182, R327,
R330, R503, Table 10.11). -/
def teardownStart (p : Nat) (s : State) : State :=
  if 12 ≤ p ∨ ucdTarget s p = false ∨ (part s p).st = .down then s
  else
    let s := pairGive [p] (if mirrored s p then fatalSend [p] s else s)
    let s := (diesOf s p).foldl (fun s d => hardFence d s) s
    let s := (rpsOf s p).foldl (fun s r => hardFence (16 + r) s) s
    let s := updPart p (fun x => { x with st := .down, tearing := List.range 32 }) s
    mgtMsix 2 (sysMsg (managerPart s) (0x01 + p * 2 ^ 8) s)

/-! ### Closing an epoch (R418 to R422, Table 12.3) -/

/-- The CKPT command's payload code, beside those of `coxCmdFlit`. -/
def ckptCode : Nat := 4

/-- Targets of CKPT: dies, root ports as 16 + r, 32 the Boathouse. -/
def ckptTargets (s : State) (p : Nat) : List Nat := diesOf s p ++ (rpsOf s p).map (16 + ·) ++ [32]

/-- Agent of a CKPT target. -/
def ckptAgent (t : Nat) : Nat := if t < 16 then agent t 100 else if t < 32 then rpAgent (t - 16) else agent 12 0x68

/-- The CKPT command to a target. -/
def ckptFlit (t : Nat) : Flit := { coxCmdFlit coxAgent 0 ckptCode with dst := ckptAgent t }

/-- A close begins: CKPT goes out (step 1). -/
def closeStart (p : Nat) (s : State) : State :=
  if !(mirrored s p) ∨ (pairP s p).close ≠ 0 then s
  else
    let ts := ckptTargets s p
    let s := updPairP p (fun x => { x with close := 1, told := ts, todo := ts }) s
    ts.foldl (fun s t => coxCommand (ckptFlit t) s) s

/-- Number of a privilege mode in a HART frame (the model's own). -/
def privNum : Priv → Nat
  | .m => 0
  | .s => 1
  | .u => 2
  | .vs => 3
  | .vu => 4

/-- Mode of such a number. -/
def numPriv (n : Nat) : Priv :=
  if n = 0 then .m else if n = 1 then .s else if n = 2 then .u else if n = 3 then .vs else .vu

/-- The state that a HART frame carries, as the model lays it out: the integer, floating-point and vector registers and the CSRs
are part of it (R419). -/
def hartBytes (x : Hart) : Nat :=
  let o := fun (w : Option Word) => match w with
    | some v => 1 + v.toNat * 2 ^ 64
    | none => 0
  atBytes [(0, x.pc), (8, privNum x.priv),
    (9, b2n x.mstateenC + 2 * b2n x.hstateenC + 4 * b2n x.tw + 8 * b2n x.vtw + 16 * b2n x.adue + 32 * b2n x.cbie + 64 * b2n x.irq),
    (16, x.a0.toNat), (24, x.a1.toNat), (32, x.mcycle.toNat), (40, x.minstret.toNat), (48, x.rnslp.toNat), (56, x.rnlatol.toNat), (64, o x.stimecmp), (80, o x.vstimecmp),
    (96, x.mie.toNat), (104, x.mcountinhibit.toNat), (112, x.csr.length)] +
  atBytes (x.xr.map (fun e => (128 + 8 * (e.1 % 32), e.2.toNat)) ++ x.fr.map (fun e => (384 + 8 * (e.1 % 32), e.2.toNat)) ++
    x.vr.map (fun e => (640 + 32 * (e.1 % 32), e.2.toNat)) ++ ((x.csr.take 240).zipIdx.map (fun e => (1664 + 10 * e.2, e.1.1 % 2 ^ 16 + e.1.2.toNat * 2 ^ 16))))

/-- Load a hart from its HART frame. -/
def hartLoad (h v : Nat) (s : State) : State :=
  let g := fun (o n : Nat) => bits v (8 * o) (8 * n)
  let w := fun (o : Nat) => BitVec.ofNat 64 (g o 8)
  let o := fun (a : Nat) => if g a 8 = 0 then none else some (w (a + 8))
  let fl := g 9 1
  let regs := fun (a : Nat) => (List.range 32).foldl (fun (m : Map Word) i => mset m i (w (a + 8 * i))) []
  let y : Hart :=
    { xr := regs 128, fr := regs 384, vr := (List.range 32).foldl (fun (m : Map (BitVec 256)) i => mset m i (BitVec.ofNat 256 (g (640 + 32 * i) 32))) [],
      mie := w 96, mcountinhibit := w 104,
      csr := (List.range (min 240 (g 112 8))).foldl (fun (m : Map Word) i => mins m (g (1664 + 10 * i) 2) (w (1666 + 10 * i))) [],
      st := .stopped, pc := g 0 8, priv := numPriv (g 8 1), mstateenC := bit fl 0, hstateenC := bit fl 1, tw := bit fl 2, vtw := bit fl 3,
      adue := bit fl 4, cbie := bit fl 5, irq := bit fl 6, a0 := w 16, a1 := w 24, mcycle := w 32, minstret := w 40,
      rnslp := w 48, rnlatol := w 56, stimecmp := o 64, vstimecmp := o 80 }
  updHart h (fun x => { y with done := x.done, seq := x.seq }) s

/-- A HART frame (Table 12.1). -/
def hartFrameOf (s : State) (p h : Nat) : PairFrame :=
  { ty := 4, part := p, stream := 32, epoch := (pairP s p).epoch, arg := BitVec.ofNat 64 (h + (if (hart s h).st = .parked then 1024 else 0)),
    data := leBytes 4096 (hartBytes (hart s h)) }

/-- Frames of a number of `n` bytes, 256 bytes each: section, index and offset name the place in bytes 8 to 15. -/
def frames256 (ty p stream e sec n v : Nat) : List PairFrame :=
  (List.range ((n + 255) / 256)).map (fun i =>
    { ty := ty, part := p, stream := stream, epoch := e, arg := BitVec.ofNat 64 (sec + i * 2 ^ 32), data := leBytes (min 256 (n - 256 * i)) (v / 256 ^ (256 * i)) })

/-- The dirty lines of a die, by slice (Table 12.3 step 3). -/
def dirtyLines (s : State) (d k : Nat) : List Nat :=
  let l2 := (List.range 48).flatMap (fun c => ((hart s (48 * d + c)).l2.filter (fun e => (e.2.st = .m || e.2.st = .sd) && decide (sliceOf (lineRegion e.2.line) = k))).map (fun e => e.2.line))
  let l3 := ((slice s d k).l3.filter (fun e => e.2.v && e.2.dirty)).map (fun e => e.2.line)
  (l2 ++ l3).eraseDups

/-- Every dirty line of a die is written back and kept clean: its slice asks the home with CboClean, whose SnpClean collects
the data (R94, Table 12.3 step 3). -/
def dieClean (d : Nat) (s : State) : State :=
  (List.range 24).foldl (fun s k => (dirtyLines s d k).foldl (fun s l =>
    let t := upTag (slice s d k)
    let s := updSlice d k (fun c => { c with wb := c.wb ++ [{ txn := t, line := l, st := .m, clean := true, gone := true }] }) s
    sendUp d (upFlit s d k l oCboClean t) s) s) s

/-- What a Boathouse command in flight is told as (R420): started or done with its status, and the entry. -/
def inflight (s : State) (v : Nat) : Nat :=
  let xs := s.bh.slots.filter (fun y => decide (y.vf = v) && !y.drop)
  let one := fun (y : Slot) =>
    atBytes [(0, if y.ph = .post then 2 else 1), (2, y.status), (4, y.q), (6, y.e.cid), (8, y.e.op), (9, y.e.flags), (12, y.e.nsid), (16, y.e.lba), (24, y.e.nlb), (32, y.e.prp1),
      (40, y.e.cdw10), (44, y.e.cdw11), (48, y.e.cdw12), (52, y.e.cdw13), (56, y.dw0), (60, y.e.pages.length)] +
    atBytes (y.e.pages.zipIdx.map (fun e => (64 + 8 * e.2, e.1.1)))
  xs.length + atBytes (xs.zipIdx.map (fun e => (8 + 4352 * e.2, one e.1)))

/-- The BQE frames of a VF: its image, then its list of commands in flight (R420). -/
def bqeFrames (s : State) (p v : Nat) : List PairFrame :=
  let e := (pairP s p).epoch
  frames256 6 p 33 e v 16384 (vfImage s v) ++
  frames256 6 p 33 e (v + 2 ^ 16) (8 + 4352 * (s.bh.slots.filter (fun y => decide (y.vf = v) && !y.drop)).length) (inflight s v)

/-- CKPT reaches a target (steps 2 and 3). -/
def ckptTake (p t : Nat) (s : State) : State :=
  if !((pairP s p).told.contains t) then s
  else
    let f := ckptFlit t
    let s := take f s
    let s := if t < 16 then cmdAnswer t f s else s
    let s := updPairP p (fun x => { x with close := 2, told := x.told.erase t }) s
    if t < 16 then
      (List.range 48).foldl (fun s c =>
        let h := 48 * t + c
        let st := (hart s h).st
        let s := if st = .run ∨ st = .wrs then updHart h (fun x => { x with st := .stopped, drain := true }) s else s
        hartRun h s) s
    else if t < 32 then s
    else
      let s := (vfsOf s p).foldl (fun s v => (bqeFrames s p v).foldl (fun s f => pairPut f s) s) s
      updPairP p (fun x => { x with todo := x.todo.erase 32 }) s

/-- Sections of CTRL frames, as the model lays them out: 1 interrupt file, 2 APLIC domain, 3 mailbox queue, 4 control frame. -/
def ctrlFrames (s : State) (p : Nat) : List PairFrame :=
  let e := (pairP s p).epoch
  let ims := (hartsOf s p).flatMap (fun h => (List.range 8).flatMap (fun f =>
    let x := imsic s h f
    if x = {} then [] else frames256 5 p 32 e (1 + (16 * h + f) * 2 ^ 8) 524 (x.pend + x.en * 256 ^ 256 + x.deliv * 256 ^ 512 + x.thr * 256 ^ 516 + x.sent * 256 ^ 520)))
  let dom := fun (x : AplDom) => x.pend + x.en * 256 ^ 128 + (b2n x.ie) * 256 ^ 256 + atBytes (x.cfg.map (fun e => (260 + 4 * e.1, e.2))) + atBytes (x.tgt.map (fun e => (4356 + 4 * e.1, e.2)))
  let a := aplic s p
  let box := mbxOf s p
  let ctl := [0x010, 0x018, 0x020]
  ims ++ frames256 5 p 32 e 2 8452 (dom a.m) ++ frames256 5 p 32 e (2 + 2 ^ 8) 8452 (dom a.sup) ++
    frames256 5 p 32 e 3 (1 + 65 * box.length) (box.length + atBytes (box.zipIdx.map (fun e => (1 + 65 * e.2, e.1.src + e.1.data.toNat * 256)))) ++
    frames256 5 p 32 e 4 24 (atBytes (ctl.zipIdx.map (fun o => (8 * o.2, (reg s (frPart p) o.1).toNat))))

/-- Has a target done its part of the close? -/
def ckptDone (s : State) (t : Nat) : Bool :=
  if t < 16 then
    (List.range 48).all (fun c => let x := hart s (48 * t + c); x.sb.isEmpty) &&
    (List.range 24).all (fun k => (slice s t k).wb.all (fun e => !e.clean))
  else if t < 32 then (let x := rp s (t - 16); x.lines.isEmpty && x.wb.isEmpty)
  else true

/-- Harts that a close stopped resume (step 5). -/
def hartsResume (p : Nat) (s : State) : State :=
  (hartsOf s p).foldl (fun s h =>
    if (hart s h).st = .stopped then hartRun h (updHart h (fun x => { x with st := .run, drain := false }) s)
    else if asleep (hart s h) && irqPending (hart s h) then wakeHart h s
    else s) s

/-- The writers of a partition that stay stopped resume: harts, root ports, and the Boathouse (R418). -/
def writersGo (p : Nat) (s : State) : State :=
  if (pairP s p).hold then
    let s := (pairP s p).fenced.foldl (fun s r => fenceLift (16 + r) s) s
    hartsResume p (updPairP p (fun x => { x with hold := false, fenced := [] }) s)
  else s

/-- All report done: CTRL frames, EPOCH_END on every stream, and the next epoch (steps 4 and 5). -/
def closeEnd (p : Nat) (s : State) : State :=
  let e := (pairP s p).epoch
  let s := (ctrlFrames s p).foldl (fun s f => pairPut f s) s
  let s := (List.range 34).foldl (fun s n => pairPut { ty := 8, part := p, stream := n, epoch := e, arg := BitVec.ofNat 64 s.tb } s) s
  let s := setReg (frPpair p) 0x008 (BitVec.ofNat 64 (e + 1)) (updPairP p (fun x => { x with close := 0, told := [], todo := [], epoch := e + 1 }) s)
  if (pairP s p).switching then updPairP p (fun x => { x with hold := true }) s
  else if s.pair.full then
    let rs := rpsOf s p
    rs.foldl (fun s r => softFence (16 + r) s) (updPairP p (fun x => { x with hold := true, fenced := rs }) s)
  else hartsResume p s

/-- A close goes on: a die whose store buffers have drained sends its HART frames and writes back its dirty lines; a target
that has done its part reports (steps 2 to 4). -/
def closeRun (p : Nat) (s : State) : State :=
  let x := pairP s p
  if x.close = 0 then s
  else
    let ready := x.todo.filter (fun t => decide (t < 16) && !(x.told.contains t) && (List.range 48).all (fun c => (hart s (48 * t + c)).sb.isEmpty))
    let s := ready.foldl (fun s d =>
      let s := ((List.range 48).map (fun c => hartFrameOf s p (48 * d + c))).foldl (fun s f => pairPut f s) s
      updPairP p (fun x => { x with todo := (x.todo.erase d) ++ [64 + d] }) (dieClean d s)) s
    let fin := (pairP s p).todo.filter (fun t => !((pairP s p).told.contains t) &&
      (if 64 ≤ t then ckptDone s (t - 64) else decide (16 ≤ t) && ckptDone s t))
    let s := updPairP p (fun x => { x with todo := x.todo.filter (fun t => !(fin.contains t)) }) s
    if (pairP s p).todo.isEmpty then closeEnd p s else s

/-- A step of the close exceeds its bound (R422). -/
def closeTimeout (p : Nat) (s : State) : State := if (pairP s p).close = 0 then s else coxErr 2 p true s

/-! ### The send log's limits (R418, R426) -/

/-- The send log reaches 2 GiB. -/
def logFull (s : State) : State :=
  let ps := (List.range 12).filter (fun p => mirrored s p)
  ps.foldl (fun s p => closeStart p s) { s with pair := { s.pair with full := true } }

/-- The send log falls below 1 GiB. -/
def logDrained (s : State) : State :=
  let s := { s with pair := { s.pair with full := false } }
  (List.range 12).foldl (fun s p => if (pairP s p).switching then s else writersGo p s) s

/-- Both crosslinks have been down for 1 ms (R426). -/
def pairLinkLost (s : State) : State :=
  let s := setFld frPair 0x008 0 2 0 { s with pair := { s.pair with lost := true } }
  (List.range 12).foldl (fun s p => if pairSt s p = .active then setPairSt p .held s else s) s

/-- The link returns: every frame of an uncommitted epoch is sent again (R426). -/
def pairLinkBack (s : State) : State :=
  if fbit s (frRp 10) 0 3 ∨ fbit s (frRp 11) 0 3 then
    setFld frPair 0x008 0 2 3 { s with pair := { s.pair with lost := false, send := s.pair.sent ++ s.pair.send, sent := [] } }
  else s

/-- One crosslink goes down (R408): its frames move to the other. -/
def crossLost (i : Nat) (s : State) : State := if i < 2 then setFld frPair 0x008 i 1 0 s else s

/-! ### Commit (R421, R423, R425, R426, R435, R436) -/

/-- COMMIT reaches the active Cox. -/
def commitTake (f : PairFrame) (s : State) : State :=
  let p := f.part
  let e := f.epoch
  if 12 ≤ p ∨ mirrored s p = false ∨ e ≤ pairCommit s p then s
  else
    let s := setReg (frPpair p) 0x010 (BitVec.ofNat 64 e) s
    let keep := fun (g : PairFrame) => decide (g.part ≠ p) || decide (e < g.epoch)
    let s := { s with pair := { s.pair with send := s.pair.send.filter keep, sent := s.pair.sent.filter keep } }
    let s := if pairSt s p = .held ∧ s.pair.lost = false then setPairSt p .active s else s
    let s := if pairSt s p = .syncActive ∧ (pairP s p).bulk.isEmpty = true ∧ (pairP s p).blk.isEmpty = true then setPairSt p .active s else s
    let s := if (pairP s p).unprot then updPairP p (fun x => { x with unprot := false }) (setPairSt p .off (pairDrop p s)) else s
    let s := bhSettle (bhRelease p (queueMsi p (frPpair p) 0x018 false s))
    if (pairP s p).switching ∧ (pairP s p).close = 0 ∧ e + 1 = (pairP s p).epoch then
      let s := pairNow { ty := 11, part := p, stream := 32, epoch := e } s
      let s := (hartsOf s p).foldl (fun s h => updHart h (fun x => { done := x.done, seq := x.seq }) s) s
      let s := ((diesOf s p) ++ (rpsOf s p).map (16 + ·)).foldl (fun s n => hardFence n s) s
      updPart p (fun x => { x with st := .stopped }) (updPairP p (fun x => { x with switching := false, hold := false, fenced := [], com := e, ended := [], bulkGot := 2 ^ 64 }) (setPairSt p .shadow s))
    else s

/-! ### The shadow (R413, R417, R421, R424, R433) -/

/-- Does the package take mirrored frames of a partition? A BULK frame makes a matched, stopped partition the shadow of a
resync (R436). -/
def shadowTakes (s : State) (p : Nat) : Bool := (pairSt s p = .shadow || pairSt s p = .syncShadow) && decide ((pairP s p).take = 0)

/-- A frame enters the receive log (R417). -/
def recvPut (f : PairFrame) (s : State) : State := { s with pair := { s.pair with recv := s.pair.recv ++ [f] } }

/-- A MIRROR, BULK, HART, CTRL or BQE frame arrives. -/
def frameTake (ty : Nat) (f : PairFrame) (s : State) : State :=
  let p := f.part
  if f.ty ≠ ty ∨ 12 ≤ p then s
  else
    let s := if ty = 3 ∧ (pairP s p).matched = true ∧ (pairSt s p = .off ∨ pairSt s p = .alone) ∧ (part s p).st = .stopped then
        updPairP p (fun x => { x with com := 0, ended := [], bulkGot := 0, take := 0 }) (setPairSt p .syncShadow s) else s
    if shadowTakes s p then recvPut f (if ty = 3 then updPairP p (fun x => { x with bulkGot := x.bulkGot + 1 }) s else s) else s

/-- Number of the next slot of the pair's own. -/
def pairSlot (s : State) : Nat := ((s.bh.slots.filter (fun x => x.vf = 1024)).foldl (fun n x => max n (x.n + 1)) 10000)

/-- The run of BLK data collected becomes a write whose commit waits for its epoch (R424). -/
def blkFlush (s : State) : State :=
  match s.bh.blkIn with
  | none => s
  | some (_, e, nsid, start, n, v) =>
    let bs := nsBs (nsOf s nsid)
    let y : Slot := { n := pairSlot s, seq := s.bh.seq, vf := pairVf, q := 1, e := { op := 1, nsid := nsid, lba := start / bs, nlb := (n + bs - 1) / bs }, drop := true, buf := v, gate := some e }
    bhSettle (updBh (fun b => { b with blkIn := none, seq := b.seq + 1, slots := b.slots ++ [y] }) s)

/-- A BLK frame arrives at the shadow Boathouse (R424). -/
def blkTake (f : PairFrame) (s : State) : State :=
  let p := f.part
  if f.ty ≠ 7 ∨ shadowTakes s p = false then s
  else
    let nsid := bits f.arg.toNat 0 12
    let lba := bits f.arg.toNat 12 52
    let bs := nsBs (nsOf s nsid)
    let n := f.data.length
    let v := leNat f.data
    let fresh := fun (s : State) => updBh (fun b => { b with blkIn := some (p, f.epoch, nsid, lba * bs, n, v) }) s
    match s.bh.blkIn with
    | some (q, e, m, start, k, w) =>
      if q = p ∧ e = f.epoch ∧ m = nsid ∧ (start + k) / bs = lba ∧ k + n ≤ 262144 then updBh (fun b => { b with blkIn := some (q, e, m, start, k + n, w + v * 256 ^ k) }) s
      else fresh (blkFlush s)
    | none => fresh s

/-- Lines of a partition's slabs. -/
def partLines (s : State) (p : Nat) : Nat :=
  (s.slab.filter (fun e => decide (slState e.2 = slOWNED) && decide (slOwner e.2 = p))).length * 2 ^ 24

/-- The shadow's Cox commits epochs: EPOCH_END on all streams, and every epoch before (R421). Committed lines are written,
with PART 15, each stream in order; of the checkpoint only the last is kept. -/
def tryCommit (p : Nat) (s : State) : State :=
  let x := pairP s p
  let e := if x.com = 0 then (x.ended.map (·.1)).foldl (fun a b => if a = 0 ∨ b < a then b else a) 0 else x.com + 1
  if e = 0 ∨ (List.range 34).all (fun n => x.ended.contains (e, n)) = false then s
  else
    let mine := s.pair.recv.filter (fun f => decide (f.part = p) && decide (f.epoch = e))
    let lines := mine.filter (fun f => f.ty = 2 || f.ty = 3)
    let s := { s with pair := { s.pair with recv := s.pair.recv.filter (fun f => decide (f.part ≠ p) || decide (e < f.epoch) || (decide (f.epoch = e) && f.ty ≠ 2 && f.ty ≠ 3)) } }
    let s := lines.foldl (fun s f =>
      let l := bits f.arg.toNat 0 46
      homeWrite (homeOf (lineRegion l)) none none l (BitVec.ofNat 512 (leNat f.data)) (f.arg.getLsbD 46) [] s) s
    let s := setReg (frPpair p) 0x010 (BitVec.ofNat 64 e) (updPairP p (fun x => { x with com := e, ended := x.ended.filter (fun g => e < g.1) }) (blkFlush s))
    let s := if pairSt s p = .syncShadow ∧ partLines s p ≤ (pairP s p).bulkGot then setPairSt p .shadow s else s
    bhSettle (pairNow { ty := 9, part := p, stream := 32, epoch := e } s)

/-- EPOCH_END arrives on a stream (R421, R433). -/
def endTake (f : PairFrame) (s : State) : State :=
  let p := f.part
  if f.ty ≠ 8 ∨ 12 ≤ p ∨ shadowTakes s p = false then s
  else
    let s := if f.stream = 33 then blkFlush s else s
    tryCommit p (updPairP p (fun x => { x with ended := (f.epoch, f.stream) :: x.ended, delta := if f.stream = 32 then f.arg.toNat - s.tb else x.delta }) s)

/-! ### Takeover (R428 to R434, Table 12.4) -/

/-- A takeover begins (steps 1 and 2): frames are no longer accepted, TAKEN goes out, later epochs are discarded. -/
def takeStart (p : Nat) (s : State) : State :=
  if 12 ≤ p ∨ pairSt s p ≠ .shadow ∨ (pairP s p).take ≠ 0 then s
  else
    let e := (pairP s p).com
    let s := updPart p (fun x => { x with st := .changing }) (updPairP p (fun x => { x with take := 1, ended := [] }) s)
    let s := pairNow { ty := 12, part := p, stream := 32, arg := BitVec.ofNat 64 e } s
    let s := { s with pair := { s.pair with recv := s.pair.recv.filter (fun f => decide (f.part ≠ p) || decide (f.epoch ≤ e)) } }
    let late := s.bh.slots.filter (fun x => match x.gate with | some g => decide ((nsOf s x.e.nsid).part = p) && decide (e < g) | none => false)
    let s := late.foldl (fun s x => slotRun x.n (updSlot x.n (fun y => { y with status := 0x08, ph := if y.ph = .start then .shadow else y.ph }) s)) s
    let s := updBh (fun b => { b with blkIn := none }) s
    { s with cox := { s.cox with bg := s.cox.bg ++ [{ op := 0x1000, step := 2, p := p }] } }

/-- The number that the frames of a section make. -/
def sectionOf (s : State) (p ty sec : Nat) : Nat :=
  (s.pair.recv.filter (fun f => decide (f.part = p) && decide (f.ty = ty) && decide (bits f.arg.toNat 0 32 = sec))).foldl (fun v f => v + leNat f.data * 256 ^ (256 * bits f.arg.toNat 32 32)) 0

/-- Load interrupt files, APLIC, mailbox queue and control frame from CTRL (step 3). -/
def ctrlLoad (p : Nat) (s : State) : State :=
  let secs := ((s.pair.recv.filter (fun f => decide (f.part = p) && decide (f.ty = 5))).map (fun f => bits f.arg.toNat 0 32)).eraseDups
  secs.foldl (fun s c =>
    let v := sectionOf s p 5 c
    let g := fun (o n : Nat) => bits v (8 * o) (8 * n)
    let i := c / 256
    match c % 256 with
    | 1 => updImsic (i / 16) (i % 16) (fun _ => { pend := g 0 256, en := g 256 256, deliv := g 512 4, thr := g 516 4, sent := g 520 4 }) s
    | 2 =>
      let d : AplDom := { ie := g 256 1 ≠ 0, pend := g 0 128, en := g 128 128,
                          cfg := (List.range 1024).foldl (fun m j => mset m j (g (260 + 4 * j) 4)) [], tgt := (List.range 1024).foldl (fun m j => mset m j (g (4356 + 4 * j) 4)) [] }
      updAplic p (fun a => aplPut a (decide (i = 1)) d) s
    | 3 => { s with mbx := mset s.mbx p ((List.range (g 0 1)).map (fun j => { src := g (1 + 65 * j) 1, data := BitVec.ofNat 512 (g (2 + 65 * j) 64) })) }
    | _ => ([0x010, 0x018, 0x020].zipIdx).foldl (fun s o => setReg (frPart p) o.1 (BitVec.ofNat 64 (g (8 * o.2) 8)) s) s) s

/-- Commands that a BQE frame lists: done, slot, status. -/
def listed (s : State) (p v : Nat) : List (Bool × Slot) :=
  let w := sectionOf s p 6 (v + 2 ^ 16)
  (List.range (bits w 0 32)).map (fun i =>
    let g := fun (o n : Nat) => bits w (8 * (8 + 4352 * i + o)) (8 * n)
    (decide (g 0 1 = 2),
     { vf := v, q := g 4 2, status := g 2 2, dw0 := g 56 4,
       e := { op := g 8 1, flags := g 9 1, cid := g 6 2, nsid := g 12 4, lba := g 16 8, nlb := g 24 4, prp1 := g 32 8, cdw10 := g 40 4, cdw11 := g 44 4, cdw12 := g 48 4, cdw13 := g 52 4,
              pages := (List.range (g 60 2)).map (fun j => (g (64 + 8 * j) 8, none)) } }))

/-- Completions marked done are posted, then started commands run again in their listed order (step 5, R431). -/
def rerun (p v : Nat) (s : State) : State :=
  let ls := listed s p v
  let s := (ls.filter (·.1)).foldl (fun s e => bhPost v { q := e.2.q, cid := e.2.e.cid, status := e.2.status, dw0 := e.2.dw0 } s) s
  (ls.filter (fun e => !e.1)).foldl (fun s e =>
    let f := drawNat s
    let s := f.2
    let y : Slot := { e.2 with n := if e.2.q = 0 then admSlot v else freeSlot s, seq := s.bh.seq, status := 0, dw0 := 0,
                               e := { e.2.e with pages := e.2.e.pages.zipIdx.map (fun g => (g.1.1, some (f.1 / 2 ^ (64 * g.2) % 2 ^ 44 / 4096 * 4096))) } }
    let y := { y with started := !(takesLock y) || lockFree s y, locks := takesLock y }
    updBh (fun b => { b with seq := b.seq + 1, slots := b.slots ++ [y] }) s) s

/-- The links of a partition's root ports appear as newly added ones: each slot event that a present device or an active link
makes (R434, Table 10.8). -/
def linksAppear (p : Nat) (s : State) : State :=
  (rpsOf s p).foldl (fun s r => (List.range 4).foldl (fun s l =>
    let x := rpLink (rp s r) l
    let s := if x.present then slotEvent r l 3 3 s else s
    if x.dlup then slotEvent r l 8 12 s else s) s) s

/-- A takeover goes a step further, or waits (Table 12.4). -/
def takeStep (pr : Proc) (s : State) : Option State :=
  let p := pr.p
  let next := fun (n : Nat) (s : State) => { s with cox := { s.cox with bg := s.cox.bg.map (fun x => if x = pr then { x with step := n } else x) } }
  if (pairP s p).take = 0 then some { s with cox := { s.cox with bg := s.cox.bg.erase pr } }
  else if pr.step = 2 then
    if s.memq.any (fun q => q.wr && decide (linePart s q.pa = p)) ∨ s.bh.slots.any (fun x => x.gate.isSome && decide ((nsOf s x.e.nsid).part = p)) = true then none
    else some (next 3 (updPairP p (fun x => { x with take := 3 }) s))
  else if pr.step = 3 then
    let hf := s.pair.recv.filter (fun f => decide (f.part = p) && decide (f.ty = 4))
    let s := hf.foldl (fun s f => if f.arg.getLsbD 10 then s else hartLoad (bits f.arg.toNat 0 10) (leNat f.data) s) s
    let s := ctrlLoad p s
    let s := (vfsOf s p).foldl (fun s v => imageLoad v (sectionOf s p 6 v) s) s
    some (next 4 (updPairP p (fun x => { x with take := 4 }) s))
  else if pr.step = 4 then
    if !(drained s) then none
    else
      let s := (diesOf s p).foldl (fun s d => setReg (frDie d) 0x700 (BitVec.ofNat 64 (pairP s p).delta) s) s
      let s := ((diesOf s p) ++ (rpsOf s p).map (16 + ·)).foldl (fun s n => fenceLift n s) s
      some (next 5 (updPairP p (fun x => { x with take := 5 }) (switchRoutes s)))
  else
    if !(drained s) then none
    else
      let e := (pairP s p).com
      let s := { s with cox := { s.cox with bg := s.cox.bg.erase pr } }
      let s := updPart p (fun x => { x with st := .running }) (updPairP p (fun x => { x with take := 0, com := 0, epoch := e + 1 }) (setPairSt p .alone s))
      let s := hartsResume p (linksAppear p (setReg (frPpair p) 0x008 (BitVec.ofNat 64 (e + 1)) s))
      let s := (vfsOf s p).foldl (fun s v => rerun p v s) s
      let s := { s with pair := { s.pair with recv := s.pair.recv.filter (fun f => f.part ≠ p) } }
      let s := queueMsi p (frPpair p) 0x018 false s
      some (bhSettle (sysMsg (some p) (0x04 + p * 2 ^ 8 + (e % 2 ^ 64) * 2 ^ 64) s))

/-- A step of a takeover exceeds its bound, or cannot complete at all (R432). -/
def takeTimeout (p : Nat) (fatal : Bool) (s : State) : State :=
  if (pairP s p).take = 0 then s
  else if fatal then coxErr 2 p false (updPairP p (fun x => { x with take := 0 }) s)
  else coxErr 1 p true s

/-- FATAL arrives (R428, R430). -/
def fatalTake (f : PairFrame) (s : State) : State :=
  if f.ty ≠ 10 then s
  else
    (onesOf 12 f.arg.toNat).foldl (fun s p =>
      if pairSt s p = .shadow then takeStart p s
      else if pairSt s p = .syncShadow then updPairP p (fun x => { x with ended := [], bulkGot := 0 }) (setPairSt p .alone s)
      else if mirrored s p then
        let s := updPairP p (fun x => { x with close := 0, told := [], todo := [], bulk := [], blk := [], switching := false }) (setPairSt p .alone (pairDrop p s))
        bhSettle (bhRelease p (writersGo p (hartsResume p s)))
      else s) s

/-- HANDOVER arrives (R428). -/
def handoverTake (f : PairFrame) (s : State) : State := if f.ty = 11 then takeStart f.part s else s

/-- TAKEN arrives (R430). -/
def takenTake (f : PairFrame) (s : State) : State :=
  let p := f.part
  if f.ty = 12 ∧ (pairSt s p = .active ∨ pairSt s p = .held) then
    teardownStart p (setPairSt p .gone (pairDrop p s))
  else s

/-- Both crosslinks have been down for LOSSWAIT (R428). -/
def autotake (s : State) : State :=
  if fbit s frPair 0 8 && s.pair.lost then (List.range 12).foldl (fun s p => takeStart p s) s else s

/-- A frame of reserved TYPE (R410). -/
def frameReserved (f : PairFrame) (s : State) : State := if f.ty = 0 ∨ 12 < f.ty then coxErr 1 15 false s else s

/-! ### Resync (R436) -/

/-- A line as its home last wrote it: the newest write on its way to memory, else memory. -/
def lineNow (s : State) (l : Nat) : Line × Bool :=
  match (s.memq.reverse.find? (fun q => q.wr && decide (lineOf q.pa = l))) with
  | some q => (q.data, q.poison)
  | none => match locate s (64 * l) with
    | some k => (rdLine s k, mget s.poison (k / 64))
    | none => (0, false)

/-- A home reads the next line of a resync and puts it into its stream. -/
def bulkOne (p : Nat) (s : State) : State :=
  let x := pairP s p
  match x.bulk with
  | [] => s
  | b :: t =>
    let l := b * 2 ^ 24 + x.bulkAt
    let d := lineNow s l
    let s := pairPut (lineFrame 3 p (homeOf (lineRegion l)) x.epoch l d.1 d.2) s
    updPairP p (fun x => if x.bulkAt + 1 = 2 ^ 24 then { x with bulk := t, bulkAt := 0 } else { x with bulkAt := x.bulkAt + 1 }) s

/-- The Boathouse copies the next 256 KiB of a namespace of a resync. -/
def blkOne (p : Nat) (s : State) : State :=
  let x := pairP s p
  if s.bh.slots.any (fun y => decide (y.vf = 1024) && decide (y.e.op = 2)) then s
  else match x.blk with
    | [] => s
    | nsid :: t =>
      let d := nsOf s nsid
      if d.size ≤ x.blkAt then updPairP p (fun x => { x with blk := t, blkAt := 0 }) s
      else
        let k := 4096 / nsBs d
        let n := min 64 (d.size - x.blkAt)
        let y : Slot := { n := pairSlot s, seq := s.bh.seq, vf := pairVf, q := 1, e := { op := 2, nsid := nsid, lba := x.blkAt * k, nlb := n * k }, drop := true }
        bhSettle (updPairP p (fun x => { x with blkAt := x.blkAt + n }) (updBh (fun b => { b with seq := b.seq + 1, slots := b.slots ++ [y] }) s))

/-- One nanosecond of the pair: the link takes a frame for each crosslink, resyncs read at SYNCRATE, closes go on. -/
def pairTick (s : State) : State :=
  let ps := (List.range 12).filter (fun p => mirrored s p)
  if ps.isEmpty ∨ ucp s = true then s
  else
    let s := pairDrain (b2n (xUp s 0) + b2n (xUp s 1)) s
    let syn := ps.filter (fun p => pairSt s p = .syncActive)
    let c := s.pair.credit + fld s frPair 0 24 12
    let s := if syn.isEmpty then s else { s with pair := { s.pair with credit := c % 64 } }
    let s := (List.range (c / 64)).foldl (fun s _ => match syn.find? (fun p => !((pairP s p).bulk.isEmpty)) with
      | some p => bulkOne p s
      | none => s) s
    let s := syn.foldl (fun s p => blkOne p s) s
    ps.foldl (fun s p => closeRun p s) s

/-! ### Manager commands (Table 12.6) -/

/-- A pair command goes a step further, or waits. -/
def pairStep (pr : Proc) (s : State) : Option State :=
  let p := bits (arg0 pr) 0 4
  let x := pairP s p
  if 12 ≤ p then some (mgrEnd rINVALID 0 s)
  else match pr.op with
    | 0x40 =>
      if (pairSt s p = .off ∨ pairSt s p = .alone) ∧ x.matched = true ∧ (part s p).st = .running then
        let slabs := (s.slab.filter (fun e => decide (slState e.2 = slOWNED) && decide (slOwner e.2 = p))).map (·.1)
        let nss := (s.bh.nss.filter (fun e => e.2.part = p)).map (·.1)
        some (mgrEnd rDONE 0 (updPairP p (fun x => { x with bulk := slabs, blk := nss, bulkAt := 0, blkAt := 0 }) (setPairSt p .syncActive s)))
      else some (mgrEnd rSTATE 0 s)
    | 0x41 =>
      if pr.step = 0 then
        if pairSt s p = .active then some (mgrStep { pr with step := 1 } (updPairP p (fun x => { x with unprot := true }) s)) else some (mgrEnd rSTATE 0 s)
      else if x.unprot then (if pairSt s p = .active ∨ pairSt s p = .held then none else some (mgrEnd rFAILED 0 (updPairP p (fun x => { x with unprot := false }) s)))
      else some (mgrEnd rDONE 0 s)
    | 0x42 =>
      if pr.step = 0 then
        if pairSt s p = .active then some (mgrStep { pr with step := 1 } (closeStart p (updPairP p (fun x => { x with switching := true }) s))) else some (mgrEnd rSTATE 0 s)
      else if x.switching then (if mirrored s p then none else some (mgrEnd rFAILED 0 s))
      else some (mgrEnd rDONE 0 s)
    | 0x43 =>
      if pr.step = 0 then
        if pairSt s p = .shadow then some (mgrStep { pr with step := 1 } (takeStart p s)) else some (mgrEnd rSTATE 0 s)
      else if x.take ≠ 0 then none
      else some (mgrEnd (if (part s p).st = .running then rDONE else rFAILED) 0 s)
    | 0x44 =>
      if pairSt s p = .held then
        let s := updPairP p (fun x => { x with close := 0, told := [], todo := [], switching := false }) (setPairSt p .alone (pairDrop p s))
        some (mgrEnd rDONE 0 (bhSettle (bhRelease p (writersGo p (hartsResume p s)))))
      else some (mgrEnd rSTATE 0 s)
    | 0x45 =>
      let code := match pairSt s p with
        | .off => 0 | .alone => 1 | .syncActive => 2 | .syncShadow => 3 | .active => 4 | .shadow => 5 | .held => 6 | .gone => 7
      let c := pairCommit s p
      some (mgrEnd rDONE (code + c % 2 ^ 28 * 16) (setReg (mgrFrame pr.c.src) 0x008 (BitVec.ofNat 64 c) s))
    | _ => some (mgrEnd rINVALID 0 s)

end Sys2Proof.Machine
end

