-- ==== Sys2Proof/Machine/FaultOps.lean ====
section
/-! DEFINITION. The Cox's fault service (R509, R515 to R520), incidents (R516, R517), partition fault queues, and error
injection (R525, R526).
Log entries with the choices and readings made here: 101, 124, 126, 127, 128. -/

namespace Sys2Proof.Machine

/-- Agent of the block that owns a frame (R19, R546); 0xFFF when the frame belongs to no agent. -/
def frameAgent (f : Nat) : Nat :=
  let k := frameKind f
  let io := fun (u : Nat) => agent 12 u
  match k.1 with
  | 0x03 => io 0x71
  | 0x04 => io 0x70
  | 0x05 => io 0x70
  | 0x07 => io 0x68
  | 0x10 => io k.2
  | 0x11 => io (0x20 + k.2)
  | 0x12 => io (0x30 + k.2)
  | 0x13 => io (0x40 + k.2)
  | 0x14 => io (0x44 + k.2)
  | 0x15 => io (0x54 + k.2)
  | 0x16 => io (0x60 + k.2)
  | 0x17 => io (0x78 + k.2)
  | 0x18 => io (0x78 + k.2)
  | 0x19 => io (stopUnit k.2)
  | 0x30 => agent k.2 100
  | 0x31 => agent k.2 100
  | 0x40 => hartAgent k.2
  | _ => 0xFFF

/-- The frames that hold an error bank (Table 17.1). -/
def bankFrames : List Nat := (List.range 0x21C).filter (fun f => hasErrBank (frameKind f).1)

/-- The record that a bank holds, as the ring copies it (Table 15.5). -/
def bankRec (s : State) (f : Nat) : FltRec :=
  { frame := f, stat := reg s f 0x500, addr := reg s f 0x508, src := BitVec.ofNat 64 (setBits (reg s f 0x510).toNat 16 12 (frameAgent f)),
    type := reg s f 0x518, time := reg s f 0x520, cnt := reg s f 0x528 }

/-- Class, CONSQ, partition and time of a record. -/
def recClass (r : FltRec) : Nat := bits r.stat.toNat 1 2
def recConsq (r : FltRec) : Bool := r.stat.getLsbD 3
def recPart (r : FltRec) : Nat := bits r.stat.toNat 8 4
def recTime (r : FltRec) : Nat := r.time.toNat

/-- An incident is collecting. -/
def incOpen (s : State) : Bool := fbit s frFlt 0x028 28
/-- Number of the last incident opened. -/
def incNum (s : State) : Nat := fld s frFlt 0x028 0 16
/-- Does a TIME lie in the open incident: from 1 ms before the opening record to 10 ms after it (R516)? -/
def inWindow (s : State) (t : Nat) : Bool := decide (s.flt.openAt ≤ t + 1000000) && decide (t ≤ s.flt.openAt + 10000000)

/-- An incident opens at a record (R516): it takes in the records of its window that are in the ring already. -/
def incOpenAt (t : Nat) (s : State) : State :=
  let n := (incNum s + 1) % 65536
  let s := setReg frFlt 0x028 (BitVec.ofNat 64 (n + 2 ^ 28)) (updFlt (fun x => { x with openAt := t }) s)
  updFlt (fun x => { x with ring := x.ring.map (fun e => (e.1, if e.2.incident = 0 ∧ inWindow s (recTime e.2) = true then { e.2 with incident := n } else e.2)) }) s

/-- Write a record into the ring (R515); every record but a CE goes to the fault log too. -/
def ringPut (r : FltRec) (s : State) : State :=
  let slot := fld s frFlt 0x010 0 10
  let s := setReg frFlt 0x010 (BitVec.ofNat 64 (if slot = 1023 then 1 else slot + 1)) (addWrap frFlt 0x018 1 s)
  let r := { r with seq := (reg s frFlt 0x018).toNat % 2 ^ 32 }
  let s := updFlt (fun x => { x with ring := mset x.ring slot r }) s
  let s := if recClass r = 0 then s
    else
      let log := if 720192 ≤ s.flt.log.length then s.flt.log.drop 1023 else s.flt.log
      updFlt (fun x => { x with log := log ++ [r], ucpLog := if fbit s frFlt 0 0 then x.ucpLog + 1 else 0 }) s
  mgtMsix 1 s

/-- The partition that an agent belongs to, when it belongs to one. -/
def agentPart (s : State) (a : Nat) : Option Nat :=
  let p := if agDie a < 12 then diePart s (agDie a) else if isRp a then rpPart s (agUnit a - 0x30) else 15
  if p < 12 then some p else none

/-- Banks whose ADDR is a system physical address: those of coherence and memory records (Table 15.2). -/
def addrIsPa (f : Nat) : Bool := [0x07, 0x10, 0x13, 0x14, 0x15, 0x16, 0x19, 0x31].contains (frameKind f).1

/-- What a partition's fault queue shows of a record (R519). -/
def queueCopy (s : State) (p : Nat) (r : FltRec) : FltRec :=
  let r := if r.stat.getLsbD 6 && (agentPart s (bits r.src.toNat 0 12)).any (· ≠ p) then
      { r with src := BitVec.ofNat 64 (setBits r.src.toNat 0 12 0), stat := BitVec.ofNat 64 (setBits r.stat.toNat 6 1 0) } else r
  if addrIsPa r.frame && r.stat.getLsbD 5 && decide (slabOwner s r.addr.toNat ≠ some p) then
    { r with addr := 0, stat := BitVec.ofNat 64 (setBits r.stat.toNat 5 1 0) } else r

/-- Send the fault queue's MSI (R520). -/
def pfltMsi (p : Nat) (s : State) : State := queueMsi p (frPflt p) 0x050 (fbit s (frPflt p) 0x050 62) s

/-- The fault queue of a partition. -/
def fltQueue (s : State) (p : Nat) : List FltRec := mget s.flt.queue p

/-- Queue a record for a partition, or count it lost (R520). -/
def queuePut (p : Nat) (r : FltRec) (s : State) : State :=
  let q := fltQueue s p
  if 64 ≤ q.length then addSat (frPflt p) 0x040 16 16 1 s
  else
    let s := updFlt (fun x => { x with queue := mset x.queue p (q ++ [queueCopy s p r]) }) s
    if q.isEmpty then pfltMsi p s else s

/-- Is a record copied into its partition's queue (R519)? A RETIRED or NOSPARE notice is queued by its own step (Table 8.11). -/
def queued (s : State) (r : FltRec) : Bool :=
  let notice := [0x13, 0x14, 0x15].contains (frameKind r.frame).1 && [6, 7].contains (bits r.type.toNat 0 8)
  decide (recPart r < 12) && !notice && (recClass r = 1 || recClass r = 2 || (recClass r = 0 && fbit s (frPflt (recPart r)) 0x050 61))

/-- Start the count of CE records of a new one-second window (R515). -/
def ceWindow (s : State) : State :=
  if s.flt.ceWin = s.tb / 1000000000 then s else updFlt (fun x => { x with ceWin := s.tb / 1000000000, ce := [] }) s

/-- The Cox records what it has read from a bank: the ring, the fault log, the incident and the partition's queue. -/
def recordPut (r : FltRec) (s : State) : State :=
  let c := recClass r
  let s := if 2 ≤ c ∧ incOpen s = false then incOpenAt (recTime r) s else s
  let r := if incOpen s && inWindow s (recTime r) then { r with incident := incNum s } else r
  let s := ringPut r s
  if queued s r then queuePut (recPart r) r s else s

/-- What the Cox does beside recording (Table 15.1, Table 15.10): it tears a partition down for a UCD, and gives every protected
partition to its partner for a UCP, in every pair role. -/
def recordAct (r : FltRec) (s : State) : State :=
  if ucp s then (if recClass r = 3 then pairGive (List.range 12) (fatalAll s) else s)
  else if recClass r = 2 then teardownStart (recPart r) s
  else s

/-- Is the Cox reading records: a lockstep pair works, no activation of its firmware runs, the power is good? -/
def coxUp (s : State) : Bool := !s.cox.dead && !s.cox.swap && s.pins.pwrok

/-- The Cox reads a bank's record and clears VALID (R508, R509, R515). A CE beyond CERATE of its block in the window is only
counted. -/
def serviceRec (f : Nat) (s : State) : State :=
  if coxUp s = false ∨ hasErrBank (frameKind f).1 = false ∨ fbit s f 0x500 0 = false then s
  else
    let r := bankRec s f
    let s := clrBit f 0x500 0 (ceWindow s)
    if recClass r = 0 then
      let n := mget s.flt.ce f
      let s := updFlt (fun x => { x with ce := mset x.ce f (n + 1) }) s
      if fld s frFlt 0x008 32 16 ≤ n then addWrap frFlt 0x020 1 s else recordPut r s
    else recordAct r (recordPut r s)

/-- The records of an incident in the ring, by slot. -/
def incRecs (s : State) (n : Nat) : List (Nat × FltRec) := s.flt.ring.filter (fun e => e.2.incident = n)

/-- The earliest of some records; of two of one TIME the one written first. -/
def earliest : List (Nat × FltRec) → Option (Nat × FltRec)
  | [] => none
  | e :: t => match earliest t with
    | none => some e
    | some g => if recTime g.2 < recTime e.2 ∨ (recTime g.2 = recTime e.2 ∧ g.2.seq < e.2.seq) then some g else some e

/-- The Cox closes the incident and marks its origins (R516, R517). -/
def incClose (s : State) : State :=
  if incOpen s = false ∨ s.tb ≤ s.flt.openAt + 10000000 ∨ bankFrames.any (fun f => fbit s f 0x500 0) = true then s
  else
    let n := incNum s
    let rs := incRecs s n
    let clear := rs.filter (fun e => !(recConsq e.2))
    let mark := fun (ks : List Nat) (s : State) =>
      updFlt (fun x => { x with ring := x.ring.map (fun e => (e.1, if ks.contains e.1 then { e.2 with origin := true } else e.2)) }) s
    let put := fun (slot : Nat) (joint none_ : Bool) (s : State) =>
      setReg frFlt 0x028 (BitVec.ofNat 64 (n + slot * 2 ^ 16 + b2n joint * 2 ^ 26 + b2n none_ * 2 ^ 27)) s
    match earliest clear with
    | some e =>
      let ks := (clear.filter (fun g => decide (recTime g.2 ≤ recTime e.2 + 4))).map (·.1)
      put e.1 (decide (2 ≤ ks.length)) false (mark ks s)
    | none => match earliest rs with
      | some e => put e.1 false true (mark [e.1] s)
      | none => put 0 false true s

/-- A write of `FLT_PPOP` (R520). -/
def pfltPop (p : Nat) (s : State) : State :=
  match fltQueue s p with
  | [] => s
  | _ :: t =>
    if 12 ≤ p then s
    else
      let s := updFlt (fun x => { x with queue := mset x.queue p t }) s
      if t.isEmpty then s else pfltMsi p s

/-- Is the fault window open to a write: with PART 15, or through BAR0 while the BMC holds the role (R531)? `part` 16 is the
BMC. -/
def fltOpen (s : State) (part : Nat) : Bool := part = 15 || (part = 16 && s.bmcMgr)

/-- A write of `FLT_PKG` (Table 15.9): UCALERT is cleared by 1; CECNT takes the value. -/
def fltPkgWrite (part v : Nat) (s : State) : State :=
  if fltOpen s part then
    let s := if bit v 1 then clrBit frFlt 0 1 s else s
    setFld frFlt 0 16 32 (bits v 16 32) s
  else s

/-! ### Injection (R525, R526, Table 15.7) -/

/-- A clean or dirty line of an L2 is found uncorrectable (R512). -/
def l2Uncorr (h line unit : Nat) (s : State) : State :=
  let x := hart s h
  let fr := frDlog (h / 48)
  let err : Err := { frame := fr, ty := 0x02, cls := 0, part := linePart s (64 * line), addr := some (64 * line), info := unit }
  match l2Key x line with
  | none => s
  | some k =>
    let e := mget x.l2 k
    if e.st = .m ∨ e.st = .sd then
      logErr { err with ty := 0x03, cls := 1 } (updHart h (fun x => { x with l2 := mset x.l2 k { e with poison := true } }) s)
    else match wbTag x with
      | none => logErr err s
      | some t =>
        let s := updHart h (fun x => { l2Drop line x with wb := x.wb ++ [{ txn := t, line := line, st := e.st, gone := true }] }) s
        send { l2Req s h line oEvictClean t 0 false with stale := true } (logErr err s)

/-- A line of an L3 is found uncorrectable (R512): a clean one is announced evicted unless an L2 of the die holds it. -/
def l3Uncorr (d k line unit : Nat) (s : State) : State :=
  let c := slice s d k
  let err : Err := { frame := frDlog d, ty := 0x02, cls := 0, part := linePart s (64 * line), addr := some (64 * line), info := unit }
  match l3Key c line with
  | none => s
  | some q =>
    let e := mget c.l3 q
    if e.dirty then logErr { err with ty := 0x03, cls := 1 } (updSlice d k (fun c => { c with l3 := mset c.l3 q { e with poison := true } }) s)
    else
      let s := logErr err (updSlice d k (fun c => { c with l3 := mdel c.l3 q }) s)
      if (dirKey c line).isSome ∨ e.dperm = .i then s else giveUp d k line false e.dperm 0 false s

/-- A damaged structure is read: the error is found through the ordinary path (Table 15.7). -/
def damageRead (f line : Nat) (s : State) : State :=
  match damageAt s f line with
  | none => s
  | some (_, sel, _, w) =>
    let s := damageEnd f line s
    let k := frameKind f
    let pa := 64 * line
    if k.1 = 0x31 then
      let d := k.2
      let duo := sel % 32
      let t := sel / 32
      let unit := if t < 2 then duo else 64 + duo
      if w = 1 then logErr { frame := f, ty := 0x01, cls := 0, part := linePart s pa, addr := some pa, info := unit } s
      else if t < 2 then l2Uncorr (48 * d + 2 * duo + t) line unit s
      else if t = 2 then l3Uncorr d duo line unit s
      else logErr { frame := f, ty := 0x04, cls := 2, part := diePart s d, addr := some pa, info := unit } s
    else if k.1 = 0x10 then
      if w = 1 then logErr { frame := f, ty := 0x01, cls := 0, part := linePart s pa, addr := some pa } s
      else logErr { frame := f, ty := 0x02, cls := 3, addr := some pa } s
    else if k.1 = 0x07 then
      if w = 1 then logErr { frame := f, ty := 0x08, cls := 0 } s
      else
        let q := drawBool s
        if q.1 then logErr { frame := f, ty := 0x09, cls := 2, part := (mget s.bh.vfs (line % 1024)).owner } q.2
        else logErr { frame := f, ty := 0x0A, cls := 3 } q.2
    else if k.1 = 0x04 then
      if w = 1 then logErr { frame := f, ty := 0x07, cls := 0 } s else logErr { frame := f, ty := 0x08, cls := 3 } s
    else s

/-- An event at an armed or damaged structure (R526). A link's injection fires as it launches a codeword, and a memory
controller's as it writes and reads lines. -/
def injFire (f : Nat) (ev : InjEv) (s : State) : State :=
  if [0x31, 0x10, 0x07, 0x04].contains (frameKind f).1 then
    match ev with
    | .write line => injHit f line s
    | .read line => damageRead f line s
    | .gone => updFlt (fun x => { x with damage := x.damage.filter (fun e => e.1 ≠ f) }) s
  else s

end Sys2Proof.Machine
end

