-- ==== Sys2Proof/Machine/LinkCmd.lean ====
section
/-! DEFINITION. What happens to an Agdel link beside its training and its flits: power states (R217, R218), resets and losses
(R219 to R221), commands of `LNK_CTL` (R225), unanswered messages (R204), and the ends of repairs (R211 to R213).
Log entries with the choices and readings made here: 51, 181, 185, 191. -/

namespace Sys2Proof.Machine

/-! ### Die reset (R219, R320, R322, R556) -/

/-- Is a die evacuated (R320)? -/
def dieEvac (s : State) (d : Nat) : Bool :=
  let p := diePart s d
  let cur := s.cox.cur.any (fun pr => (pr.op = 0x06 && decide (pr.d = d) && decide (4 ≤ pr.step)) || ((pr.op = 0x03 || pr.op = 0x04) && decide (pr.p = p) && decide (3 ≤ pr.step)))
  decide (12 ≤ p) || (part s p).st = .stopped || (part s p).st = .down || cur

/-- A die frame's registers after a die reset: the RWL and W fields of the link end are restored, everything else returns to its
reset value (R556). -/
def dieRegsReset (d : Nat) (s : State) : State :=
  s.regs.foldl (fun t e =>
    let f := e.1 / 65536
    let off := e.1 % 65536
    if f = frDie d ∨ f = frDlog d then
      let lost := if f = frDie d ∧ 0x400 ≤ off ∧ off ≤ 0x438 then [Ret.s, Ret.v] else [Ret.w, Ret.s, Ret.v]
      setReg f off (BitVec.ofNat 64 (loseFlds lost (fieldsAt f off) e.2.toNat)) t
    else t) s

/-- A die is reset: every cache, directory, lock entry and core register returns to its reset value (R322). -/
def dieReset (d : Nat) (s : State) : State :=
  let s := (List.range 48).foldl (fun s c => updHart (48 * d + c) (fun x => { done := x.done, seq := x.seq }) s) s
  let s := (List.range 24).foldl (fun s k => updSlice d k (fun _ => {}) s) s
  let s := updDie d (fun x => { asg := x.asg }) s
  let s := { s with wires := s.wires.filter (fun f => !(decide (agDie f.src = d) && decide (agDie f.dst = d))) }
  updFlt (fun x => { x with damage := x.damage.filter (fun e => e.1 ≠ frDlog d) }) (dieRegsReset d s)

/-- SB_RST_N is asserted on a die: its link is OFF (R206). The Cox asserts it on a die alone only when the die is evacuated
(R219). -/
def rstAssert (d : Nat) (s : State) : State :=
  if d < 12 ∧ dieEvac s d = true then
    let s := dieReset d s
    updLink d (fun l => { l with maskD := List.replicate 8 0, tstep := 0, waking := false, pwr := false, pend := [], recal := [], fly := [], sb := [], unans := [], asked := [], slot := [], l0at := none, setD := false, wg := (l.wg.map (fun e => (e.1, if e.1 < 96 then {} else e.2))).filter (fun e => e.2 ≠ {}),
                                 used := [], ret := [], rstN := false, fatal := false, isoN := true, warm := false }) (setLinkSt d lOFF s)
  else s

/-- SB_RST_N is released with SB_PGOOD high: the sideband comes up and training begins with step 1 (R206, Table 6.10). -/
def rstRelease (d : Nat) (s : State) : State :=
  if d < 12 ∧ linkSt s d false = lOFF ∧ s.pins.pwrok = true then updLink d (fun l => { l with rstN := true }) (trainStart d lSBUP 1 s) else s

/-! ### Losses (R220) -/

/-- The I/O-die end sees no FCLK on outbound groups of a quarter. -/
def fclkLoss (d groups : Nat) (s : State) : State :=
  let st := linkSt s d false
  if (st = lL0 ∨ st = lWAKE) ∧ 4 ≤ popcount 24 groups then linkLost d s else s

/-- A loss in any state that has a sideband, HOLD too (R202, R220). -/
def anyLoss (d : Nat) (s : State) : State := if sbWorks s d then linkLost d s else s

/-- The die end loses its clocks: it stops sending and asserts SB_FATAL_N. DESIGN CHOICE: its own STATE shows HOLD, and what it has launched
and is still on the bridge is lost; the spec says only that it drives idle and stops sending. -/
def dieEndLoss (d : Nat) (s : State) : State :=
  let st := linkSt s d true
  if d < 12 ∧ st ≠ lOFF then
    updLink d (fun l => { l with fatal := true, fly := l.fly.filter (fun x => !x.out) }) (setFld (frDie d) 0x400 0 4 lHOLD s)
  else s

/-! ### Commands (R208, R225) -/

/-- RETRAIN on a link in L0: steps 6 to 10. -/
def linkRetrain (d : Nat) (s : State) : State :=
  if d < 12 ∧ linkSt s d false = lL0 then trainStart d lRETRAIN 6 s else s

/-- RETRAIN_FULL from L0 or HOLD: steps 3 to 10, with CLRMASK after the stored masks are discarded (R214). -/
def linkRetrainFull (d : Nat) (clr : Bool) (s : State) : State :=
  let st := linkSt s d false
  if d < 12 ∧ (st = lL0 ∨ st = lHOLD) then
    let none_ := List.replicate 8 0
    let s := if clr ∧ (lnk s d).maskI ≠ none_ then genUp d (updLink d (fun l => { l with maskI := none_ }) s) else s
    clearWgs d (trainStart d (if st = lL0 then lRETRAIN else lTRAIN) 3 s)
  else s

/-- HOLD commanded: UCD HOLD_CMD against a RUNNING or CHANGING partition, else no record (R225). -/
def linkHoldCmd (d : Nat) (s : State) : State :=
  if 12 ≤ d then s
  else
    let st := (part s (diePart s d)).st
    let s := linkHold d s
    if diePart s d < 12 ∧ (st = .running ∨ st = .changing) then logErr (linkErr s d false 0x0F 2 0 false 0x3F) s else s

/-- RECAL of the group in `LNK_WGSEL` (R213, R225). -/
def linkRecal (d : Nat) (s : State) : State :=
  let wg := fld s (frAp d) 0x420 0 7
  if d < 12 ∧ wg < 96 then startRecal d (wgKey (fbit s (frAp d) 0x420 7) wg) s else s

/-- How far the die's temperature has drifted since the last calibration of a group, in 1/16 °C; none while a reading is lacking. -/
def drift (s : State) (d key : Nat) : Option Nat :=
  match (mget (lnk s d).wg key).calT, sensorMax s d with
  | some a, some b => some (b - a).natAbs
  | _, _ => none

/-- The drift of a group has reached TDRIFT: its receiving end recalibrates it when AUTORECAL is 1 (R213). Where readings tell the drift, it
must have. The turns of the rotation come with the commands. -/
def autoRecal (d : Nat) (dieEnd : Bool) (wg : Nat) (s : State) : State :=
  let fr := frEnd d dieEnd
  let t := fld s fr 0x408 24 5
  if d < 12 ∧ wg < 96 ∧ fbit s fr 0x408 16 = true ∧ t ≠ 0 ∧ (drift s d (wgKey (!dieEnd) wg)).all (fun x => decide (16 * t ≤ x)) = true then
    startRecal d (wgKey (!dieEnd) wg) s
  else s

/-! ### Repairs (R211) -/

/-- The receiver holds the REPAIR_ACK. -/
def repairAck (d : Nat) (dieEnd : Bool) (body : Nat) (s : State) : State :=
  let s := answered d dieEnd 0x18 s
  let s := updLink d (fun l => { l with asked := l.asked.erase (dieEnd, body), pend := l.pend.map (fun p =>
    if (decide (p.key < 96) == dieEnd) && decide (repairBody p.key p.sig p.spare 1 p.t = body) then { p with acked := true } else p) }) s
  let l := lnk s d
  if l.tstep = 5 ∧ l.okI = true ∧ l.okD = true ∧ l.asked.isEmpty = true then trainNext d s else s

/-- A correction window of an end ends. -/
def repairWindowEnd (d : Nat) (dieEnd : Bool) (s : State) : State :=
  updLink d (fun l => { l with cnt := l.cnt.filter (fun e => !(decide (e.1 / 64 < 96) == dieEnd)) }) s

/-! ### Sideband (R203, R204) -/

/-- CRC-8 of the low 56 bits of a frame: polynomial x⁸ + x² + x + 1, initial value 0, bit 0 first (R203). -/
def crc8 (n : Nat) : Nat :=
  (List.range 56).foldl (fun c i =>
    let c2 := c * 2 % 256
    if bit n i != bit c 7 then c2 ^^^ 7 else c2) 0

/-- Is a frame one that a receiver takes: its CRC right and its TYPE in Table 6.8? -/
def frameGood (n : Nat) : Bool :=
  decide (bits n 56 8 = crc8 n) && [0x01, 0x02, 0x08, 0x09, 0x0A, 0x10, 0x11, 0x18, 0x19, 0x20, 0x21].contains (bits n 0 8)

/-- A frame with a bad CRC or a reserved TYPE is discarded with a CE record (R203). -/
def badFrame (d : Nat) (dieEnd : Bool) (frame : Nat) (s : State) : State :=
  if sbWorks s d && !(frameGood frame) then logErr (linkErr s d dieEnd 0x06 0 0 false 0x3F) s else s

/-- Does an end wait for the answer to a message of a type? -/
def awaits (s : State) (d : Nat) (dieEnd : Bool) (ty : Nat) : Bool :=
  let l := lnk s d
  if ty = 0x08 then dieEnd && decide (l.tstep = 1)
  else if ty = 0x10 then !dieEnd && decide (l.tstep = 8)
  else if ty = 0x18 then l.asked.any (fun e => e.1 == dieEnd)
  else if ty = 0x20 then !dieEnd && l.pwr
  else false

/-- Ten microseconds pass without the answer to a message: it is resent, and after eight sends its procedure fails with a UCR
record. -/
def sbResend (d : Nat) (dieEnd : Bool) (ty : Nat) (s : State) : State :=
  if awaits s d dieEnd ty = false then s
  else
    let n := mget (lnk s d).unans (ty + b2n dieEnd * 256)
    if n < 7 then updLink d (fun l => { l with unans := mset l.unans (ty + b2n dieEnd * 256) (n + 1) }) s
    else
      let s := { linkErr s d dieEnd 0x07 1 0 false 0x3F with consq := true } |> fun e => logErr e (answered d dieEnd ty s)
      if ty = 0x08 then trainFail d s
      else if ty = 0x10 then attemptFail d (List.replicate 8 0) s
      else if ty = 0x18 then
        let train := decide ((lnk s d).tstep = 5)
        let s := updLink d (fun l =>
          let gone := l.pend.filter (fun p => (decide (p.key < 96) == dieEnd) && !p.acked)
          { l with asked := l.asked.filter (fun e => e.1 != dieEnd), pend := l.pend.filter (fun p => !(gone.contains p)), recal := l.recal.filter (fun e => gone.all (fun p => p.key ≠ e.1)) }) s
        if train then trainFail d s else s
      else fenceLift d (updDie d (fun x => { x with d3step := 0 }) (updLink d (fun l => { l with pwr := false }) s))

/-! ### Low power (R217, R218, Table 14.6) -/

/-- Does every hart of a die permit D3 (R483)? Each is parked, or in C4 with its caches empty and with tolerance and cap for D3. -/
def hartsPermit (s : State) (d tol cap : Nat) : Bool :=
  (List.range 48).all (fun c =>
    let h := 48 * d + c
    let x := hart s h
    x.st = .parked || (x.st = .c4 && x.l2.isEmpty && x.wb.isEmpty && x.hnd.isEmpty && decide (tol ≤ hartTol s h) && decide (cap ≤ hartCap s h)))

/-- The I/O-die end sends PWR_REQ with TARGET LP: the die is fenced and has reported that it is ready for D3 (R217, Table 14.6
step 4). -/
def pwrSend (d : Nat) (s : State) : State :=
  if d < 12 ∧ linkSt s d false = lL0 ∧ (port s d).fenced = true ∧ (die s d).d3step = 3 then
    sbSend d false 0x20 1 (updDie d (fun x => { x with d3step := 4 }) (updLink d (fun l => { l with pwr := true }) s))
  else s

/-- PWR_REQ reaches the die end, which grants LP when all its cores are ready (R217). -/
def pwrReqTake (d target : Nat) (s : State) : State :=
  if d < 12 ∧ linkSt s d true = lL0 ∧ target < 2 then
    sbSend d true 0x21 (b2n (decide (target = 1) && hartsPermit s d 120000 3)) (sbTake d false 0x20 target s)
  else s

/-- The state of a die in D3 (Table 14.6 step 5): lines of banks that are not retained are gone, the level is P6. -/
def enterD3 (d : Nat) (s : State) : State :=
  let keep := fld s (frDie d) 0x200 4 4
  let hidden := fld s (frDie d) 0x180 16 4
  let s := (List.range 24).foldl (fun s k => updSlice d k (fun c => { c with l3 := c.l3.filter (fun e => bit keep (e.1 % 12 / 3) && !(bit hidden (e.1 % 12 / 3))), dir := [] }) s) s
  let s := setFld (frDie d) 0x208 0 3 6 (setFld (frPpa) (0x100 + 8 * d) 36 1 1 (setFld frPpa (0x100 + 8 * d) 15 3 6 s))
  let s := (List.range 48).foldl (fun s c => if (hart s (48 * d + c)).st = .c4 then updHart (48 * d + c) (setLastst 4) s else s) s
  updDie d (fun x => { x with d3 := true, d3step := 0 }) s

/-- The step that runs exceeds its bound (R207); in WAKE the link trains from step 3 (R218). -/
def trainOver (d : Nat) (s : State) : State :=
  if (lnk s d).tstep = 0 then s
  else if (lnk s d).waking then updLink d (fun l => { l with waking := false }) (clearWgs d (trainStart d lTRAIN 3 s))
  else trainFail d s

/-- The answer to a PWR_REQ: with GRANT the link enters LP and the die D3, to wake at once when a hart has woken since; without,
the fence is lifted (R217, R487). -/
def pwrAck (d : Nat) (grant : Bool) (s : State) : State :=
  if (lnk s d).pwr = false then s
  else
    let s := answered d false 0x20 (updLink d (fun l => { l with pwr := false }) (sbTake d true 0x21 (b2n grant) s))
    if (die s d).d3step ≠ 4 then s
    else if grant then
      let awake := !(hartsPermit s d 120000 3)
      let s := enterD3 d (setLinkSt d lLP s)
      if awake then wakePattern d true 0xCA s else s
    else fenceLift d (updDie d (fun x => { x with d3step := 0 }) s)

/-- A die whose link has come back to L0 has left D3: the PPA lifts the fence, and the harts that have a wake event wake (Table
14.8 D3.4, D3.5). -/
def leaveD3 (d : Nat) (s : State) : State :=
  if (die s d).d3 && decide (linkSt s d false = lL0) then
    let s := updDie d (fun x => { x with d3 := false }) (setFld frPpa (0x100 + 8 * d) 36 1 0 s)
    let s := parkRelease 256 d (fenceLift d s)
    (List.range 48).foldl (fun s c => if irqPending (hart s (48 * d + c)) then wakeHart (48 * d + c) s else s) s
  else s

end Sys2Proof.Machine
end

