-- ==== Sys2Proof/Machine/PowerOps.lean ====
section
/-! DEFINITION. Power: rate calls and demands, the allocation of the package's power, thermal readings, the sleep of a die and of
the package, and the loss of power (chapters 14 and 18), with the snapshots at a window boundary (R542).
Log entries with the choices and readings made here: 86, 121, 134, 135, 136, 137, 168, 206. -/

namespace Sys2Proof.Machine

/-! ### The Stroke unit (R477 to R481) -/

/-- Body of a RATE_CALL (Table 14.3) or DEMAND (Table 14.4) from its fields. -/
def rateBody (budget ceil vlvl seq : Nat) : Nat := budget % 4096 + ceil % 8 * 2 ^ 12 + vlvl % 8 * 2 ^ 15 + seq % 256 * 2 ^ 18
/-- Is the die in a link state that has rate calls (R205)? -/
def hasCalls (s : State) (d : Nat) : Bool := let st := linkSt s d false; decide (d < 12) && decide (st ≠ lOFF) && decide (st ≠ lHOLD)

/-- WANT of a DEMAND: `STK_CTL.WANT`, or 6 while every hart is asleep or parked. -/
def stkWant (s : State) (d : Nat) : Nat :=
  if (List.range 48).all (fun c => let st := (hart s (48 * d + c)).st; st = .parked || st = .c1 || st = .c2 || st = .c4) then 6
  else fld s (frDie d) 0x200 0 3
/-- The level a die runs at (R479, R493). -/
def stkLevel (s : State) (d : Nat) : Nat :=
  if (die s d).d3 then 6
  else max (max (fld s (frDie d) 0x208 4 3) (fld s (frDie d) 0x208 8 3)) (max (fld s (frDie d) 0x200 0 3) (max (die s d).therm (die s d).slow))
/-- The Stroke unit puts its die at the level it is to run at. -/
def stkSettle (d : Nat) (s : State) : State := if d < 12 then setFld (frDie d) 0x208 0 3 (stkLevel s d) s else s
/-- Send a DEMAND (R478). -/
def sendDemand (d : Nat) (s : State) : State :=
  let r := die s d
  let body := rateBody (fld s (frDie d) 0x208 48 12) (fld s (frDie d) 0x208 0 3) (stkWant s d) (mget s.card.strokeSeq d) +
    b2n (decide (2 ≤ r.d3step) || r.d3) * 2 ^ 26 + b2n (lnk s d).therm * 2 ^ 27
  sbSend d true 0x02 body s

/-- The I/O-die end sends the rate call of a period (R205, R476). -/
def rateCallSend (d : Nat) (s : State) : State :=
  if hasCalls s d = false then s
  else
    let seq := (mget s.card.rcSeq d + 1) % 256
    let o := 0x100 + 8 * d
    sbSend d false 0x01 (rateBody (fld s frPpa o 0 12) (fld s frPpa o 12 3) (fld s frPpa o 15 3) seq)
      (updCard (fun c => { c with rcSeq := mset c.rcSeq d seq }) s)

/-- The Stroke unit takes a valid RATE_CALL (R479, R480): it answers with a DEMAND. -/
def rateCallTake (d body : Nat) (s : State) : State :=
  if hasCalls s d = false ∨ 6 < bits body 12 3 ∨ 6 < bits body 15 3 then s
  else
    let s := sbTake d false 0x01 body s
    let s := setFld (frDie d) 0x208 4 3 (bits body 12 3) (setFld (frDie d) 0x208 8 3 (bits body 15 3) s)
    let s := setFld (frDie d) 0x208 32 12 (bits body 0 12) (clrBit (frDie d) 0x208 11 s)
    let s := updLink d (fun l => { l with missed := 0 }) (updDie d (fun x => { x with slow := 0 }) s)
    sendDemand d (stkSettle d (updCard (fun c => { c with strokeSeq := mset c.strokeSeq d (bits body 18 8) }) s))

/-- A rate call is missed: after four in a row the floor budget applies, with a record (R205, R222, R480). -/
def rateCallMiss (d : Nat) (s : State) : State :=
  if hasCalls s d = false then s
  else
    let was := (lnk s d).missed
    let s := updLink d (fun l => { l with missed := min 4 (l.missed + 1) }) s
    let s := if was = 3 then logErr (linkErr s d true 0x0B 1 0 false 0x3F) s else s
    if 4 ≤ (lnk s d).missed then setFld (frDie d) 0x208 32 12 64 (setBit (frDie d) 0x208 11 s) else s

/-- The 1 µs estimate of core power (R479): the issue duty follows it. `est` and the running average `avg` are in units of
0.125 W. -/
def powerEstimate (d est avg : Nat) (s : State) : State :=
  if 12 ≤ d ∨ (die s d).d3 = true then s
  else
    let f := frDie d
    let b := fld s f 0x208 32 12
    let duty := fld s f 0x208 16 5
    let s := if b < avg then setFld f 0x208 16 5 (max 8 (duty - 1)) s else if avg < b then setFld f 0x208 16 5 (min 16 (duty + 1)) s else s
    let e := (die s d).enFrac + est
    updDie d (fun x => { x with enFrac := e % 8 }) (addWrap f 0x210 (e / 8) (setFld f 0x208 48 12 (min avg 4095) s))

/-- One millisecond at half duty: one level slower until the next rate call (R479). -/
def throttleDown (d : Nat) (s : State) : State :=
  if d < 12 ∧ fld s (frDie d) 0x208 16 5 = 8 then
    let l := min 6 (fld s (frDie d) 0x208 0 3 + 1)
    stkSettle d (updDie d (fun x => { x with slow := l }) s)
  else s

/-! ### The arbiter (R475 to R478, R501) -/

/-- An exact fraction; the denominator is never reduced. -/
structure Frac where
  n : Int := 0
  d : Nat := 1
  deriving DecidableEq, Repr, Inhabited
/-- Sum and difference. -/
def Frac.add (a b : Frac) : Frac := { n := a.n * b.d + b.n * a.d, d := a.d * b.d }
/-- Difference. -/
def Frac.sub (a b : Frac) : Frac := { n := a.n * b.d - b.n * a.d, d := a.d * b.d }
/-- At most. -/
def Frac.le (a b : Frac) : Bool := decide (a.n * b.d ≤ b.n * a.d)
/-- The whole part of a value that is not negative. -/
def Frac.floor (a : Frac) : Nat := (a.n / a.d).toNat

/-- Divisor k of a level (Table 14.2). -/
def lvlDiv (j : Nat) : Nat := ([4, 5, 6, 7, 8, 10, 12] : List Nat).getD j 12
/-- A record of the PPA. -/
def ppaErr (ty cls : Nat) (addr : Option Nat) (part : Nat) (s : State) : State := logErr { frame := frPpa, ty := ty, cls := cls, addr := addr, part := part } s

/-- Power, level and wish of a die's last DEMAND; none received counts as no power at P6. -/
def lastDem (s : State) (d : Nat) : Nat × Nat × Nat :=
  let b := mget s.card.dem d
  (if b = 0 then 0 else bits (b - 1) 0 12, if b = 0 then 6 else bits (b - 1) 12 3, fld s frPpa (0x100 + 8 * d) 18 3)
/-- The estimate of R476, in units of 0.125 W. -/
def estPower (s : State) (d j : Nat) : Frac :=
  let p := lastDem s d
  let v := (effVolt s d j).1
  let w := (effVolt s d p.2.1).1
  { n := ((p.1 * lvlDiv p.2.1 * v * v : Nat) : Int), d := lvlDiv j * w * w }

/-- Level and budget of a die while R476 computes the grants. -/
abbrev Grants := Map (Nat × Frac)
/-- One pass over the awake dies from `ptr`: each that wants a faster level and whose cost fits is raised by one. -/
def raisePass (s : State) (order : List Nat) (x : Grants × Frac) : Grants × Frac :=
  order.foldl (fun (x : Grants × Frac) d =>
    match mfind x.1 d with
    | none => x
    | some (l, b) =>
      if (die s d).d3 || decide (l ≤ (lastDem s d).2.2) then x
      else
        let e := estPower s d (l - 1)
        let c := e.sub b
        if c.le x.2 then (mins x.1 d (l - 1, b.add c), x.2.sub c) else x) x

/-- The grants of R476 for power readings in units of 0.125 W, and `avail`. -/
def grants (s : State) (pIod pHbm : Nat) : Grants × Int :=
  let lim := fld s frPpa 0 0 10
  let avail : Int := (8 * lim : Nat) - (pIod : Int) - (pHbm : Int) - 8 * 72 - 8 * 10
  let on := (List.range 12).filter (hasCalls s)
  let floorB : Nat → Frac := fun d => let e := estPower s d 6; if e.le { n := 64 } then { n := 64 } else e
  let g : Grants := on.map (fun d => (d, (6, floorB d)))
  let left := g.foldl (fun (a : Frac) e => a.sub e.2.2) { n := avail }
  let p := fld s frPpa 8 32 4
  let order := (List.range 12).map (fun i => (p + i) % 12)
  (((List.range 7).foldl (fun x _ => raisePass s order x) (g, left)).1, avail)

/-- The PPA writes a die's rail to the voltage of a level. -/
def setRail (d l : Nat) (s : State) : State :=
  updCard (fun c => { c with rail := mset c.rail d (mget c.rail d / 65536 * 65536 + (effVolt s d l).1) }) s

/-- The grant of one die: a faster level waits for its rail, a slower one lowers CEIL first (R474). -/
def grantDie (d l : Nat) (b : Frac) (s : State) : State :=
  let o := 0x100 + 8 * d
  let v := fld s frPpa o 15 3
  let s := setFld frPpa o 0 12 (min 4095 b.floor) s
  if l < v then updCard (fun c => { c with railTo := mset c.railTo d (l + 1) }) (setFld frPpa o 12 3 v s)
  else updCard (fun c => { c with railTo := mset c.railTo d 0 }) (setFld frPpa o 12 3 l s)

/-- The voltage of each rail before the first AVSBus write, in mV: boot voltages and fixed nominals (R565, R568). -/
def railBoot : List Nat := List.replicate 12 750 ++ [800, 1100, 900, 1200, 1100, 400, 1800, 750, 1800]
/-- The PPA reads voltage and current of every rail (R500, R567). No command names the currents that the board measures: they
are free. -/
def railsRead (s : State) : State :=
  (List.range 21).foldl (fun s n =>
    let q := drawNat s
    updCard (fun c => { c with rail := mset c.rail n (mget c.rail n % 65536 + q.1 % 65536 * 65536) }) q.2) s

/-- The allocation of a period (R475, R476): `pkg` is the package power over the last 1 ms. -/
def ppaAllocate (pIod pHbm pkg : Nat) (s : State) : State :=
  let s := railsRead s
  let g := grants s pIod pHbm
  let av := if g.2 < 0 then drawNat s else (g.2.toNat, s)
  let s := setFld frPpa 8 0 16 (min pkg 65535) (setFld frPpa 8 16 16 (av.1 % 65536) av.2)
  let s := setFld frPpa 8 32 4 ((fld s frPpa 8 32 4 + 1) % 12) s
  let s := g.1.foldl (fun s e => grantDie e.1 e.2.1 e.2.2 s) s
  if 8 * fld s frPpa 0 0 10 < pkg then ppaErr 0x03 0 none 15 s else s

/-- A regulator reports its rail settled: the next rate call raises VLVL and CEIL (R474). -/
def railSettled (d : Nat) (s : State) : State :=
  match mget s.card.railTo d with
  | 0 => s
  | l + 1 =>
    let o := 0x100 + 8 * d
    setRail d l (updCard (fun c => { c with railTo := mset c.railTo d 0 }) (setFld frPpa o 15 3 l (setFld frPpa o 12 3 l s)))

/-- A rail change is not confirmed within 50 µs (R501). -/
def avsTimeout (d : Nat) (s : State) : State :=
  if mget s.card.railTo d = 0 then s
  else mgtMsix 3 (ppaErr 0x01 1 none 15 (updCard (fun c => { c with railTo := mset c.railTo d 0 }) s))

/-- The PPA takes a DEMAND (R474, R478, Table 14.6 step 3). -/
def demandTake (d body : Nat) (s : State) : State :=
  if hasCalls s d = false ∨ 6 < bits body 12 3 ∨ 6 < bits body 15 3 then s
  else
    let o := 0x100 + 8 * d
    let s := sbTake d true 0x02 body s
    let s := setFld frPpa o 18 3 (bits body 15 3) (setFld frPpa o 24 12 (bits body 0 12) (setFld frPpa o 37 1 0 s))
    let s := updCard (fun c => { c with dem := mset c.dem d (body % 2 ^ 48 + 1) }) s
    let c := fld s frPpa o 12 3
    let s := if fld s frPpa o 15 3 < c ∧ c ≤ bits body 12 3 then setRail d c (setFld frPpa o 15 3 c s) else s
    if bit body 26 ∧ (die s d).d3step = 2 then softFence d (updDie d (fun x => { x with d3step := 3 }) s) else s

/-- Four periods pass without a DEMAND from an awake die (R478). -/
def demandMiss (d : Nat) (s : State) : State :=
  let o := 0x100 + 8 * d
  if hasCalls s d = false ∨ (die s d).d3 = true ∨ fbit s frPpa o 37 = true then s
  else ppaErr 0x05 1 none 15 (setFld frPpa o 18 3 6 (setFld frPpa o 37 1 1 s))

/-! ### Temperatures (R481, R576 to R578) -/

/-- Hottest reading of a die, in 0.0625 °C, through its sensors' offset; none before the first reading. -/
def hottest (s : State) (d : Nat) : Option Int :=
  let ts := (List.range 16).filterMap (fun i => mfind s.card.temp (16 * d + i))
  if ts.isEmpty then none else some (((ts.foldl max 0 : Nat) : Int) - 2 ^ 15 + 4 * effTherm s d)

/-- SB_THERM_N of a die is asserted: the PPA records it (R481). -/
def thermOn (d : Nat) (s : State) : State :=
  sendDemand d (mgtMsix 3 (ppaErr 0x02 0 none (diePart s d) (setBit (frDie d) 0x208 12 (updLink d (fun l => { l with therm := true }) s))))
/-- SB_THERM_N is released. -/
def thermOff (d : Nat) (s : State) : State :=
  sendDemand d (stkSettle d (clrBit (frDie d) 0x208 12 (updDie d (fun x => { x with therm := 0 }) (updLink d (fun l => { l with therm := false }) s))))

/-- A catastrophic temperature of the I/O die or an HBM stack: UCP, and every root PLL stops (R577). -/
def thermTrip (d : Nat) (s : State) : State := updCard (fun c => { c with dark := true }) (ppaErr 0x07 3 (some d) 15 s)

/-- A sensor is read; `sensor` is 16 * die + number, `t` in units of 0.0625 °C (R576 to R578). -/
def sensorRead (sensor : Nat) (t : Int) (s : State) : State :=
  let d := sensor / 16
  if 17 ≤ d ∨ (d < 12 ∧ 8 ≤ sensor % 16) ∨ (12 < d ∧ sensor % 16 ≠ 0) then s
  else
    let was := hottest s d
    let s := updCard (fun c => { c with temp := mins c.temp sensor (t + 2 ^ 15).toNat }) s
    match hottest s d with
    | none => s
    | some now =>
      let rise := fun (lim : Int) => decide (lim * 16 < now) && !(was.any (fun w => decide (lim * 16 < w)))
      if d < 12 then
        let on := (lnk s d).therm
        let s := if !on && decide (100 * 16 ≤ now) then thermOn d s else if on && decide (now ≤ 95 * 16) then thermOff d s else s
        if 115 * 16 ≤ now ∧ linkSt s d false ≠ lOFF ∧ linkSt s d false ≠ lHOLD then dieEndLoss d (anyLoss d s) else s
      else if d = 12 then
        let s := if rise 100 then mgtMsix 3 (ppaErr 0x02 0 none 15 s) else s
        if 115 * 16 ≤ now ∧ s.card.dark = false then thermTrip 12 s else s
      else
        let s := if rise 85 then logErr { frame := frHc (d - 13), ty := 0x0A, cls := 0 } s else s
        let s := if rise 92 then logErr { frame := frHc (d - 13), ty := 0x0A, cls := 0 } s else s
        if 105 * 16 ≤ now ∧ s.card.dark = false then thermTrip d s else s

/-- One more millisecond with SB_THERM_N asserted: one level slower (R481). -/
def thermalStep (d : Nat) (s : State) : State :=
  if d < 12 ∧ (lnk s d).therm = true ∧ (die s d).d3 = false then
    let l := min 6 (fld s (frDie d) 0x208 0 3 + 1)
    stkSettle d (updDie d (fun x => { x with therm := l }) s)
  else s

/-- SB_THERM_N stays asserted for 10 ms at P6 (R481). -/
def thermalPersist (d : Nat) (s : State) : State :=
  if d < 12 ∧ (lnk s d).therm = true ∧ (die s d).therm = 6 then mgtMsix 3 (ppaErr 0x02 (if diePart s d < 12 then 2 else 1) none (diePart s d) s) else s

/-! ### Die sleep (R483 to R487) -/

/-- May a die begin to enter D3 (R483, Table 14.6 step 1)? -/
def d3Ready (s : State) (d : Nat) : Bool :=
  let r := die s d
  decide (d < 12) && decide (linkSt s d false = lL0) && !r.d3 && decide (r.d3step = 0) && !r.failed && r.ri.isNone && r.coxq.isEmpty && r.sweep.isEmpty &&
  !(port s d).fenced && !(port s d).soft && decide (mget s.card.d3wait d ≤ s.tb) && s.cox.cur.all (fun pr => decide (pr.op ≠ 0x06) || decide (pr.d ≠ d)) &&
  hartsPermit s d 120000 3

/-- Step 1 of the entry (Table 14.6): lines of banks that are not retained are announced, and every region is released. -/
def d3Entry (d : Nat) (s : State) : State :=
  if d3Ready s d = false then s
  else
    let keep := fld s (frDie d) 0x200 4 4
    let hidden := fld s (frDie d) 0x180 16 4
    let gone := fun (key : Nat) => !(bit keep (key % 12 / 3)) || bit hidden (key % 12 / 3)
    let s := updDie d (fun x => { x with d3step := 1 }) s
    (List.range 24).foldl (fun s k =>
      let ks := ((slice s d k).l3.filter (fun e => e.2.v && gone e.1)).map (·.1)
      let rs := ((slice s d k).rgn.filter (fun e => e.2.v)).map (·.1)
      sliceRun d k (rs.foldl (fun s key => rgnRelease d k key s) (ks.foldl (fun s key => l3Evict d k key s) s))) s

/-- Step 2: with nothing left open in the slices, the Stroke unit sends D3RDY. Step 4: the fence stands, and PWR_REQ goes out. -/
def d3Advance (d : Nat) (s : State) : State :=
  if (die s d).d3step = 1 ∧ (List.range 24).all (fun k => let c := slice s d k
      c.wb.isEmpty && c.rel.isEmpty && c.tx.isEmpty && c.snp.isEmpty && c.rsnp.isEmpty) = true then
    sendDemand d (updDie d (fun x => { x with d3step := 2 }) s)
  else pwrSend d s

/-- The entry ends before PWR_ACK (R484, R487): D3RDY clears and the PPA lifts the fence; when no hart has woken, a bound was
exceeded and the die tries again no sooner than 1 ms later. -/
def d3Abort (d : Nat) (s : State) : State :=
  let n := (die s d).d3step
  if n = 0 then s
  else
    let t := if hartsPermit s d 120000 3 then s.tb + 1000000 else 0
    let s := updDie d (fun x => { x with d3step := 0 }) s
    let s := if 3 ≤ n then fenceLift d s else s
    sendDemand d (updCard (fun c => { c with d3wait := mset c.d3wait d t }) s)

/-! ### Package sleep (R489 to R496, R560) -/

/-- Does every condition of R489 hold? The links of the root ports are taken to be in L1 or down. -/
def k3Ready (s : State) : Bool :=
  !s.card.k3 && s.card.up &&
  (List.range 12).all (fun d => (die s d).d3 || linkSt s d false = lOFF || linkSt s d false = lHOLD) &&
  (List.range 12).all (fun d => hartsPermit s d 2000000 4) &&
  s.pairSt.all (fun e => e.2 = .off || e.2 = .alone || e.2 = .gone) &&
  s.bh.slots.isEmpty && s.cox.cur.isNone && s.cox.queue.isEmpty && s.card.test.isNone &&
  s.dies.all (fun e => e.2.ri.isNone) && s.strata.all (fun e => e.2.moves.isEmpty) &&
  s.rps.all (fun e => e.2.ops.isEmpty && e.2.tlps.isEmpty && e.2.out.isEmpty)

/-- Is a field one that returns to its reset value across K3 (Table 17.4)? A field that only shows the state of a block, and the
restored ones, are kept. -/
def k3Loses (kind off : Nat) (x : Fld) : Bool :=
  x.ret = .v && (x.acc = .rw || x.acc = .w1c || x.acc = .w1s) && decide (kind < 0x30) && decide (kind ≠ 0x17) && decide (kind ≠ 0x26) && decide (off ≠ 0x600)

/-- The package enters K3: V fields as Table 17.4 says, the timebase counts by 10, and every sleeping hart reached K3. -/
def k3Entry (s : State) : State :=
  if k3Ready s = false then s
  else
    let s := s.regs.foldl (fun t e =>
      let f := e.1 / 65536
      let off := e.1 % 65536
      setReg f off (BitVec.ofNat 64 ((fieldsAt f off).foldl (fun a x => if k3Loses (keyKind f) off x then putFld a x x.reset else a) e.2.toNat)) t) s
    let s := { s with links := s.links.map (fun e => (e.1, { e.2 with wg := (e.2.wg.map (fun w => (w.1, if 96 ≤ w.1 then { w.2 with cecnt := 0 } else w.2))).filter (fun w => w.2 ≠ {}) })),
                      harts := s.harts.map (fun e => (e.1, if e.2.st = .c4 then setLastst 5 e.2 else e.2)) }
    setFld frPpa 0x048 0 1 1 (updCard (fun c => { c with k3 := true }) s)

/-- The package leaves K3 (Table 14.8): the timebase returns to the root. No die wakes with it (R490). -/
def k3Wake (s : State) : State :=
  if s.card.k3 then setFld frPpa 0x048 0 1 0 (updCard (fun c => { c with k3 := false }) s) else s

/-- A die in D3 begins to wake (Table 14.8 D3.1). -/
def dieWake (d : Nat) (s : State) : State := if (die s d).d3 then wakePattern d true 0xCA s else s

/-- A hart's timer compare is reached (R491): the package, the die and the hart wake. -/
def timerCompare (h : Nat) (s : State) : State :=
  if 576 ≤ h ∨ (hart s h).st = .parked then s
  else
    let d := h / 48
    let s := k3Wake (updHart h (fun x => { x with timer := true }) s)
    if (die s d).d3 then dieWake d s
    else if (die s d).d3step ≠ 0 then d3Abort d (wakeHart h s)
    else wakeHart h s

/-! ### Loss of power (R555, R570 to R572) -/

/-- A fall of PWROK: every block but the always-on domain is reset and memory is lost; the flash and the drives keep what they
hold (R570, Table 17.3, R290, R374). -/
def powerOff (s : State) : State :=
  let t : State :=
    { pending := s.pending
      free := s.free
      tb := s.tb
      pins := { s.pins with pwrok := false }
      card := { cs0 := s.card.cs0, cs1 := s.card.cs1, known := s.card.known, inForce := s.card.inForce, log := s.card.log, svn := s.card.svn }
      flt := { log := s.flt.log, ucpLog := s.flt.ucpLog }
      strata := s.strata.filterMap (fun e => if e.2.retire.isEmpty then none else some (e.1, { retire := e.2.retire }))
      pprq := s.pprq
      catCopies := s.catCopies }
  setFld frFlt 0 0 1 (fld s frFlt 0 0 1) (setFld frPpa 0x048 0 1 (fld s frPpa 0x048 0 1) t)

/-- The always-on rail is removed: the class A fields are lost with everything else, and nothing is driven (R555, R558, R571). -/
def aonOff (s : State) : State :=
  let t := powerOff s
  clrBit frFlt 0 0 (clrBit frPpa 0x048 0 { t with tb := 0, pins := { aon := false } })

/-- A watched rail falls: as a fall of PWROK, and a UCP record (R572). -/
def railFail (rail : Nat) (s : State) : State :=
  if s.pins.pwrok = true ∧ (rail < 13 ∨ (16 ≤ rail ∧ rail < 19)) then ppaErr 0x06 3 (some rail) 15 (powerOff s) else s

/-- The reference clock is lost (R471). -/
def refLoss (s : State) : State := ppaErr 0x04 3 none 15 s

/-! ### Windows (R542 to R544) -/

/-- The frames of KIND with a counter block, and the links that must be in L0 for a copy. -/
def snapFrames (s : State) : List Nat :=
  (List.range 32).map frHa ++ (List.range 12).map frRp ++ (List.range 4).map frHc ++ (List.range 16).map frDc ++
  ((List.range 12).filter (fun d => linkSt s d false = lL0)).flatMap (fun d => if (die s d).d3 then [frAp d] else [frAp d, frDie d])

/-- A window boundary: the snapshots are made, and a new length takes effect. -/
def windowBoundary (s : State) : State :=
  let len := s.card.winLen
  if len = 0 ∨ s.card.k3 = true then s
  else
    let t := s.tb / (len * 1000) * (len * 1000)
    let tw := BitVec.ofNat 64 t
    let s := (snapFrames s).foldl (fun s f => (List.range 16).foldl (fun s i => setReg f (0x880 + 8 * i) (reg s f (0x800 + 8 * i)) s) (setReg f 0x900 tw s)) s
    let s := (List.range 4).foldl (fun s m => (List.range 9).foldl (fun s i => setReg (frSe m) (0x180 + 8 * i) (reg s (frSe m) (0x100 + 8 * i)) s) (setReg (frSe m) 0x1C8 tw s)) s
    let s := (List.range 16).foldl (fun s k => let o := 0x100 + 64 * (k % 4); setReg (frPb (k / 4)) (o + 0x20) (reg s (frPb (k / 4)) (o + 0x18)) s) s
    updCard (fun c => { c with winLen := fld s frIof 0x800 0 16 }) (setFld frIof 0x808 0 32 (fld s frIof 0x808 0 32 + 1) s)

end Sys2Proof.Machine
end

