-- ==== Sys2Proof/Machine/Regs.lean ====
section
/-! DEFINITION. The device register space: what a read of each register returns and what a write does (R545 to R553, R561, R562).
Log entries with the choices and readings made here: 33, 89, 90, 91, 112, 118, 196, 197. -/

namespace Sys2Proof.Machine

/-! ### Computed reads -/

/-- Code of a partition's state (Table 9.5). -/
def pStateCode (x : PState) : Nat :=
  match x with
  | .none => 0 | .stopped => 1 | .running => 2 | .changing => 3 | .down => 4
/-- Code of a pair state (Table 12.2). -/
def pairCode (x : PairSt) : Nat :=
  match x with
  | .off => 0 | .alone => 1 | .syncActive => 2 | .syncShadow => 3 | .active => 4 | .shadow => 5 | .held => 6 | .gone => 7

/-- A word of a frame's header, as partition `p` reads it (R547, Table 17.2). -/
def headerWord (s : State) (p g : Nat) (vis : Bool) : Nat :=
  let k := frameKind g
  if p ≠ 15 ∧ seesFrame s p g = false then 0
  else if vis then
    let m := (List.range 12).foldl (fun a q => if seesFrame s q g then a + 2 ^ q else a) (2 ^ 15)
    (if p = 15 then m else m &&& (2 ^ p + 2 ^ 15)) + b2n (hasErrBank k.1) * 2 ^ 16 + b2n (hasPmc k.1) * 2 ^ 17
  else k.1 + frameAgent g * 2 ^ 8 + k.2 * 2 ^ 24

/-- A word of a ring record (Table 15.5). -/
def recWord (r : FltRec) (i : Nat) : Nat :=
  match i with
  | 0 => r.seq % 2 ^ 32 + r.incident * 2 ^ 32 + b2n r.origin * 2 ^ 48
  | 1 => r.frame
  | 2 => r.stat.toNat
  | 3 => r.addr.toNat
  | 4 => r.src.toNat
  | 5 => r.type.toNat
  | 6 => r.time.toNat
  | _ => r.cnt.toNat

/-- `AP_FENCE_STAT` or `RP_FENCE_STAT` (Table 7.8). -/
def fenceStat (s : State) (n : Nat) : Nat :=
  let p := port s n
  let ap := decide (n < 16)
  b2n p.fenced + b2n (fbit s (frPort n) 0x608 1) * 2 + b2n (ap && parking s n) * 4 + b2n (ap && parkFull s n) * 8 +
    b2n (if ap then apOffline s n else p.retired) * 16 + (if ap then min p.park.length 128 * 2 ^ 8 else 0) + (p.opentx.length % 2 ^ 16) * 2 ^ 16

/-- `RP_STAT` (Table 10.9). -/
def rpStat (s : State) (r : Nat) : Nat :=
  (List.range 4).foldl (fun a l =>
    let x := rpLink (rp s r) l
    a + (x.speed + x.width * 8 + b2n x.dlup * 2 ^ 8 + b2n x.present * 2 ^ 9 + b2n x.dpc * 2 ^ 10 + b2n x.cxl * 2 ^ 11) * 2 ^ (16 * l)) 0

/-- Parked harts of a die that partition `p` owns (Table 9.6). -/
def hartStat (s : State) (p d : Nat) : Nat :=
  if ownsDie s p d then (List.range 48).foldl (fun a c => if (hart s (48 * d + c)).st = .parked then a + 2 ^ c else a) 0 else 0

/-- UART1 as the owner reads its 16550 register `i` (R562): the transmitter is always empty. -/
def uartRead (u : Uart) (i : Nat) : Nat :=
  let dlab := bit u.lcr 7
  match i with
  | 0 => if dlab then u.dl % 256 else u.rx.headD 0
  | 1 => if dlab then u.dl / 256 else u.ier
  | 2 => (if bit u.ier 1 then 2 else 1) + (if bit u.fcr 0 then 0xC0 else 0)
  | 3 => u.lcr
  | 4 => u.mcr
  | 5 => 0x60 + b2n (!u.rx.isEmpty)
  | 6 => 0
  | _ => u.scr

/-- GPIO pins of a partition (R562). -/
def gpioMask (s : State) (p : Nat) : Nat := (List.range 32).foldl (fun a n => if bits s.gpioOwn (4 * n) 4 = p then a + 2 ^ n else a) 0
/-- Levels sampled on a partition's pins: what it drives on outputs, what the board drives on inputs. -/
def gpioRead (s : State) (p : Nat) : Nat :=
  let dir := fld s (frPio p) 0x100 0 32
  ((dir &&& fld s (frPio p) 0x108 0 32) ||| (s.gpioIn % 2 ^ 32 - (s.gpioIn % 2 ^ 32 &&& dir))) &&& gpioMask s p

/-- `MGR_SLOTn` (Table 13.9). -/
def mgrSlot (s : State) (n : Nat) : Nat :=
  let cs := s.card.cs0
  let r := slotRole cs n
  let b := slotBase n
  if r = roEMPTY then 0
  else r + (if r = roWRITING then 0 else fle cs (b + 16) 4 % 64 * 2 ^ 4) + fle cs (b + 8) 8 % 2 ^ 48 * 2 ^ 16

/-- Does partition `p` (15 the system) see probe `k`'s registers (R548)? -/
def seesProbe (s : State) (p k : Nat) : Bool := p = 15 || decide (mget s.vis.probeP k = p + 1)

/-- Read of a register of a frame with partition `p`'s PART; the BMC reads with 15. An offset that no map defines reads 0 (R549).
No read changes the device's state (R551). -/
def regRead (s : State) (p f off : Nat) : Nat :=
  let k := if f = frBmc then (0x28, 0) else frameKind f
  let i := k.2
  let st := (reg s f off).toNat
  if p ≠ 15 ∧ seesFrame s p f = false then 0
  else if (k.1 = 0x27 ∨ k.1 = 0x28) ∧ 0x100 ≤ off ∧ off < 0x118 then mgrSlot s ((off - 0x100) / 8)
  else if (k.1 = 0x27 ∨ k.1 = 0x28) ∧ off = 0x128 then Config.factoryRevoked.toNat + svnFloor s * 2 ^ 8
  else if (k.1 = 0x27 ∨ k.1 = 0x28) ∧ off = 0x138 then calVal s (fld s f 0x130 0 16)
  else if hasErrBank k.1 ∧ off = 0x510 then setBits st 16 12 (frameAgent f)
  else match k.1 with
  | 0x01 => headerWord s p (off / 16) (bit off 3)
  | 0x02 => if off = 0x008 then st + oldCnt s * 2 ^ 16 else st
  | 0x03 =>
    if off = 0x040 then s.tb % 2 ^ 64
    else if 0x100 ≤ off ∧ off < 0x160 then setBits st 36 1 (b2n (die s ((off - 0x100) / 8)).d3)
    else st
  | 0x05 => if off < 0x40 then st else recWord (mget s.flt.ring (off / 64)) (off / 8 % 8)
  | 0x06 =>
    if off = 0x008 then slabEnt s (fld s f 0 0 14)
    else if off = 0x018 then st + b2n (slabBusy s) else st
  | 0x07 => if off = 0 then bhStat s else if off = 0x010 then bhVfStat s (fld s f 0x008 0 10) none else st
  | 0x08 => if off = 0x008 then st + min 4096 (s.pair.sent.length + s.pair.send.length) * 2 ^ 16 + min 4096 s.pair.recv.length * 2 ^ 32 else st
  | 0x10 =>
    if off = 0x040 then
      let x := home s i
      st + min x.trk.length 1536 + min x.rq.length 2048 * 2 ^ 16 + min x.vic.length 64 * 2 ^ 32 + b2n (!x.tear.isEmpty) * 2 ^ 49
    else st
  | 0x11 =>
    if off = 0x400 then st + lcc s i * 2 ^ 32
    else if off = 0x428 then wgStat s i false
    else if off = 0x430 then lnkTune s f
    else if off = 0x438 then bits (Config.factory f off).toNat 0 30
    else if off = 0x608 then fenceStat s i else st
  | 0x12 =>
    if off = 0x008 then rpStat s i
    else if off = 0x608 then fenceStat s (16 + i)
    else if 0x1000 ≤ off ∧ off < 0x2000 then ioRegRead s i off else st
  | 0x15 =>
    if off = 0x010 then st + min (se s i).moves.length 4 + min (se s i).pq.length 32 * 2 ^ 3 + b2n (!(se s i).rebuild.isEmpty) * 2 ^ 9 else st
  | 0x17 =>
    let pr := 4 * i + (off - 0x100) / 0x40
    if off < 0x100 ∨ 0x200 ≤ off ∨ seesProbe s p pr = false then 0
    else if off % 0x40 = 8 then (probeMatch s pr).1
    else if off % 0x40 = 16 then (probeMatch s pr).2 else st
  | 0x18 =>
    let pr := 4 * i + off / 0x4000
    if seesProbe s p pr then
      let r := (mget s.trace pr).getD (off % 0x4000 / 32) {}
      ([r.time, r.at_, r.lo, r.hi].getD (off % 32 / 8) 0).toNat
    else 0
  | 0x19 =>
    if off = 0 then st + bank s + b2n (s.fab.held.any (fun e => decide (e.1 = i) && epochHolds s i e.2)) * 4
    else if 0x1000 ≤ off ∧ off < 0x1800 ∧ (off - 0x1000) % 0x400 / 8 < 97 then routeEnt s ((off - 0x1000) / 0x400) i ((off - 0x1000) % 0x400 / 8)
    else st
  | 0x20 =>
    if off = 0 then st + i + pStateCode (part s i).st * 2 ^ 4 + (part s i).dies * 2 ^ 8 + (part s i).rps * 2 ^ 20 + b2n (part s i).manager * 2 ^ 32
    else if 0x100 ≤ off ∧ off < 0x160 then hartStat s i ((off - 0x100) / 8) else st
  | 0x21 =>
    if off = 0x008 then (let e := slabEnt s (fld s f 0 0 14); if slState e = slOWNED ∧ slOwner e = i then e else 0)
    else if off = 0x208 then st + b2n (mget s.strCmd i).isSome - bits st 0 1 else st
  | 0x22 =>
    if 0x080 ≤ off ∧ off < 0x0C0 then bits (((mbxOf s i).headD {}).data).toNat (64 * ((off - 0x080) / 8)) 64
    else if off = 0x0C0 then (mbxOf s i).length + ((mbxOf s i).headD {}).src * 2 ^ 8 else st
  | 0x23 =>
    if off < 0x040 then (match fltQueue s i with
      | [] => 0
      | r :: _ => recWord r (off / 8))
    else if off = 0x040 then st + (fltQueue s i).length else st
  | 0x24 => if off = 0 then pairCode (mget s.pairSt i) else st
  | 0x25 =>
    if off = 0x008 then bhVfStat s (fld s f 0 0 10) (some i)
    else if 0x1000 ≤ off ∧ off < 0x2000 then ioRegRead s (32 + i) off else st
  | 0x26 =>
    if off < 0x40 then (if s.uart1 = i then uartRead s.uart (off / 8) else 0)
    else if off = 0x110 then gpioRead s i
    else st &&& gpioMask s i
  | 0x30 =>
    if 0x100 ≤ off ∧ off < 0x180 ∧ off % 0x20 = 0x10 then setBits st 17 1 (b2n ((die s i).sweep.contains ((off - 0x100) / 0x20)))
    else if off = 0x400 then st + lcc s i * 2 ^ 32
    else if off = 0x410 then cutWord (lnk s i) true false
    else if off = 0x418 then cutWord (lnk s i) true true
    else if off = 0x428 then wgStat s i true
    else if off = 0x430 then lnkTune s f
    else if off = 0x438 then bits (Config.factory f off).toNat 0 30
    else if 0x240 ≤ off ∧ off < 0x278 then setBits (Config.factory f off).toNat 48 10 (effVolt s i ((off - 0x240) / 8)).1
    else st
  | _ => st

/-- A read of `size` bytes: only IMSIC and APLIC frames take other widths than 8 bytes (R549). The implemented register of an
IMSIC file reads 0. -/
def drsRead (s : State) (p f off size : Nat) : Nat :=
  let k := frameKind f
  if k.1 = 0x40 then 0
  else if k.1 = 0x41 then
    if p ≠ 15 ∧ seesFrame s p f = false then 0
    else
      let one := fun (o : Nat) => aplRead32 (aplic s k.2) (decide (0x8000 ≤ o)) (o % 0x8000)
      one off + (if size = 8 then one (off + 4) * 2 ^ 32 else 0)
  else regRead s p f off

/-! ### Writes -/

/-- A write of the fields of a stored register (Table 0.2, R12, R13, R554). -/
def genWrite (f off v : Nat) (s : State) : State :=
  setReg f off (BitVec.ofNat 64 ((fieldsAt f off).foldl (fun a x => writeFld s.lockOpen (fun y n => legalFld (keyKind f) off y n) v a x) (reg s f off).toNat)) s

/-- A write of `AP_FENCE_CTL` or `RP_FENCE_CTL` (Table 7.8, R250 to R253). MODE takes every write (R10).
DESIGN CHOICE: MODE 0 written with REQ 1 at a port that is hard-fenced makes the fence in force a soft one. -/
def fenceWrite (n v : Nat) (s : State) : State :=
  if bit v 0 = false then fenceLift n (setFld (frPort n) 0x600 1 1 (b2n (bit v 1)) s)
  else if bit v 1 then hardFence n s
  else softFence n (setFld (frPort n) 0x600 0 2 1 s)

/-- A write of `LNK_CTL` at an end (Table 6.15, R225, R553). -/
def lnkCtlWrite (d : Nat) (dieEnd : Bool) (p v : Nat) (s : State) : State :=
  let s := genWrite (frEnd d dieEnd) 0x408 v s
  if dieEnd ∨ p ≠ 15 then s
  else match bits v 0 4 with
    | 1 => linkRetrain d s
    | 2 => linkRetrainFull d (bit v 4) s
    | 3 => linkHoldCmd d s
    | 4 => linkRecal d s
    | _ => s

/-- A write of `LNK_WGSTAT`: the count of corrections of the selected group at its receiving end (Table 6.17). -/
def wgWrite (d : Nat) (dieEnd : Bool) (v : Nat) (s : State) : State :=
  let g := fld s (frEnd d dieEnd) 0x420 0 7
  let out := fbit s (frEnd d dieEnd) 0x420 7
  if g < 96 ∧ dieEnd = !out then updWg d (wgKey out g) (fun w => { w with cecnt := bits v 48 16 }) s else s

/-- A write of a 16550 register by the partition that owns UART1 (R562): the byte transmitted goes to the line, and the
transmitter-empty interrupt follows IER. -/
def uartWrite (p i v : Nat) (s : State) : State :=
  let u := s.uart
  let dlab := bit u.lcr 7
  let put := fun (u : Uart) => { s with uart := u }
  match i with
  | 0 => if dlab then put { u with dl := u.dl / 256 * 256 + v } else put { u with tx := u.tx ++ [v] }
  | 1 => if dlab then put { u with dl := u.dl % 256 + v * 256 } else aplWire p 225 (bit v 1) (put { u with ier := v % 16 })
  | 2 => put { u with fcr := v }
  | 3 => put { u with lcr := v }
  | 4 => put { u with mcr := v % 32 }
  | 7 => put { u with scr := v }
  | _ => s

/-- A write of `RP_CFG` (R334, Table 10.9): PAIR is 0 but on RP10 and RP11, and goes with BIF 0b000 alone.
DESIGN CHOICE: a write that would leave PAIR 1 with another BIF leaves both fields. -/
def rpCfgWrite (r v : Nat) (s : State) : State :=
  let t := genWrite (frRp r) 0 (if r < 10 then setBits v 3 1 0 else v) s
  if fbit t (frRp r) 0 3 ∧ fld t (frRp r) 0 0 3 ≠ 0 then setFld (frRp r) 0 0 4 (fld s (frRp r) 0 0 4) t else t

/-- A write of the window length (R543). -/
def winWrite (v : Nat) (s : State) : State :=
  let s := setFld frIof 0x800 0 16 v s
  if s.card.winLen = 0 then updCard (fun c => { c with winLen := v % 65536 }) s else s

/-- What a drive answers as it is attached by a register write: the drive that the start found, or a free one (R373). -/
def driveIdOf (rid : Nat) (s : State) : DriveId × State :=
  match s.card.hw.drives.find? (fun e => e.1 = rid) with
  | some e => (e.2, s)
  | none =>
    let b := drawBool s
    let n := drawNat b.2
    let q := drawNat n.2
    ({ responds := b.1, blocks := n.1, qpairs := q.1 }, q.2)

/-- A write of `MGR_CMD` by manager `src` with the arguments in its frame (R310). -/
def mgrCmdWrite (src v : Nat) (s : State) : State :=
  let fr := mgrFrame src
  let c : MgrCmd := { src := src, a0 := reg s fr 0, a1 := reg s fr 8, seq := bits v 8 8 }
  let d := if bits v 0 8 = 0x20 then driveIdOf (bits c.a1.toNat 0 4 * 65536 + bits c.a1.toNat 8 16) s else ({}, s)
  mgrPut (bits v 0 8) c d.1 d.2

/-- Pages under retirement, by location key (R287). -/
def retiring (s : State) : List Nat := (s.cox.bg.filter (fun pr => pr.op = 0x1001)).map (·.n)

/-- A partition resets itself, as a PART_RESET of the Cox's own (R325). -/
def selfReset (p : Nat) (s : State) : State :=
  if p < 12 ∧ ((part s p).st = .running ∨ (part s p).st = .down) then
    { s with cox := { s.cox with queue := s.cox.queue ++ [{ op := 0x04, c := { src := 17, a0 := BitVec.ofNat 64 p } }] } }
  else s

/-- Fields that take a write only with PART 15 in a frame that partitions see (R553): the error bank, fences and decoders of a
root port, DIE_TOFS. -/
def only15 (k off : Nat) : Bool :=
  (hasErrBank k && (off = 0x500 || off = 0x528 || off = 0x530)) ||
  (k = 0x12 && (off = 0x600 || off = 0x608 || (decide (0x200 ≤ off) && decide (off < 0x280)))) || (k = 0x30 && off = 0x700)

/-- A write of a register of a frame with PART `p`. `p` 16 is the BMC, which reaches only the frames that BAR0 presents. -/
def regWrite (p f off v : Nat) (s : State) : State :=
  let k := if f = frBmc then (0x28, 0) else frameKind f
  let i := k.2
  if p < 15 ∧ seesFrame s p f = false then s
  else if p ≠ 15 ∧ only15 k.1 off = true then s
  else if hasErrBank k.1 ∧ off = 0x530 then injWrite f p v s
  else match k.1 with
  | 0x02 =>
    if off = 0 then (if bit v 0 then epochSwitch s else s)
    else if 0x100 ≤ off ∧ off < 0x400 ∧ off % 8 = 0 then stopWrite ((off - 0x100) / 8) v s
    else if off = 0x800 then winWrite v s else genWrite f off v s
  | 0x03 =>
    let t := genWrite f off v s
    if off = 0 ∧ reg t f 0 ≠ reg s f 0 then mgtMsix 3 t else t
  | 0x05 =>
    if !(fltOpen s p) then s
    else if off = 0 then fltPkgWrite p v s
    else if off = 8 ∧ p ≠ 15 then genWrite f off (setBits v 0 1 (b2n (fbit s f 8 0))) s else genWrite f off v s
  | 0x06 =>
    if off = 0x008 then slabWrite false (fld s f 0 0 14 * 2 ^ 64 + v % 2 ^ 64) s
    else if off = 0x010 then slabWrite true v s else genWrite f off v s
  | 0x11 =>
    if off = 0x408 then lnkCtlWrite i false p v s
    else if off = 0x410 ∨ off = 0x418 then cutWrite i (off = 0x418) v s
    else if off = 0x428 then wgWrite i false v s
    else if off = 0x600 then fenceWrite i v s else genWrite f off v s
  | 0x12 =>
    if off = 0x600 then fenceWrite (16 + i) v s
    else if 0x1000 ≤ off ∧ off < 0x2000 then ioRegWrite i off v s
    else if off = 0 then rpCfgWrite i v s else genWrite f off v s
  | 0x15 => if off = 0 ∨ off = 8 then sePolicyWrite i off v s else genWrite f off v s
  | 0x17 => if 0x100 ≤ off ∧ off < 0x200 ∧ seesProbe s p (4 * i + (off - 0x100) / 0x40) = true then genWrite f off v s else s
  | 0x19 =>
    if 0x1000 ≤ off ∧ off < 0x1800 ∧ (off - 0x1000) % 0x400 / 8 < 97 then routeWrite i ((off - 0x1000) / 0x400) ((off - 0x1000) % 0x400 / 8) v s
    else genWrite f off v s
  | 0x20 =>
    if off = 0x008 then (if bit v 0 then selfReset i s else s)
    else if off = 0x028 then hartCmd i (bits v 0 10) (bits v 10 2) s else genWrite f off v s
  | 0x21 => if off = 0x200 then strWrite (retiring s) i (bits v 0 2) (bits v 12 40 * 4096) s else genWrite f off v s
  | 0x22 =>
    if off = 0x040 then
      let s := genWrite f off v s
      if bit v 8 then mbxSend i (fld s f 0x040 0 4) s else s
    else if off = 0x0C8 then (if bit v 0 then mbxPop i s else s)
    else if off = 0x0D0 then queueIrqWrite i f off v [] s else genWrite f off v s
  | 0x23 =>
    if off = 0x048 then (if bit v 0 then pfltPop i s else s)
    else if off = 0x050 then queueIrqWrite i f off v [61, 62] s else genWrite f off v s
  | 0x24 => if off = 0x018 then queueIrqWrite i f off v [] s else genWrite f off v s
  | 0x25 => if 0x1000 ≤ off ∧ off < 0x2000 then ioRegWrite (32 + i) off v s else genWrite f off v s
  | 0x26 =>
    if off < 0x40 then (if s.uart1 = i then uartWrite i (off / 8) (v % 256) s else s)
    else
      let m := gpioMask s i
      genWrite f off ((v &&& m) + ((reg s f off).toNat - ((reg s f off).toNat &&& m))) s
  | 0x27 => if off = 0x020 then (match managerPart s with
      | some q => mgrCmdWrite q v s
      | none => s) else genWrite f off v s
  | 0x28 => if off = 0x020 then mgrCmdWrite 16 v s else genWrite f off v s
  | 0x30 =>
    if 0x100 ≤ off ∧ off < 0x180 then
      let n := (off - 0x100) / 0x20
      if off % 0x20 = 0x10 then lockCtl i n v s else if off % 0x20 < 0x10 then lockRangeWrite i off v s else s
    else if off = 0x408 then lnkCtlWrite i true p v s
    else if off = 0x428 then wgWrite i true v s else stkSettle i (genWrite f off v s)
  | _ => genWrite f off v s

/-- A write of `size` bytes: an IMSIC file takes a 4-byte `seteipnum_le` (R347), an APLIC 4 bytes at a time (R549). -/
def drsWrite (p f off size v : Nat) (s : State) : State :=
  let k := frameKind f
  if p < 15 ∧ seesFrame s p f = false then s
  else if k.1 = 0x40 then (if off % 4096 = 0 ∧ off < 0x9000 ∧ size = 4 then imPend k.2 (off / 4096) (v % 2 ^ 32) s else s)
  else if k.1 = 0x41 then
    let one := fun (o w : Nat) (s : State) => aplWrite32 k.2 (decide (0x8000 ≤ o)) (o % 0x8000) (w % 2 ^ 32) s
    if size = 8 then one (off + 4) (v / 2 ^ 32) (one off v s) else one off v s
  else regWrite p f off v s

/-! ### Management BAR0 (R356, R500, Table 10.10) -/

/-- Hottest temperature of die `d` in units of 0.0625 °C, in 16 bits, with its sensors' offset (R500, R578). -/
def dieTemp (s : State) (d : Nat) : Nat :=
  let ts := (List.range 16).filterMap (fun i => mfind s.card.temp (16 * d + i))
  let hot : Nat := ts.foldl max 0
  if ts.isEmpty then 0 else (((hot : Int) - 2 ^ 15 + 4 * effTherm s d) % 65536).toNat

/-- Read of the power window (R500). -/
def powerRead (s : State) (o : Nat) : Nat :=
  if o = 0 then regRead s 15 frPpa 0
  else if o = 8 then regRead s 15 frPpa 8
  else if o = 0x10 then regRead s 15 frPpa 0x40
  else if 0x100 ≤ o ∧ o < 0x160 then regRead s 15 frPpa o
  else if 0x200 ≤ o ∧ o < 0x260 then dieTemp s ((o - 0x200) / 8)
  else if 0x400 ≤ o ∧ o < 0x4A8 then mget s.card.rail ((o - 0x400) / 8)
  else 0

/-- Read of management BAR0. -/
def bar0Read (s : State) (o : Nat) : Nat :=
  if o < 0x10000 then (if s.bmcMgr then regRead s 15 frBmc o else 0)
  else if o < 0x20000 then regRead s 15 frFlt (o - 0x10000)
  else if o < 0x30000 then powerRead s (o - 0x20000)
  else if 0x40000 ≤ o ∧ o < 0x80000 then rdMem s.card.stage (o - 0x40000) 8
  else 0

/-- Write of management BAR0. -/
def bar0Write (o v : Nat) (s : State) : State :=
  if o < 0x10000 then (if s.bmcMgr then regWrite 16 frBmc o v s else s)
  else if o < 0x20000 then regWrite 16 frFlt (o - 0x10000) v s
  else if 0x40000 ≤ o ∧ o < 0x80000 then updCard (fun c => { c with stage := wrMem c.stage (o - 0x40000) 8 v }) s
  else s

end Sys2Proof.Machine
end

