-- ==== Sys2Proof/Machine/StartOps.lean ====
section
/-! DEFINITION. Starting the package: warm-reset entry, the steps of Table 13.10, the choice of the image, CONFIG and LAYOUT, and
what the pins do (R451 to R461, R530, R554, R570, R585). A start goes one step further with each tick.
Log entries with the choices and readings made here: 106, 107, 108, 114, 115, 116, 117, 119, 120, 132, 207. -/

namespace Sys2Proof.Machine

/-- Change the start under way. -/
def updStart (g : Start → Start) (s : State) : State := updCard (fun c => { c with start := c.start.map g }) s
/-- A record of the Cox. -/
def coxRec (ty cls : Nat) (s : State) : State := logErr { frame := frCox, ty := ty, cls := cls } s
/-- Has a start begun since the power came (R570)? -/
def begun (s : State) : Bool := s.card.up || s.card.stopped || s.card.held || s.card.start.isSome

/-! ### Warm-reset entry (R457) -/

/-- Store a line of main memory at its location; a line that no cell holds goes nowhere. -/
def putLine (l : Nat) (d : Line) (p : Bool) (s : State) : State :=
  match locate s (64 * l) with
  | some k => if locOk s k then wrLine k d p s else s
  | none => s

/-- Dirty data on its way between agents, and in the slices that pass it on: line, data and POISON. -/
def movingData (s : State) : List (Nat × Line × Bool) :=
  ((s.wires ++ s.links.flatMap (fun e => e.2.fly.map (·.f))).filter (fun f => f.net = .dat && (decide (f.op = oSnpData) || f.st = .m || f.st = .sd))).map (fun f => (lineOf f.addr, f.data, f.poison)) ++
  s.slices.flatMap (fun e =>
    e.2.tx.filterMap (fun t => if t.hasData && t.dirty then some (lineOf t.f.addr, t.data, t.poison) else t.vdata.map (fun d => (t.vline, d.1, d.2))) ++
    e.2.snp.filterMap (fun x => x.ret.map (fun d => (lineOf x.f.addr, d.1, d.2))))

/-- Every dirty line goes to memory: writes that wait at the controllers, data on its way, then what slices and L2s hold. -/
def flushAll (s : State) : State :=
  let s := (s.memq.filter (·.wr)).foldl (fun s q => putLine (lineOf q.pa) q.data q.poison s) s
  let s := (movingData s).foldl (fun s d => putLine d.1 d.2.1 d.2.2 s) s
  let s := s.slices.foldl (fun s e =>
    let s := e.2.wb.foldl (fun s w => if (w.st = .m ∨ w.st = .sd) ∧ w.gone = false then putLine w.line w.data w.poison s else s) s
    e.2.l3.foldl (fun s x => if x.2.v && x.2.dirty then putLine x.2.line x.2.data x.2.poison s else s) s) s
  s.harts.foldl (fun s e =>
    let s := e.2.wb.foldl (fun s w => if (w.st = .m ∨ w.st = .sd) ∧ w.gone = false then putLine w.line w.data w.poison s else s) s
    e.2.l2.foldl (fun s x => if x.2.st = .m ∨ x.2.st = .sd then putLine x.2.line x.2.data x.2.poison s else s) s) s

/-- A move of a Strata engine runs to its end (R290). -/
def finishMove (g d : Nat) (s : State) : State :=
  let s := (List.range 256).foldl (fun s _ => chunkCopy g d s) { s with memq := [] }
  moveDone g d s

/-- Warm-reset entry; none of its steps runs while a UCP is latched (R530). -/
def warmEntry (s : State) : State :=
  if ucp s then s
  else
    let s := flushAll (fatalAll s)
    (List.range 4).foldl (fun s g => ((se s g).moves.map (·.d)).foldl (fun s d => finishMove g d s) s) s

/-- A link across a warm start: both ends keep what their last training stored (R208, R460). -/
def warmLink (l : Link) : Link := { maskI := l.maskI, maskD := l.maskD, cutI := l.cutI, cutD := l.cutD, genD := l.genD, setI := l.setI, setD := l.setD, wg := (l.wg.map (fun e => (e.1, { e.2 with cecnt := 0 }))).filter (fun e => e.2 ≠ {}), warm := true, therm := l.therm }
/-- A VF across a warm start: its definition stays, its controller is reset (R383, Table 11.12). -/
def warmVf (v : Vf) : Vf :=
  { owner := v.owner, nqp := v.nqp, share := v.share, guar := v.guar, frozen := v.frozen, ns := v.ns, dlog := v.dlog, dlBase := v.dlBase, dlPages := v.dlPages }

/-- The state in which a warm start begins: what Table 17.3 keeps; caches, requests and queues are empty (R314, R383, R457, R461). -/
def warmReset (s : State) : State :=
  let t : State :=
    { pending := s.pending
      free := s.free
      tb := s.tb
      pins := s.pins
      regs := s.regs
      mem := s.mem
      poison := s.poison
      slab := s.slab
      parts := s.parts.map (fun e => (e.1, { e.2 with tearing := [], st := if isProtected s e.1 && e.2.st ≠ .none then .stopped else if e.2.st = .changing then .down else e.2.st }))
      dies := (s.dies.map (fun e => (e.1, ({ asg := e.2.asg, failed := e.2.failed } : Die)))).filter (fun e => e.2 ≠ {})
      ports := (s.ports.map (fun e => (e.1, ({ retired := e.2.retired } : Port)))).filter (fun e => e.2 ≠ {})
      vis := s.vis
      ddrSlabs := s.ddrSlabs
      ddrOff := s.ddrOff
      pairSt := (s.pairSt.map (fun e => (e.1, if e.2 = .off then .off else .alone))).filter (fun e => e.2 ≠ .off)
      strata := s.strata.filterMap (fun e => if e.2.retire.isEmpty then none else some (e.1, { retire := e.2.retire }))
      pprq := s.pprq
      links := (s.links.map (fun e => (e.1, warmLink e.2)))
      fab := { set0 := s.fab.set0, set1 := s.fab.set1, ents := s.fab.ents }
      dieIds := s.dieIds
      uart1 := s.uart1
      gpioOwn := s.gpioOwn
      mailMx := s.mailMx
      bmcMgr := s.bmcMgr
      gpioIn := s.gpioIn
      msix := s.msix
      pair := { id := s.pair.id, out := s.pair.out }
      pairP := (s.pairP.map (fun e => (e.1, ({ prot := e.2.prot } : PairP)))).filter (fun e => e.2 ≠ {})
      drives := s.drives
      bh := { slab := s.bh.slab, pools := s.bh.pools, nss := s.bh.nss, nsuid := s.bh.nsuid, catSeq := s.bh.catSeq, alloc := s.bh.alloc, lostSp := s.bh.lostSp, unready := s.bh.unready,
              vfs := s.bh.vfs.map (fun e => (e.1, warmVf e.2)) }
      catCopies := s.catCopies
      flt := { ring := s.flt.ring, log := s.flt.log, ucpLog := s.flt.ucpLog, openAt := s.flt.openAt }
      card := { s.card with start := none, up := false, test := none, rstHeld := false, rstLater := false, k3 := false, railTo := [], rcSeq := [], strokeSeq := [], dem := [], d3wait := [] } }
  let t := loseRegs (fun _ => true) [.s, .v] t
  updCard (fun c => { c with winLen := fld t frIof 0x800 0 16 }) t

/-- A warm start begins: entry, reset, and the start itself. -/
def warmStart (s : State) : State :=
  let s := warmEntry s
  let was := (List.range 12).filter (fun p => (part s p).st = .running && !(isProtected s p))
  updCard (fun c => { c with start := some { warm := true, was := was }, stopped := false }) (warmReset s)

/-! ### The end of a start -/

/-- `MGR_START` in both manager frames (Table 13.9). -/
def startRegs (x : Start) (step : Nat) (s : State) : State :=
  let v := (if x.warm then 2 else 1) + (if x.img < 4 then x.img else 3) * 2 ^ 2 + step * 2 ^ 4 + b2n x.trial * 2 ^ 9 + b2n x.fallback * 2 ^ 10 + x.failStep * 2 ^ 16
  setReg frMgr 0x120 (BitVec.ofNat 64 v) (setReg frBmc 0x120 (BitVec.ofNat 64 v) s)

/-- The start log takes the entry of a start (R444). -/
def startLog (x : Start) (step code : Nat) (s : State) : State :=
  updCard (fun c => { c with log := c.log ++ [{ kind := if x.warm then 2 else 1, slot := if x.img < 4 then x.img else 3, step := step, code := code }] }) s

/-- A fall of PKG_RST_N was held until the start ended: it begins a warm start now (R570). -/
def rstAfter (s : State) : State :=
  if s.card.rstLater = false then s
  else
    let low := !s.pins.pkgRst
    updCard (fun c => { c with rstHeld := low }) (warmStart s)

/-- The start stops: only the fault window and reads are served (R530, Table 13.10 step 6). -/
def startStop (x : Start) (s : State) : State :=
  rstAfter (startLog x x.step x.code (startRegs x x.step (updCard (fun c => { c with start := none, stopped := true }) s)))

/-- The directory after a cold start that completed (R453): a trial image becomes CURRENT; a failed one FAILED; PREVIOUS takes CURRENT's
place. -/
def dirAfter (x : Start) (roles : List Nat) : List Nat :=
  let role := roles.getD x.img 0
  if 4 ≤ x.img then roles
  else if role = roPENDING then
    ((roles.map (fun r => if r = roPREVIOUS then roEMPTY else r)).map (fun r => if r = roCURRENT then roPREVIOUS else r)).set x.img roCURRENT
  else
    let roles := roles.map (fun r => if r = roPENDING ∧ x.trial then roFAILED else r)
    if role = roPREVIOUS then roles.map (fun r => if r = roCURRENT then roPREVIOUS else if r = roPREVIOUS then roCURRENT else r) else roles

/-! ### The choice of the image (R452, R530) -/

/-- Images in the order in which a cold start tries them. -/
def imgOrder (s : State) : List Nat :=
  let two := [roCURRENT, roPREVIOUS]
  if ucp s then (slotOf s.card.cs0 roCURRENT).toList
  else ([roPENDING, roCURRENT, roPREVIOUS].filterMap (slotOf s.card.cs0)) ++
    (match s.card.cs1 with
     | some c => (two.filterMap (slotOf c)).map (4 + ·)
     | none => [])
/-- The next image to try. -/
def nextImg (s : State) (x : Start) : Option Nat := (imgOrder s).find? (fun i => !(x.tried.contains i))

/-- Everything but the Cox and the always-on domain is reset (R459). -/
def coldReset (s : State) : State :=
  let t := powerOff s
  let keep := fun (e : Nat × Word) => decide (e.1 / 65536 = frCox) || decide (e.1 / 65536 = frFlt) || decide (e.1 / 65536 = frMgr) || decide (e.1 / 65536 = frBmc)
  let regs := (s.regs.filter keep).foldl (fun m e => mins m e.1 e.2) t.regs
  { t with pins := s.pins, card := { s.card with params := [], test := none, railTo := [], rcSeq := [], strokeSeq := [], dem := [], d3wait := [] }, flt := s.flt, regs := regs,
           gpioIn := s.gpioIn, msix := s.msix }

/-- The image in use has failed at a step. -/
def imgFailed (step code : Nat) (s : State) : State :=
  updStart (fun x => { x with tried := x.tried ++ [x.img], fallback := true, failStep := if x.failStep = 0 then step else x.failStep, code := code }) s

/-- A package-wide step fails: the next image at a cold start (R459), UCP at a warm one. -/
def startFail (step code : Nat) (s : State) : State :=
  match s.card.start with
  | none => s
  | some x =>
    if x.warm then startStop { x with failStep := if x.failStep = 0 then step else x.failStep, code := code } (coxRec 0x01 3 s)
    else
      let s := imgFailed step code (coldReset s)
      updStart (fun x => { x with step := 2, rec_ := 0, run := false, res := 0, sw := false }) (updCard (fun c => { c with up := false }) s)

/-! ### CONFIG and LAYOUT (R447, R557, R585) -/

/-- A REG record is applied (Table 13.5). The slab registers of a warm start keep the run-time layout (R314). -/
def regApply (warm : Bool) (r : Rec) (s : State) : State :=
  let f := r.id / 65536
  let off := r.id % 65536
  let fs := allFlds f off
  if warm ∧ f = frMem ∧ off ≤ 0x008 then s
  else
    let cur := regRead s 15 f off
    let rw := fs.foldl (fun a x => if fldRw x then a ||| fldBits x else a) 0
    let v := (r.a &&& r.m) ||| (cur &&& rw &&& (2 ^ 64 - 1 - r.m))
    let bad := fs.any (fun x => fldRw x && decide (r.m &&& fldBits x ≠ 0) && !(legalFld (keyKind f) off x (bits v x.lo x.w)))
    let s := slabDone (regWrite 15 f off v s)
    if bad then coxRec 0x02 1 s else s

/-- CONFIG (step 8). -/
def configApply (warm : Bool) (cs : List Host.Cell) (b : Nat) (s : State) : State :=
  (recsOf cs b 1).foldl (fun s r => if r.kind = 1 then regApply warm r s else if r.kind = 3 then paramPut r.id r.a s else s) (paramReset s)

/-- The slab entries that CONFIG writes. -/
def slabsDescribed (cs : List Host.Cell) (b : Nat) : List Nat :=
  ((recsOf cs b 1).foldl (fun (a : Nat × List Nat) r =>
    if r.kind ≠ 1 then a
    else if r.id = 0x00050000 then (setBits a.1 0 14 ((r.a &&& r.m) ||| (a.1 - (a.1 &&& r.m))), a.2)
    else if r.id = 0x00050008 then (a.1, a.2 ++ [a.1]) else a) (0, [])).2.eraseDups

/-- Does an entry name a usable device slab (R268)? -/
def colUsable (s : State) (n : Nat) : Bool :=
  let e := slabEnt s n
  if slKind e = 0 then decide (slDslab e < 33)
  else if slKind e = 1 then decide (slDslab e < mget s.ddrSlabs (slGrp e)) && !(mget s.ddrOff (slGrp e))
  else true

/-- The first state of the sets (R585): FREE, or a SLAB_SET record. -/
def slabsFree (cs : List Host.Cell) (b : Nat) (s : State) : State :=
  let ns := slabsDescribed cs b
  let bases := (ns.map (fun n => n / 2 ^ slLw (slabEnt s n) * 2 ^ slLw (slabEnt s n))).eraseDups
  bases.foldl (fun s n =>
    if setBad s n = false ∧ (setEntries s n).all (fun k => ns.contains k && colUsable s k) = true then slabDone (setCmd n slFREE 0 s)
    else coxRec 0x0C 1 s) s

/-- The device slab of an entry is written with zeros (R301 step 4). -/
def zeroCol (n : Nat) (s : State) : State :=
  let e := slabEnt s n
  if slKind e = 2 then s
  else
    let a := locKey (slGrp e) (slKind e) (slDslab e * 2 ^ 30)
    { s with mem := clearMem s.mem a (a + 2 ^ 30), poison := s.poison.filter (fun x => !(decide (a / 64 ≤ x.1) && decide (x.1 < (a + 2 ^ 30) / 64))) }
/-- A set is zeroed and its entries have ZEROED set. -/
def zeroSet (b : Nat) (s : State) : State :=
  let ns := setEntries s b
  slabDone (slabPut (ns.map (fun n => (n, putBit (slabEnt s n) 24 true))) (ns.foldl (fun s n => zeroCol n s) s))

/-- First slab of the set of slab `n`. -/
def setBase (s : State) (n : Nat) : Nat := n / 2 ^ slLw (slabEnt s n) * 2 ^ slLw (slabEnt s n)

/-- Step 12: the sets that LAYOUT assigns are zeroed; the sets of the system's parameters are the system's (R362, R417). -/
def zeroAssigned (cs : List Host.Cell) (b : Nat) (s : State) : State :=
  let ns := ((recsOf cs b 2).filter (fun r => r.kind = 2 && r.id = 8)).map (fun r => bits r.m 0 14)
  let sys := [0x0032, 0x0033, 0x0034].filterMap (param s)
  let s := ((ns ++ sys).map (setBase s)).eraseDups.foldl (fun s n => if slState (slabEnt s n) = slFREE then zeroSet n s else s) s
  sys.foldl (fun s n => if slState (slabEnt s n) = slFREE then slabDone (setCmd (setBase s n) slOWNED 15 s) else s) s

/-- Step 11 of a cold start (R265, R266, R297, R585). -/
def memTrain (cs : List Host.Cell) (b : Nat) (s : State) : State :=
  let hw := s.card.hw
  let s := { s with pprq := [] }
  let s := (List.range 4).foldl (fun s m =>
    let c := hw.ddrBytes.getD m 0
    let s := { s with ddrSlabs := mset s.ddrSlabs m (if c < 0x200000 then 0 else (c - 0x200000) / 2 ^ 30) }
    if hw.ddrDiffer.getD m false || hw.failedUnits.contains (16 + m) then coxErr 1 15 false { s with ddrOff := mset s.ddrOff m true } else s) s
  let s := (List.range 4).foldl (fun s m =>
    let used := fun (tier : Nat) => ((se s m).retire.filter (fun e => decide (e.1 / 2 ^ 30 = tier))).length
    setFld (frSe m) 0x010 10 10 (512 - used 0) (setFld (frSe m) 0x010 20 10 (512 - used 1) s)) s
  slabsFree cs b s

/-- Copy a PFW section to its load address (Table 13.4). -/
def pfwCopy (cs : List Host.Cell) (b : Nat) (x : Sect) (s : State) : State :=
  let a := fle cs (b + x.off) 8
  ((flBytes cs (b + x.off + 8) (x.size - 8)).zipIdx).foldl (fun s e =>
    match locate s (a + e.2) with
    | some k => if locOk s k then { s with mem := wrByte s.mem k (BitVec.ofNat 8 e.1) } else s
    | none => s) s

/-- A CMD record begins as a command of the Cox's own; the drive of a BH_DRIVE_ATTACH is the one that the start found. -/
def cmdBegin (r : Rec) (s : State) : State :=
  let c : MgrCmd := { src := 17, a0 := BitVec.ofNat 64 r.a, a1 := BitVec.ofNat 64 r.m }
  let d := if r.id = 0x20 then driveIdOf (bits r.m 0 4 * 65536 + bits r.m 8 16) s else ({}, s)
  let s := updStart (fun x => { x with run := true, res := 0 }) d.2
  { s with cox := { s.cox with queue := s.cox.queue ++ [{ op := r.id, c := c, id := d.1 }] } }

/-- The records of LAYOUT that a step applies: attaching of drives in step 14, all others in step 15. -/
def layRecs (cs : List Host.Cell) (b step : Nat) : List Rec :=
  (recsOf cs b 2).filter (fun r => decide (r.kind = 2 ∧ r.id = 0x20) == decide (step = 14))

/-- One record further (R458): `none` when no record is left. -/
def layStep (cs : List Host.Cell) (b step : Nat) (x : Start) (s : State) : Option State :=
  match (layRecs cs b step)[x.rec_]? with
  | none => none
  | some r =>
    let next := fun (s : State) => updStart (fun x => { x with rec_ := x.rec_ + 1, run := false, res := 0 }) s
    if r.kind = 1 then some (next (regApply false r s))
    else if r.kind ≠ 2 then some (next s)
    else if !x.run then some (cmdBegin r s)
    else if x.res = 0 then some s
    else if x.res = 1 then some (next s)
    else
      let s := coxRec 0x02 1 s
      if r.crit then some (startFail step (x.res - 1) s) else some (next s)

/-! ### The steps (Table 13.10) -/

/-- Step 6: every latched record goes to the ring and the log area; a UCP's banks too. Nothing is torn down. -/
def harvest (s : State) : State :=
  bankFrames.foldl (fun s f => if fbit s f 0x500 0 then clrBit f 0x500 0 (ringPut (bankRec s f) s) else s) s

/-- Step 16: the start completes. -/
def startDone (x : Start) (s : State) : State :=
  let s := { s with lockOpen := false }
  let s := if x.warm then s
    else if 4 ≤ x.img then updCard (fun c => { c with inForce := x.img }) s
    else setRoles (dirAfter x (rolesOf s.card.cs0)) (writeOwner s.card.cs0) (updCard (fun c => { c with inForce := x.img }) s)
  let s := startLog x 16 (if x.fallback then x.code else 0) (startRegs x 16 s)
  let s := updCard (fun c => { c with start := none, up := true, winLen := fld s frIof 0x800 0 16 }) s
  let s := { s with pair := { s.pair with helloOn := decide (s.pair.id ≠ 0) } }
  let go := (List.range 12).filter (fun p => (part s p).st = .running && (!x.warm || x.was.contains p))
  let s := go.foldl (fun s p => match bootHart s p with
    | some h => startHart p h s
    | none => s) s
  rstAfter s

/-- Once the links are up, every die and root port that no RUNNING partition owns is fenced: a spare die, a unit of a partition that
does not run, an unassigned port (R322, Table 9.5). -/
def idleFence (s : State) : State :=
  let runs := fun (p : Nat) => decide ((part s p).st = .running)
  let s := (List.range 12).foldl (fun s d => if runs (diePart s d) then s else hardFence d s) s
  (List.range 12).foldl (fun s r => if runs (rpPart s r) || fbit s (frRp r) 0 3 || bhPort s r then s else hardFence (16 + r) s) s

/-- One step of the start under way. -/
def startStep (x : Start) (s : State) : State :=
  let im := imgAt0 s x.img
  let next := fun (s : State) => updStart (fun x => { x with step := x.step + 1 }) s
  if ucp s ∧ ((x.warm = true ∧ 6 ≤ x.step) ∨ (x.warm = false ∧ 5 ≤ x.step)) then startStop x s
  else match x.step with
  | 0 => next { s with lockOpen := true }
  | 3 =>
    if x.warm then
      let i := s.card.inForce
      match imgVerify s i with
      | none => next (updStart (fun x => { x with img := i }) s)
      | some e => startFail 4 e.1 (updStart (fun x => { x with img := i }) s)
    else match nextImg s x with
      | none => startLog x 4 x.code (startRegs x 3 (updCard (fun c => { c with start := none, held := true }) (coxRec 0x01 3 s)))
      | some i =>
        let s := updStart (fun y => { y with img := i, trial := y.trial || (decide (i < 4) && decide (slotRole s.card.cs0 i = roPENDING)) }) s
        match imgVerify s i with
        | none => next s
        | some e => imgFailed 4 e.1 s
  | 4 =>
    let s := if x.warm then s else clrBit frPpa 0x048 0 { s with tb := 0 }
    let s := if !x.warm && ucp s then (s.flt.log.drop (s.flt.log.length - s.flt.ucpLog)).foldl (fun s r =>
        let l := s.flt.log
        updFlt (fun y => { y with log := l, ucpLog := s.flt.ucpLog }) (ringPut r s)) s else s
    next s
  | 5 => next (if x.warm then harvest s else s)
  | 7 => next (mgtMsix 3 (configApply x.warm im.1 im.2 s))
  | 8 => next ((List.range 12).foldl (fun s d => setRail d 6 s) s)
  | 9 =>
    if !x.run then
      let s := (List.range 12).foldl (fun s d =>
        let s := rstRelease d s
        if s.card.hw.failedUnits.contains d then trainFail d s else s) s
      updStart (fun x => { x with run := true }) s
    else if (List.range 12).all (fun d => linkSt s d false = lL0 || linkSt s d false = lHOLD) then
      next (idleFence (updStart (fun x => { x with run := false }) s))
    else s
  | 10 => next (if x.warm then s else memTrain im.1 im.2 s)
  | 11 => next (if x.warm then s else zeroAssigned im.1 im.2 s)
  | 13 =>
    let ready := fun (s : State) => next (updStart (fun x => { x with rec_ := 0 }) (updBh (fun b => { b with ready := true }) s))
    if x.warm then ready (((List.range 12).filter (bhPort s)).foldl (fun s r => updRp r (fun x => { x with iommu := mset x.iommu 0x10 1 }) s) s)
    else match layStep im.1 im.2 14 x s with
      | some t => t
      | none => ready (catAdopt [] s)
  | 14 =>
    match (if x.warm then none else layStep im.1 im.2 15 x s) with
    | some t => t
    | none =>
      if !x.sw then
        let s := ((sects im.1 im.2).filter (fun t => t.ty = 5)).foldl (fun s t => pfwCopy im.1 im.2 t s) s
        if routesExist (routeSet s (nowVis s)) then updStart (fun x => { x with sw := true }) (switchRoutes s) else startFail 15 0 s
      else if drained s then next s else s
  | 15 => startDone x s
  | _ => next s

/-- The start under way goes on, unless PKG_RST_N still holds it. -/
def startGo (s : State) : State :=
  match s.card.start with
  | some x => if s.card.rstHeld then s else startStep x s
  | none => s

/-- A package-wide step that is under way exceeds its bound or fails (R458, R459). -/
def stepFail (step : Nat) (s : State) : State :=
  match s.card.start with
  | none => s
  | some x =>
    if step = x.step + 1 ∧ ((1 ≤ step ∧ step ≤ 9) ∨ step = 15 ∨ step = 16) then
      let q := drawNat s
      startFail step q.1 q.2
    else s

/-! ### Pins (R569 to R571) -/

/-- A cold start begins. -/
def coldStart (hw : Hw) (s : State) : State := updCard (fun c => { c with start := some {}, hw := { hw with cs0 := [], cs1 := none } }) s

/-- PWROK rises; with PKG_RST_N high a cold start begins. The flash devices are there from the first rise on. -/
def pwrokRise (hw : Hw) (s : State) : State :=
  if s.pins.pwrok then s
  else
    let s := if s.card.known then s else updCard (fun c => { c with known := true, cs0 := flashOf hw.cs0, cs1 := hw.cs1.map flashOf }) s
    let s := updCard (fun c => { c with rail := (railBoot.zipIdx).foldl (fun m e => mset m e.2 e.1) [] }) { s with pins := { s.pins with pwrok := true, aon := true, everUp := true } }
    if s.pins.pkgRst then coldStart hw s else s

/-- PKG_RST_N rises: the first rise begins a cold start, a later one releases a warm start that is held. -/
def rstRise (hw : Hw) (s : State) : State :=
  let s := { s with pins := { s.pins with pkgRst := true } }
  if s.pins.pwrok = false then s
  else if s.card.rstHeld then updCard (fun c => { c with rstHeld := false }) s
  else if begun s then s
  else coldStart hw s

/-- PKG_RST_N falls for `ns` nanoseconds: at least 1 µs begin a warm start, below 100 ns nothing, between them the device chooses. A
fall during a start is held until it has ended. -/
def rstFall (ns : Nat) (s : State) : State :=
  let s := { s with pins := { s.pins with pkgRst := false } }
  if s.pins.pwrok = false ∨ begun s = false ∨ s.card.held = true ∨ ns < 100 then s
  else
    let c := if ns < 1000 then drawBool s else (true, s)
    if c.1 = false then c.2
    else if c.2.card.start.isSome then updCard (fun x => { x with rstLater := true }) c.2
    else updCard (fun x => { x with rstHeld := true }) (warmStart c.2)

/-- PWROK falls. -/
def pwrokFall (s : State) : State := if s.pins.pwrok then powerOff s else s

end Sys2Proof.Machine
end

