-- ==== Sys2Proof/Machine/CoxLife.lean ====
section
/-! DEFINITION. The Cox's lifecycle commands: partitions, dies, root ports and slab sets (Tables 9.4, 9.7 to 9.9 and 8.13). A step function
answers `none` while its command waits.
Log entries with the choices and readings made here: 59, 95, 96, 99, 100. -/

namespace Sys2Proof.Machine

/-! ### Shared -/

/-- Partition, die or port, and slab of a command (Table 9.4). -/
def argP (pr : Proc) : Nat := bits (arg0 pr) 0 4
/-- Die or root port. -/
def argD (pr : Proc) : Nat := bits (arg1 pr) 0 4
/-- Slab. -/
def argS (pr : Proc) : Nat := bits (arg1 pr) 0 14

/-- Is a die's link up, or asleep and to be woken? -/
def dieReach (s : State) (d : Nat) : Bool := let st := linkSt s d false; decide (st ≠ lOFF) && decide (st ≠ lHOLD)
/-- The Cox orders a range invalidation on dies (R112). -/
def rangeSend (ds : List Nat) (lo hi : Nat) (s : State) : State := 
  (ds.filter (dieReach s)).foldl (fun s d => coxCommand (rangeFlit d lo hi) s) s
/-- Does the Cox wait for a range invalidation of a die that it can reach? -/
def rangeOpen (s : State) (d : Nat) : Bool := dieReach s d && rangeAt s d
/-- Every range invalidation ordered on some dies is complete. -/
def rangesDone (s : State) (ds : List Nat) : Bool := ds.all (fun d => !(rangeOpen s d))

/-- Is a die a spare one (R322)? -/
def dieSpare (s : State) (d : Nat) : Bool :=
  decide (d < 12) && (die s d).asg.isNone && decide (linkSt s d false = lL0) && !(die s d).failed && !(port s d).retired
/-- Is a partition the shadow of a pair (R413)? -/
def isShadow (s : State) (p : Nat) : Bool := pairSt s p = .shadow || pairSt s p = .syncShadow

/-- Put a partition into a state. -/
def setPart (p : Nat) (st : PState) (s : State) : State := updPart p (fun x => { x with st := st }) s
/-- The fences of a partition's dies and root ports are lifted. -/
def partUnfence (p : Nat) (s : State) : State :=
  let s := (diesOf s p).foldl (fun s d => fenceLift d s) s
  (rpsOf s p).foldl (fun s r => fenceLift (16 + r) s) s
/-- A partition runs, and its boot hart starts; during a start it starts at step 16. -/
def partRun (p : Nat) (s : State) : State :=
  let s := setPart p .running s
  match (if s.card.start.isSome then none else bootHart s p) with
  | some h => startHart p h s
  | none => s
/-- A layout's routes are written and switched, or the command ends FAILED with nothing changed (R580). `t` is the state with the
layout changed, `s` the state before the command. -/
def withRoutes (s t : State) (next : State → State) : State :=
  if routesExist (routeSet t (nowVis t)) then next (switchRoutes t) else mgrEnd rFAILED 2 s

/-! ### Partitions, dies and ports -/

/-- PART_CREATE. -/
def partCreate (pr : Proc) (s : State) : Option State :=
  let p := argP pr
  let d := argD pr
  if pr.step = 1 then (if drained s then some (mgrEnd rDONE 0 s) else none)
  else if 12 ≤ p ∨ 12 ≤ d then some (mgrEnd rINVALID 0 s)
  else if (part s p).st ≠ .none ∨ dieSpare s d = false then some (mgrEnd rSTATE 0 s)
  else if !(drained s) then none
  else
    let t := updPart p (fun x => { x with st := .stopped, dies := 2 ^ d }) (updDie d (fun x => { x with asg := some p }) s)
    some (withRoutes s t (mgrStep { pr with step := 1, p := p, d := d }))

/-- PART_START. -/
def partStart (pr : Proc) (s : State) : State :=
  let p := argP pr
  if 12 ≤ p then mgrEnd rINVALID 0 s
  else if (part s p).st ≠ .stopped ∨ (part s p).dies = 0 ∨ isShadow s p = true then mgrEnd rSTATE 0 s
  else mgrEnd rDONE 0 (partRun p (partUnfence p s))

/-- Step 2 of Table 9.9: fences, hot resets, function-level resets, and what holds interrupts and messages is cleared. -/
def partClear (p : Nat) (s : State) : State :=
  let rs := rpsOf s p
  let s := loseRegs (fun f => rs.any (fun r => decide (f = frRp r))) [.s, .v] s
  let s := (diesOf s p).foldl (fun s d => hardFence d s) s
  let s := rs.foldl (fun s r => rpReset r (hardFence (16 + r) s)) s
  let s := bhPartReset p s
  let s := (hartsOf s p).foldl (fun s h => imClear h s) { s with aplic := mset s.aplic p {} }
  mbxClear p s

/-- The frames of a partition's control registers (R556). -/
def partFrames (p : Nat) : List Nat := (List.range 7).map (frPart p + ·)

/-- PART_STOP and PART_RESET (Table 9.9): `n` notes that the partition was DOWN. -/
def partReset (pr : Proc) (s : State) : Option State :=
  let p := argP pr
  let stop := decide (pr.op = 0x03)
  let next := fun (k : Nat) (s : State) => mgrStep { pr with step := k } s
  match pr.step with
  | 0 =>
    if 12 ≤ p then some (mgrEnd rINVALID 0 s)
    else
      let st := (part s p).st
      if st ≠ .running ∧ st ≠ .down then some (mgrEnd rSTATE 0 s)
      else
        let down := decide (st = .down)
        let s := setPart p .changing s
        let s := if down then s else rangeSend (diesOf s p) 0 (2 ^ 44 - 1) ((hartsOf s p).foldl (fun s h => parkHart h s) s)
        some (mgrStep { pr with step := 1, p := p, n := b2n down } s)
  | 1 =>
    if pr.n = 1 ∨ ((pr.bad = true ∨ (hartsOf s p).all (fun h => (hart s h).st = .parked || !(dieReach s (h / 48))) = true) ∧ rangesDone s (diesOf s p) = true) then
      let s := next 3 (partClear p s)
      some ((diesOf s p).foldl (fun s d => rstRelease d (rstAssert d s)) s)
    else none
  | 3 =>
    if (diesOf s p).all (fun d => linkSt s d false = lL0 || linkSt s d false = lHOLD) then
      let lost := (diesOf s p).filter (fun d => linkSt s d false = lHOLD)
      some (next 4 (lost.foldl (fun s d => updPart p (fun x => { x with dies := putBit x.dies d false }) (updDie d (fun x => { x with asg := none, failed := true }) s)) s))
    else none
  | 4 =>
    if s.homes.any (fun e => bit e.2.off p) ∨ drained s = false then none
    else
      let was := setPart p (if pr.n = 1 then .down else .running) s
      let s := loseRegs (fun f => (partFrames p).contains f) [.s, .v] s
      let s := updFlt (fun x => { x with queue := mset x.queue p [] }) { s with strCmd := mset s.strCmd p none, uart := if s.uart1 = p then {} else s.uart }
      some (withRoutes was s (fun s => next 5 (if stop then s else partUnfence p s)))
  | _ =>
    if !(drained s) then none
    else if stop ∨ (part s p).dies = 0 then some (mgrEnd rDONE 0 (setPart p .stopped s))
    else some (mgrEnd rDONE 0 (partRun p s))

/-- DIE_EVACUATE is undone (R321). -/
def evacUndo (p d det : Nat) (s : State) : State :=
  mgrEnd rFAILED det (setPart p .running (if (port s d).soft || (port s d).fenced then fenceLift d s else s))

/-- DIE_EVACUATE (Table 9.7). -/
def dieEvacuate (pr : Proc) (s : State) : Option State :=
  let p := argP pr
  let d := argD pr
  let next := fun (k : Nat) (s : State) => mgrStep { pr with step := k, p := p, d := d } s
  match pr.step with
  | 0 =>
    if 12 ≤ p ∨ 12 ≤ d then some (mgrEnd rINVALID 0 s)
    else if (part s p).st ≠ .running ∨ (diesOf s p).length < 2 ∨ ownsDie s p d = false ∨ isShadow s p = true ∨
        (List.range 48).all (fun c => (hart s (48 * d + c)).st = .parked) = false then some (mgrEnd rSTATE 0 s)
    else some (next 1 (rangeSend [d] 0 (2 ^ 44 - 1) (setPart p .changing s)))
  | 1 =>
    if pr.bad then some (evacUndo p d 0 s)
    else if rangesDone s [d] then some (next 2 (softFence d s)) else none
  | 2 =>
    let q := port s d
    if pr.bad ∨ (q.fenced = false ∧ q.soft = false) then some (evacUndo p d 0 s)
    else if !q.fenced ∨ drained s = false then none
    else
      let t := updPart p (fun x => { x with dies := putBit x.dies d false }) s
      if routesExist (routeSet t (nowVis t)) then
        some (next 3 ((List.range 48).foldl (fun s c => imClear (48 * d + c) s) (switchRoutes t)))
      else some (evacUndo p d 2 s)
  | 3 =>
    if drained s then
      let s := next 4 (updDie d (fun x => { x with asg := none }) (hardFence d s))
      some (rstRelease d (rstAssert d s))
    else none
  | _ =>
    let s := setPart p .running s
    if linkSt s d false = lL0 then some (mgrEnd rDONE 0 s)
    else if pr.bad ∨ linkSt s d false = lHOLD then some (mgrEnd rDONE 1 (updDie d (fun x => { x with failed := true }) s))
    else none

/-- DIE_ADD (Table 9.8, R323): `n` notes that the partition was RUNNING. -/
def dieAdd (pr : Proc) (s : State) : Option State :=
  let p := argP pr
  let d := argD pr
  let next := fun (k n : Nat) (s : State) => mgrStep { pr with step := k, p := p, d := d, n := n, bad := false } s
  let own := fun (b : Bool) (s : State) => updPart p (fun x => { x with dies := putBit x.dies d b }) s
  let back := fun (s : State) => setPart p (if pr.n = 1 then .running else .stopped) s
  match pr.step with
  | 0 =>
    let run := decide ((part s p).st = .running)
    if 12 ≤ p ∨ 12 ≤ d then some (mgrEnd rINVALID 0 s)
    else if (!run ∧ (part s p).st ≠ .stopped) ∨ dieSpare s d = false ∨ isShadow s p = true then some (mgrEnd rSTATE 0 s)
    else if !(drained s) then none
    else
      let t := updDie d (fun x => { x with asg := some p }) (own true s)
      some (withRoutes s t (fun t => next 1 (b2n run) (own false (if run then setPart p .changing t else t))))
  | 1 =>
    if !(drained s) then none
    else if pr.bad then
      some (next 2 pr.n (switchRoutes (updDie d (fun x => { x with asg := none }) (hardFence d s))))
    else some (mgrEnd rDONE 0 (back (own true (if pr.n = 1 then fenceLift d s else s))))
  | _ => if drained s then some (mgrEnd rFAILED 0 (back s)) else none

/-- RP_ASSIGN. -/
def rpAssign (pr : Proc) (s : State) : Option State :=
  let p := argP pr
  let r := argD pr
  if pr.step = 1 then
    if drained s then some (mgrEnd rDONE 0 (if (part s p).st = .running then fenceLift (16 + r) s else s)) else none
  else if 12 ≤ p ∨ 12 ≤ r then some (mgrEnd rINVALID 0 s)
  else if (part s p).st = .none ∨ rpPart s r ≠ 15 ∨ fbit s (frRp r) 0 3 = true ∨ bhPort s r = true then some (mgrEnd rSTATE 0 s)
  else if !(drained s) then none
  else some (withRoutes s (updPart p (fun x => { x with rps := putBit x.rps r true }) s) (mgrStep { pr with step := 1, p := p, d := r }))

/-- RP_RELEASE. -/
def rpRelease (pr : Proc) (s : State) : Option State :=
  let r := argD pr
  let next := fun (k p : Nat) (s : State) => mgrStep { pr with step := k, p := p, d := r } s
  match pr.step with
  | 0 =>
    if 12 ≤ r then some (mgrEnd rINVALID 0 s)
    else if rpPart s r = 15 then some (mgrEnd rSTATE 0 s)
    else some (next 1 (rpPart s r) (softFence (16 + r) s))
  | 1 =>
    let q := port s (16 + r)
    if q.fenced = false ∧ q.soft = false then some (mgrEnd rFAILED 0 s)
    else if !q.fenced ∨ drained s = false then none
    else some (withRoutes (fenceLift (16 + r) s) (updPart pr.p (fun x => { x with rps := putBit x.rps r false }) s) (next 2 pr.p))
  | _ => if drained s then some (mgrEnd rDONE 0 (rpReset r (hardFence (16 + r) s))) else none

/-- PART_QUERY. -/
def partQuery (pr : Proc) (s : State) : State :=
  let p := argP pr
  let x := part s p
  if 12 ≤ p then mgrEnd rINVALID 0 s else mgrEnd rDONE (pStateCode x.st + x.dies * 2 ^ 4 + x.rps * 2 ^ 16) s

/-! ### Slab sets (Table 8.13, R301, R302) -/

/-- Bytes of the set at `b`: first and last address. -/
def setRange (s : State) (b : Nat) : Nat × Nat := (b * 2 ^ 30, (b + 2 ^ slLw (slabEnt s b)) * 2 ^ 30 - 1)
/-- Does the address of a line lie in the set? -/
def inSet (s : State) (b pa : Nat) : Bool := let r := setRange s b; decide (r.1 ≤ pa) && decide (pa ≤ r.2)
/-- Lines of a set that an I/O-die agent holds, by home and key of the line table. -/
def ioHeld (s : State) (b : Nat) : List (Nat × Nat) :=
  s.homes.flatMap (fun h => (h.2.lin.filter (fun e => e.2.v && bit e.2.hold 12 && inSet s b (64 * e.2.line))).map (fun e => (h.1, e.1)))
/-- Homes back-invalidate lines that I/O-die agents hold in the range, as victim trackers free up. -/
def ioInv (b : Nat) (s : State) : State :=
  (ioHeld s b).foldl (fun s e => if linOpen (home s e.1) (mget (home s e.1).lin e.2).line then s else startVictim e.1 true e.2 s) s

/-- Does an open request at a home, from an agent of the I/O die, still take a line of the set? The agent holds the line when it
closes. -/
def ioOpen (s : State) (b : Nat) : Bool :=
  s.homes.any (fun h => h.2.trk.any (fun t => decide (agDie t.f.src = 12) && inSet s b t.f.addr &&
    (decide (t.f.op = oRdShared) || decide (t.f.op = oRdOwn) || decide (t.f.op = oUpgrade) || decide (t.f.op = oClaimOwn))))

/-- Granules of a device slab that a pair names. -/
def pairedIn (s : State) (g tier ds : Nat) : List Nat :=
  let a := entAddr g tier (ds * 16384)
  (((s.mem.filter (fun c => decide (a ≤ c.1) && decide (c.1 < a + 65536))).map (fun c => ds * 16384 + (c.1 - a) / 4)).eraseDups).filter (fun k => geSwp tier (granEnt s g tier k))
/-- One pair is restored at once. -/
def restorePair (g tier k : Nat) (s : State) : State :=
  let e := granEnt s g tier k
  if geSwp tier e then
    let q := gePair tier e
    let m : Move := { kind := .restore, d := if tier = 1 then k else q, f := if tier = 1 then q else k }
    let s := (List.range 256).foldl (fun s i => copyChunk g { m with ptr := i } s) s
    addWrap (frSe g) 0x120 1 (moveEntries g m s)
  else s
/-- Step 3 for a column. -/
def restoreCol (n : Nat) (s : State) : State :=
  let e := slabEnt s n
  if slTiered e then (pairedIn s (slGrp e) (slKind e) (slDslab e)).foldl (fun s k => restorePair (slGrp e) (slKind e) k s) s else s
/-- Does a move of the column's engine name a granule of its device slab? -/
def colMoving (s : State) (n : Nat) : Bool :=
  let e := slabEnt s n
  slTiered e && (se s (slGrp e)).moves.any (fun m => (moveDests m).any (fun x => decide (nomTier x.1 = slKind e) && decide (nomGran x.1 / 16384 = slDslab e)))
/-- Step 4 for a column: CNT and PIN are cleared. -/
def clearEnts (n : Nat) (s : State) : State :=
  let e := slabEnt s n
  if slTiered e then
    let a := entAddr (slGrp e) (slKind e) (slDslab e * 16384)
    { s with mem := clearMem s.mem a (a + 65536) }
  else s

/-- When a CXL set is assigned, the Cox programs the port decoder that its slab names: it covers every assigned set of that decoder
(R342). -/
def hdmProgram (b : Nat) (s : State) : State :=
  let q := slDslab (slabEnt s b)
  let r := q % 16
  let n := q / 16
  if slKind (slabEnt s b) ≠ 2 ∨ 12 ≤ r ∨ 8 ≤ n then s
  else
    let ns := (s.slab.filter (fun e => decide (slState e.2 = slOWNED) && decide (slKind e.2 = 2) && decide (slDslab e.2 = q))).map (·.1)
    let lo := ns.foldl min b
    let hi := ns.foldl max b
    setFld (frRp r) (0x208 + 0x10 * n) 0 14 (hi + 1 - lo) (setFld (frRp r) (0x200 + 0x10 * n) 0 14 lo s)

/-- Step 5 of Table 8.13. -/
def slabFinal (b st owner : Nat) (s : State) : State :=
  let s := setCmd b st owner s
  if st = slOWNED then hdmProgram b s else s

/-- One step of Table 8.13 for the set at `b`, of old owner `old`, with its target: the next step, 6 when the set has reached its
target. -/
def slabStep (k b old st owner : Nat) (s : State) : Option (Nat × State) :=
  let ns := setEntries s b
  let own := slOwner (slabEnt s b)
  match k with
  | 0 => if slabBusy s then none else some (1, setCmd b slMOVING own s)
  | 1 =>
    if slabBusy s then none
    else if ns.all (fun n => slZeroed (slabEnt s n)) then some (5, slabFinal b st owner s)
    else some (2, ioInv b (rangeSend (if old < 12 ∧ (part s old).st ≠ .down then diesOf s old else []) (setRange s b).1 (setRange s b).2 s))
  | 2 =>
    let s := ioInv b s
    let down := decide ((part s old).st = .down)
    if (if down then (part s old).tearing.isEmpty else rangesDone s (if old < 12 then diesOf s old else []) && (ioHeld s b).isEmpty && !(ioOpen s b)) then some (3, s) else none
  | 3 => if ns.any (colMoving s) ∨ s.memq.any (fun q => inSet s b q.pa) = true then none else some (4, ns.foldl (fun s n => restoreCol n s) s)
  | 4 => if slabBusy s then none else some (5, slabFinal b st owner (zeroSet b (ns.foldl (fun s n => clearEnts n s) s)))
  | _ => if slabBusy s then none else some (6, s)

/-- A slab command goes a step further: `n` is the set's base, `d` the old owner. -/
def slabCmd (pr : Proc) (st owner : Nat) (s : State) : Option State :=
  (slabStep (pr.step - 1) pr.n pr.d st owner s).map (fun r => if r.1 = 6 then mgrEnd rDONE 0 r.2 else mgrStep { pr with step := r.1 + 1 } r.2)

/-- SLAB_ASSIGN. -/
def slabAssign (pr : Proc) (s : State) : Option State :=
  let p := argP pr
  if pr.step ≠ 0 then slabCmd pr slOWNED p s
  else if 12 ≤ p then some (mgrEnd rINVALID 0 s)
  else
    let b := setBase s (argS pr)
    let e := slabEnt s b
    if (part s p).st = .none ∨ setBad s b = true ∨ slState e ≠ slFREE ∨ isShadow s p = true ∨ (slKind e = 2 ∧ ownsRp s p (slDslab e % 16) = false) then some (mgrEnd rSTATE 0 s)
    else some (mgrStep { pr with step := 1, p := p, n := b, d := 15 } s)

/-- SLAB_RELEASE: of a MOVING set, from step 3. -/
def slabRelease (pr : Proc) (s : State) : Option State :=
  if pr.step ≠ 0 then slabCmd pr slFREE 0 s
  else
    let b := setBase s (argS pr)
    let e := slabEnt s b
    if setBad s b then some (mgrEnd rSTATE 0 s)
    else if slState e = slOWNED ∧ isShadow s (slOwner e) = false then some (mgrStep { pr with step := 1, p := 15, n := b, d := slOwner e } s)
    else if slState e = slMOVING then some (mgrStep { pr with step := 4, p := 15, n := b, d := 15 } s)
    else some (mgrEnd rSTATE 0 s)

/-- Sets that a partition owns, by base. -/
def setsOf (s : State) (p : Nat) : List Nat :=
  ((s.slab.filter (fun e => decide (slState e.2 = slOWNED) && decide (slOwner e.2 = p))).map (fun e => setBase s e.1)).eraseDups

/-- PART_DELETE: its sets are released one after another, then its other units. -/
def partDelete (pr : Proc) (s : State) : Option State :=
  let p := argP pr
  match pr.step with
  | 0 =>
    if 12 ≤ p then some (mgrEnd rINVALID 0 s)
    else if (part s p).st ≠ .stopped then some (mgrEnd rSTATE 0 s)
    else some (mgrStep { pr with step := 1, p := p, d := p, l := setsOf s p } s)
  | 20 => if drained s then some (mgrEnd rDONE 0 s) else none
  | k => match pr.l with
    | b :: t => (slabStep (k - 1) b p slFREE 0 s).map (fun r => mgrStep { pr with step := if r.1 = 6 then 1 else r.1 + 1, n := b, l := if r.1 = 6 then t else pr.l } r.2)
    | [] =>
      if !(drained s) then none
      else
        let vs := vfsOf s p
        let t := vs.foldl (fun s v => updBh (fun b => { b with vfs := mdel b.vfs v }) (flrVf v s)) s
        let t := (diesOf s p).foldl (fun s d => updDie d (fun x => { x with asg := none }) s) t
        let t := updPart p (fun x => { manager := x.manager }) t
        some (withRoutes s t (mgrStep { pr with step := 20 }))

/-- A step of slab reassignment exceeds its bound (R302). -/
def slabStepTimeout (s : State) : State :=
  match s.cox.cur with
  | none => s
  | some pr =>
    let del := decide (pr.op = 0x05)
    if pr.step = 0 ∨ !(pr.op = 0x08 ∨ pr.op = 0x09 ∨ (del ∧ pr.step < 20 ∧ pr.l.isEmpty = false)) then s
    else
      let b := if del then pr.l.headD 0 else pr.n
      let k := pr.step - 1
      if k = 1 ∨ k = 5 then (if slabBusy s then coxErr 3 15 false s else s)
      else if k = 3 ∨ k = 4 then
        let e := slabEnt s b
        let s := if slKind e < 2 then logErr { frame := frSe (slGrp e), ty := 0x0B, cls := 1 } s else s
        mgrEnd rFAILED k s
      else s

end Sys2Proof.Machine
end

