-- ==== Sys2Proof/Machine/CoxCmd.lean ====
section
/-! DEFINITION. The Cox's other commands and procedures: the Race Card and its slots (Table 13.13), firmware activation (Table 13.12),
self-tests (Table 13.11), error injection (R528), and page retirement (Table 8.11).
Log entries with the choices and readings made here: 63, 101, 102, 103, 104, 105, 106, 107, 109. -/

namespace Sys2Proof.Machine

/-! ### Copies of 256 KiB (R467) -/

/-- Bytes that one RC_WRITE, RC_READ or LOG_READ copies. -/
def copySize : Nat := 0x40000
/-- Replace the bytes from `a` up to `a + copySize` by the cells of `w`, which count from 0. -/
def splice (cs : List Host.Cell) (a : Nat) (w : List Host.Cell) : List Host.Cell :=
  cs.filter (fun e => decide (e.1 < a)) ++ (w.filter (fun e => decide (e.1 < copySize))).map (fun e => (a + e.1, e.2)) ++ cs.filter (fun e => decide (a + copySize ≤ e.1))
/-- The cells from `a` on, counted from 0. -/
def cut (cs : List Host.Cell) (a : Nat) : List Host.Cell :=
  (cs.filter (fun e => decide (a ≤ e.1) && decide (e.1 < a + copySize))).map (fun e => (e.1 - a, e.2))
/-- The cells of a number's bytes. -/
def cellsOf (n v : Nat) : List Host.Cell := ((leBytes n v).zipIdx.filter (fun e => decide (e.1 ≠ memDefault))).map (fun e => (e.2, e.1))
/-- The number of cells' bytes. -/
def cellsNat (w : List Host.Cell) : Nat := w.foldl (fun v e => v + e.2.toNat * 256 ^ e.1) 0

/-- Is a source or destination argument one that R467 allows: the staging window for the BMC, or an address in slabs of the manager
partition? -/
def copyArgOk (s : State) (src a : Nat) : Bool :=
  if a = 0 then decide (src = 16)
  else match managerPart s with
    | some p => decide (a % 4096 = 0) && decide (slabOwner s a = some p) && decide (slabOwner s (a + copySize - 1) = some p)
    | none => false

/-- The Cox's own engine toward memory (R467). -/
def coxEng : Nat := 20
/-- The Cox reads 256 KiB of the manager partition's memory, with its PART. -/
def coxFetch (a : Nat) (s : State) : State :=
  dmaAdd ((managerPart s).getD 15) coxEng 0 0 false ((tlpParts a copySize).map (fun e => { kind := RpKind.read, pa := e.1, size := e.2.1, at_ := e.2.2 })) s
/-- The Cox writes them. -/
def coxStore (a : Nat) (w : List Host.Cell) (s : State) : State :=
  let v := cellsNat w
  dmaAdd ((managerPart s).getD 15) coxEng 0 0 true ((tlpParts a copySize).map (fun e =>
    { kind := RpKind.wfull, pa := e.1, size := 64, at_ := e.2.2, mask := 2 ^ 64 - 1, data := BitVec.ofNat 512 (v / 256 ^ e.2.2) })) s
/-- Is the Cox's engine at rest? -/
def coxIdle (s : State) : Bool := (rp s coxEng).tlps.isEmpty
/-- What the engine read, when it read all of it without poison; the record of it goes. -/
def coxGot (s : State) : Option Nat × State :=
  let v := (rp s coxEng).dev.findSome? (fun m => match m with
    | .cpl _ _ true false v => some v
    | _ => none)
  (v, updRp coxEng (fun x => { x with dev := [] }) s)

/-- A copy out of the flash: into the staging window, or to memory. -/
def copyOut (pr : Proc) (w : List Host.Cell) (s : State) : State :=
  if arg1 pr = 0 then mgrEnd rDONE 0 (updCard (fun c => { c with stage := splice c.stage 0 w }) s)
  else mgrStep { pr with step := 1 } (coxStore (arg1 pr) w s)

/-! ### Slots (R450 to R455, Table 13.13) -/

/-- SVN of the image in a slot. -/
def slotSvn (s : State) (k : Nat) : Nat := fle s.card.cs0 (slotBase k + 16) 4
/-- The slot that a write goes to: the WRITING one, or the one that becomes it. -/
def writeSlot (s : State) : Option Nat := [roWRITING, roPENDING, roEMPTY, roFAILED].findSome? (slotOf s.card.cs0)
/-- Bytes enter the WRITING slot. -/
def slotPut (k off : Nat) (w : List Host.Cell) (s : State) : State := updCard (fun c => { c with cs0 := splice c.cs0 (slotBase k + off) w }) s

/-- RC_WRITE to slot `k`, which becomes the WRITING one. -/
def rcWriteTo (pr : Proc) (k : Nat) (s : State) : State :=
  if slotRole s.card.cs0 k = roWRITING ∧ writeOwner s.card.cs0 ≠ pr.c.src then mgrEnd rSTATE 0 s
  else
    let s := if slotRole s.card.cs0 k = roWRITING then s else setRoles ((rolesOf s.card.cs0).set k roWRITING) pr.c.src s
    if arg1 pr = 0 then mgrEnd rDONE 0 (slotPut k (arg0 pr) s.card.stage s) else mgrStep { pr with step := 1, n := k } (coxFetch (arg1 pr) s)

/-- RC_WRITE. -/
def rcWrite (pr : Proc) (s : State) : Option State :=
  let off := arg0 pr
  if pr.step = 1 then
    if !(coxIdle s) then none
    else
      let g := coxGot s
      match g.1 with
      | some v => some (mgrEnd rDONE 0 (slotPut pr.n off (cellsOf copySize v) g.2))
      | none => some (mgrEnd rFAILED 0 g.2)
  else if off % copySize ≠ 0 ∨ slotSize ≤ off ∨ copyArgOk s pr.c.src (arg1 pr) = false then some (mgrEnd rINVALID 0 s)
  else match writeSlot s with
    | none => some (mgrEnd rSTATE 0 s)
    | some k => some (rcWriteTo pr k s)

/-- The image in slot `k` has been verified: it is PENDING, or FAILED with the step and the section that failed. -/
def rcJudge (k : Nat) (r : Option (Nat × Nat)) (s : State) : State :=
  match r with
  | none => mgrEnd rDONE 0 (setRole k roPENDING s)
  | some e => mgrEnd rFAILED (e.1 + e.2 * 2 ^ 8) (setRole k roFAILED s)

/-- RC_VERIFY. -/
def rcVerify (s : State) : State :=
  match slotOf s.card.cs0 roWRITING with
  | none => mgrEnd rSTATE 0 s
  | some k => rcJudge k (verify s s.card.cs0 (slotBase k)) s

/-- RC_DISARM. -/
def rcDisarm (s : State) : State :=
  match slotOf s.card.cs0 roPENDING with
  | none => mgrEnd rSTATE 0 s
  | some k => mgrEnd rDONE 0 (setRole k roEMPTY s)

/-- RC_ROLLBACK (R455). -/
def rcRollback (s : State) : State :=
  let cs := s.card.cs0
  match slotOf cs roPREVIOUS with
  | none => mgrEnd rSTATE 0 s
  | some k =>
    if (slotOf cs roPENDING).isSome ∨ (slotOf cs roWRITING).isSome = true ∨ slotSvn s k < svnFloor s then mgrEnd rSTATE 0 s
    else mgrEnd rDONE 0 (setRole k roPENDING s)

/-- RC_READ. -/
def rcRead (pr : Proc) (s : State) : Option State :=
  let k := bits (arg0 pr) 0 2
  let off := bits (arg0 pr) 18 14 * copySize
  if pr.step = 1 then (if coxIdle s then some (mgrEnd rDONE 0 s) else none)
  else if k = 3 ∨ slotSize ≤ off ∨ copyArgOk s pr.c.src (arg1 pr) = false then some (mgrEnd rINVALID 0 s)
  else some (copyOut pr (cut s.card.cs0 (slotBase k + off)) s)

/-- RC_SVN_RAISE: an EMPTY or WRITING slot has no image to fail. -/
def rcSvnRaise (s : State) : State :=
  match slotOf s.card.cs0 roCURRENT with
  | none => mgrEnd rSTATE 0 s
  | some k =>
    let v := slotSvn s k
    if v ≤ svnFloor s then mgrEnd rSTATE 0 s
    else
      let roles := (rolesOf s.card.cs0).zipIdx.map (fun e => if e.2 ≠ k ∧ e.1 ≠ roEMPTY ∧ e.1 ≠ roWRITING ∧ slotSvn s e.2 < v then roFAILED else e.1)
      mgrEnd rDONE 0 (setRoles roles (writeOwner s.card.cs0) (updCard (fun c => { c with svn := v }) s))

/-- Bytes of the log area from `off` on (R444). The records of the fault log stand in their sectors, the oldest held first; every other
byte is of a format that is not given, and free. -/
def logBytes (off : Nat) (s : State) : List Host.Cell × State :=
  let q := drawNat s
  let base := 0x800000
  let rs := s.flt.log.zipIdx.filterMap (fun e =>
    let a := base + e.2 / 1023 * 0x10000 + 64 + e.2 % 1023 * 64
    if off ≤ a ∧ a < off + copySize then some (a - off, e.1) else none)
  let fresh := cellsOf copySize (q.1 % 256 ^ copySize)
  (rs.foldl (fun w r => (List.range 8).foldl (fun w i => wrMem w (r.1 + 8 * i) 8 (recWord r.2 i)) w) fresh, q.2)

/-- LOG_READ. -/
def logRead (pr : Proc) (s : State) : Option State :=
  let off := arg0 pr
  if pr.step = 1 then (if coxIdle s then some (mgrEnd rDONE 0 s) else none)
  else if off % copySize ≠ 0 ∨ 0x3000000 ≤ off ∨ copyArgOk s pr.c.src (arg1 pr) = false then some (mgrEnd rINVALID 0 s)
  else
    let w := logBytes off s
    some (copyOut pr w.1 w.2)

/-! ### Firmware activation (R464 to R466, Table 13.12). Steps of the command: 1 the Boathouse drains, 3 and 4 steps 1 and 2 of the
table, 5 probation. -/

/-- The activation fails: the old firmware goes on and the PENDING image is FAILED (R465). -/
def fwFail (s : State) : State :=
  let s := { s with cox := { s.cox with swap := false } }
  let s := match slotOf s.card.cs0 roPENDING with
    | some k => setRole k roFAILED s
    | none => s
  mgrEnd rFAILED 0 (coxRec 0x03 1 s)

/-- The whole command succeeds: the slots change as after a trial (R453, R466). -/
def fwDone (s : State) : State :=
  match slotOf s.card.cs0 roPENDING with
  | none => mgrEnd rDONE 0 s
  | some k =>
    let s := setRoles (dirAfter { img := k, trial := true } (rolesOf s.card.cs0)) (writeOwner s.card.cs0) s
    mgrEnd rDONE 0 (updCard (fun c => { c with inForce := k, log := c.log ++ [{ kind := 3, slot := k, step := 16 }] }) s)

/-- Does an image's section of a TYPE differ from that of the CURRENT slot? -/
def fwDiffers (cs : List Host.Cell) (k : Nat) (cur : Option Nat) (ty : Nat) : Bool :=
  match cur with
  | some c => decide (sectBytes cs (slotBase k) ty 0 ≠ sectBytes cs (slotBase c) ty 0)
  | none => true
/-- The Boathouse's part is done: the Cox's pairs are swapped, or the command is complete. -/
def fwRest (pr : Proc) (s : State) : State :=
  if bit (arg0 pr) 0 then mgrStep { pr with step := 3 } { s with cox := { s.cox with swap := true } } else fwDone s
/-- FW_ACTIVATE begins with the PENDING image in slot `k`. -/
def fwBegin (pr : Proc) (k : Nat) (s : State) : State :=
  let cs := s.card.cs0
  if bit (fle cs (slotBase k + 29) 1) 0 = false then mgrEnd rSTATE 0 s
  else if (fwDiffers cs k (slotOf cs roCURRENT) 3 && !(bit (arg0 pr) 0)) || (fwDiffers cs k (slotOf cs roCURRENT) 4 && !(bit (arg0 pr) 1)) then mgrEnd rINVALID 0 s
  else if bit (arg0 pr) 1 then mgrStep { pr with step := 1 } (updBh (fun b => { b with pause := true }) s)
  else fwRest pr s
/-- FW_ACTIVATE. -/
def fwActivate (pr : Proc) (s : State) : Option State :=
  match pr.step with
  | 0 =>
    match slotOf s.card.cs0 roPENDING with
    | none => some (mgrEnd rSTATE 0 s)
    | some k => some (fwBegin pr k s)
  | 1 => if s.bh.slots.isEmpty then some (fwRest pr (updBh (fun b => { b with pause := false }) s)) else none
  | _ => none

/-- The running command, when it is an activation that has come to step `k`. -/
def fwAt (s : State) (k : Nat) : Bool := s.cox.cur.any (fun pr => decide (pr.op = 0x36) && decide (pr.step = k))

/-- Time passes for an activation of the Cox: steps 1 to 3 of Table 13.12. -/
def fwTick (s : State) : State :=
  match s.cox.cur with
  | none => s
  | some pr =>
    if pr.op ≠ 0x36 then s
    else if pr.step = 3 ∧ s.cox.standbyBad = false then mgrStep { pr with step := 4 } s
    else if pr.step = 4 then mgrStep { pr with step := 5 } { s with cox := { s.cox with swap := false } }
    else s

/-- Step 1 or 2 of Table 13.12 exceeds its bound (R465). -/
def fwTimeout (step : Nat) (s : State) : State := if (step = 1 ∨ step = 2) ∧ fwAt s (step + 2) = true then fwFail s else s
/-- The new active pair misses five heartbeats in a row (R465). -/
def heartbeatMiss (s : State) : State := if fwAt s 5 then fwFail s else s
/-- Probation ends (R466). -/
def probationEnd (s : State) : State := if fwAt s 5 then fwDone s else s
/-- Admitted commands are incomplete 40 ms after the stop of fetching (R393). -/
def bhAbandon (s : State) : State := if fwAt s 1 then fwFail (updBh (fun b => { b with pause := false }) s) else s

/-- A lockstep pair miscompares (R465, Table 15.3). -/
def miscompare (active : Bool) (s : State) : State :=
  if s.cox.dead then s
  else if !active then coxRec 0x04 1 { s with cox := { s.cox with standbyBad := true } }
  else if fwAt s 5 then fwFail s
  else if !s.cox.standbyBad then coxRec 0x05 1 { s with cox := { s.cox with standbyBad := true } }
  else coxRec 0x06 3 { s with cox := { s.cox with dead := true } }

/-! ### Self-tests (R462, R463, Table 13.11) -/

/-- `MGR_TESTSTAT` in both manager frames. -/
def testStat (v : Nat) (s : State) : State := setReg frMgr 0x140 (BitVec.ofNat 64 v) (setReg frBmc 0x140 (BitVec.ofNat 64 v) s)

/-- Is a test's target in range? -/
def testArgOk (code a : Nat) : Bool :=
  if code = 1 ∨ code = 2 ∨ code = 4 then decide (a < 12)
  else if code = 3 then decide (a < 4)
  else if code = 5 then decide (bits a 0 4 < 12) && decide (bits a 4 7 < 96) && decide (a < 2 ^ 12)
  else if code = 6 then decide (bits a 0 4 < 12) && decide (a < 64)
  else false

/-- Does a set that an owner holds or that moves have a column in group `m`? -/
def groupBusy (s : State) (m : Nat) : Bool :=
  s.slab.any (fun e => (decide (slState e.2 = slOWNED) || decide (slState e.2 = slMOVING)) && decide (slKind e.2 < 2) && decide (slGrp e.2 = m))

/-- Must a test be declined as BUSY? -/
def testBusy (s : State) (code a : Nat) : Bool :=
  s.card.test.isSome ||
  (if code = 1 ∨ code = 2 then !(dieSpare s a || ((die s a).failed && (die s a).asg.isNone))
   else if code = 3 then groupBusy s a
   else if code = 4 then decide (rpPart s a ≠ 15) || fbit s (frRp a) 0 3 || bhPort s a
   else if code = 6 then decide (fld s (frDie (bits a 0 4)) 0x180 16 4 ≠ 0) || decide (linkSt s (bits a 0 4) false ≠ lL0)
   else false)

/-- Hide a bank: its lines are written back first (R95). -/
def hideBank (d b : Nat) (s : State) : State :=
  let s := (List.range 24).foldl (fun s k =>
    let ks := ((slice s d k).l3.filter (fun e => e.2.v && decide (e.1 % 12 / 3 = b))).map (·.1)
    sliceRun d k (ks.foldl (fun s key => l3Evict d k key s) s)) s
  setFld (frDie d) 0x180 (16 + b) 1 1 s

/-- SELFTEST. -/
def selftest (pr : Proc) (s : State) : State :=
  let code := bits (arg0 pr) 0 8
  let a := arg1 pr
  if !(testArgOk code a) then mgrEnd rINVALID 0 s
  else if testBusy s code a then mgrEnd rBUSY 0 s
  else
    let key := wgKey (bit a 11) (bits a 4 7)
    if code = 5 ∧ (freeSpare (lnk s (bits a 0 4)) key).isNone = true then mgrEnd rSTATE 0 s
    else
      let s := testStat (1 + code * 2 ^ 8) (updCard (fun c => { c with test := some (pr.c.src, code, a) }) s)
      let s := if code = 5 then startRecal (bits a 0 4) key s else if code = 6 then hideBank (bits a 0 4) (bits a 4 2) s else s
      mgrEnd rDONE 0 s

/-- Does a command name the target of the test that runs? -/
def namesTest (s : State) (pr : Proc) : Bool :=
  match s.card.test with
  | none => false
  | some (_, code, a) =>
    if code = 1 ∨ code = 2 ∨ code = 6 then (pr.op = 0x01 || pr.op = 0x06 || pr.op = 0x07) && decide (argD pr = bits a 0 4)
    else if code = 3 then (pr.op = 0x08 || pr.op = 0x09) && (setEntries s (setBase s (argS pr))).any (fun n => decide (slKind (slabEnt s n) < 2) && decide (slGrp (slabEnt s n) = a))
    else if code = 4 then (pr.op = 0x0A || pr.op = 0x0B || pr.op = 0x20) && decide (argD pr = a)
    else false

/-! ### Page retirement (Table 8.11, R298, R299) -/

/-- First byte of the spare pages of a tier. -/
def spareBase (s : State) (g tier : Nat) : Nat := if tier = 0 then 0x848400000 else mget s.ddrSlabs g * 2 ^ 30
/-- Page number of a location in the retirement map. -/
def pageKey (tier ma : Nat) : Nat := tier * 2 ^ 30 + ma / 4096
/-- A spare page of a tier and group that has never been taken. -/
def spareFree (s : State) (g tier : Nat) : Option Nat :=
  let m := (se s g).retire
  (List.range 512).find? (fun i =>
    (mfind m (pageKey tier (spareBase s g tier + 4096 * i))).isNone && !(m.any (fun e => decide (e.1 / 2 ^ 30 = tier) && decide (e.2 = i + 1))) &&
    !(s.cox.bg.any (fun pr => decide (pr.op = 0x1001) && decide (locGrp pr.n = g) && decide (locTier pr.n = tier) && decide (pr.d = i))))
/-- Count of spare pages left in `SE_STAT`. -/
def spareCount (g tier : Nat) (add : Bool) (s : State) : State :=
  let o := if tier = 0 then 10 else 20
  let n := fld s (frSe g) 0x010 o 10
  setFld (frSe g) 0x010 o 10 (if add then n + 1 else n - 1) s
/-- The places that lead to a location: the page itself, and the page that the map leads there. -/
def pagePlaces (s : State) (k : Nat) : List Nat :=
  let g := locGrp k
  let tier := locTier k
  let i := (locMa k - spareBase s g tier) / 4096
  let old := if spareBase s g tier ≤ locMa k then ((se s g).retire.filter (fun e => decide (e.1 / 2 ^ 30 = tier) && decide (e.2 = i + 1))).map (·.1) else []
  old ++ [pageKey tier (locMa k)]
/-- Poisoned lines of a page of memory, by its first location. -/
def poisonMap (s : State) (k : Nat) : Nat := (List.range 64).foldl (fun a i => if mget s.poison (k / 64 + i) then a + 2 ^ i else a) 0

/-- Step 4: the lines are copied to the spare, and the page enters the map. -/
def retireCopy (k i : Nat) (s : State) : State :=
  let g := locGrp k
  let dst := locKey g (locTier k) (spareBase s g (locTier k) + 4096 * i)
  let ps := pagePlaces s k
  let s := (List.range 64).foldl (fun s j => wrLine (dst + 64 * j) (rdLine s (k + 64 * j)) (mget s.poison (k / 64 + j)) s) s
  updSe g (fun x => { x with retire := ps.foldl (fun m p => mset m p (i + 1)) x.retire }) s

/-- The record and the notice of step 6: RETIRED or NOSPARE, with the map of poisoned lines. -/
def retireNotice (k pa p ty map : Nat) (s : State) : State :=
  let fr := frSe (locGrp k)
  let cls := if ty = 6 then 0 else 1
  let s := logErr { frame := fr, ty := ty, cls := cls, addr := some pa, part := p } s
  let r : FltRec := { frame := fr, stat := BitVec.ofNat 64 (1 + 2 * cls + 32 + p * 256), addr := BitVec.ofNat 64 pa, type := BitVec.ofNat 64 ty,
                      src := BitVec.ofNat 64 (frameAgent fr * 2 ^ 16), time := BitVec.ofNat 64 s.tb, cnt := BitVec.ofNat 64 map }
  if p < 12 then queuePut p r s else s

/-- The Cox begins to retire the page of a location (step 1). -/
def retireStart (g tier ma : Nat) (s : State) : State :=
  let k := locKey g tier (ma / 4096 * 4096)
  match (if g < 4 ∧ tier < 2 ∧ locOk s k = true ∧ poisonMap s k ≠ 0 ∧ (retiring s).contains k = false ∧ (mfind (se s g).retire (pageKey tier ma)).isNone = true then paOfLoc s k else none) with
  | none => s
  | some pa => match slabOwner s pa with
    | none => s
    | some p => match spareFree s g tier with
      | none => retireNotice k pa p 7 (poisonMap s k) s
      | some i =>
        let s := { s with cox := { s.cox with bg := s.cox.bg ++ [{ op := 0x1001, step := 2, p := p, d := i, n := k, l := [pa] }] } }
        rangeSend (diesOf s p) pa (pa + 4095) (spareCount g tier false s)

/-- Lines of a region with an entry at its home that have a holder on the I/O die. -/
def regionHeld (s : State) (g : Nat) : List Nat :=
  ((home s (homeOf g)).lin.filter (fun e => e.2.v && decide (lineRegion e.2.line = g) && bit e.2.hold 12)).map (·.1)

/-- A retirement goes a step further, or waits. -/
def retireStep (pr : Proc) (s : State) : Option State :=
  let pa := pr.l.headD 0
  let g := regionOf pa
  let n := homeOf g
  let put := fun (k : Nat) (s : State) => { s with cox := { s.cox with bg := s.cox.bg.map (fun x => if x = pr then { x with step := k } else x) } }
  let gone := fun (s : State) => { s with cox := { s.cox with bg := s.cox.bg.erase pr } }
  let inv := fun (s : State) => (regionHeld s g).foldl (fun s key => if (home s n).vic.any (fun v => decide (v.line = (mget (home s n).lin key).line)) then s else startVictim n true key s) s
  match pr.step with
  | 2 =>
    if rangesDone s (diesOf s pr.p) then some (put 3 (updHome n (fun x => { x with hold := x.hold ++ [g] }) s)) else none
  | 3 =>
    let open_ := (home s n).trk.any (fun t => t.ph ≠ .wait && decide (lineRegion (lineOf t.f.addr) = g))
    let t := if open_ then s else inv s
    if open_ ∨ (regionHeld t g).isEmpty = false ∨ t.memq.any (fun q => decide (regionOf q.pa = g)) = true then (if t = s then none else some t) else some (put 4 t)
  | _ =>
    let tier := locTier pr.n
    let grp := locGrp pr.n
    if (se s grp).moves.any (fun m => (moveDests m).any (fun e => decide (nomTier e.2 = tier) && decide (nomGran e.2 = locMa pr.n / 65536) ||
        decide (placeOf s grp e.1 = nomOf tier (locMa pr.n / 65536)))) then none
    else
      let map := poisonMap s pr.n
      let s := retireCopy pr.n pr.d s
      let s := homeRun n (updHome n (fun x => { x with hold := x.hold.erase g }) (gone s))
      some (retireNotice pr.n pa pr.p 6 map s)

/-- A step of a retirement exceeds its bound: the oldest one ends (R299). -/
def retireTimeout (s : State) : State :=
  match s.cox.bg.find? (fun pr => pr.op = 0x1001) with
  | none => s
  | some pr =>
    let g := regionOf (pr.l.headD 0)
    let s := coxErr 1 pr.p false { s with cox := { s.cox with bg := s.cox.bg.erase pr } }
    homeRun (homeOf g) (updHome (homeOf g) (fun x => { x with hold := x.hold.erase g }) (spareCount (locGrp pr.n) (locTier pr.n) true s))

/-! ### The end of a self-test -/

/-- Pages that MEM_TEST found failing, by tier and medium address, are retired by steps 1 and 4 of Table 8.11. -/
def testPages (m : Nat) (pages : List (Nat × Nat)) (s : State) : State :=
  pages.foldl (fun s e =>
    let k := locKey m (e.1 % 2) (e.2 / 4096 * 4096)
    if locOk s k = false ∨ (mfind (se s m).retire (pageKey (e.1 % 2) e.2)).isSome = true then s
    else match spareFree s m (e.1 % 2) with
      | none => logErr { frame := frSe m, ty := 7, cls := 1, addr := some (locMa k) } s
      | some i => logErr { frame := frSe m, ty := 6, cls := 0, addr := some (locMa k) } (retireCopy k i (spareCount m (e.1 % 2) false s))) s

/-- A test ends with a result: 0 pass, 1 fail, 2 aborted. -/
def testDone (res det : Nat) (pages : List (Nat × Nat)) (s : State) : State :=
  match s.card.test with
  | none => s
  | some (src, code, a) =>
    if 3 ≤ res then s
    else
      let s := testStat (code * 2 ^ 8 + res * 2 ^ 16 + det % 2 ^ 32 * 2 ^ 32) (updCard (fun c => { c with test := none }) s)
      let d := bits a 0 4
      let s :=
        if code = 1 then (if res = 0 then rstRelease d (rstAssert d (updDie d (fun x => { x with failed := false }) s)) else if res = 1 then updDie d (fun x => { x with failed := true }) s else s)
        else if code = 2 then linkRetrainFull d true s
        else if code = 3 then (if res = 1 then testPages a pages s else s)
        else if code = 6 then
          (if res = 1 then logErr { frame := frDlog d, ty := 0x0A, cls := 0, part := diePart s d } s else setFld (frDie d) 0x180 (16 + bits a 4 2) 1 0 s)
        else s
      if src = 16 then mgtMsix 0 s else sysMsg (managerPart s) (0x05 + code * 2 ^ 8 + res * 2 ^ 16) s

/-! ### Error injection (R528) -/

/-- ERR_INJECT. -/
def errInject (pr : Proc) (s : State) : State :=
  let f := bits (arg0 pr) 0 12
  if fbit s frFlt 8 0 = false then mgrEnd rDENIED 0 s
  else if hasErrBank (frameKind f).1 = false ∨ injRefused f (arg1 pr) = true then mgrEnd rINVALID 0 s
  else mgrEnd rDONE 0 (injWrite f 15 (arg1 pr) s)

end Sys2Proof.Machine
end

