-- ==== Sys2Proof/Machine/Cox.lean ====
section
/-! DEFINITION. The Cox's service: which command runs, how it goes on, and the procedures beside it (R310 to R312, R441, R530).
Log entries with the choices and readings made here: 96, 122, 154. -/

namespace Sys2Proof.Machine

/-- Commands that only read, which the Cox serves while a UCP is latched; WARM_START answers STATE (R530). -/
def readOnly (op : Nat) : Bool := op = 0x0C || op = 0x45 || op = 0x34 || op = 0x39 || op = 0x38

/-- May the Cox take a command from its queue now? -/
def servable (s : State) (pr : Proc) : Bool :=
  if ucp s || s.card.stopped then readOnly pr.op
  else if s.card.start.isSome then decide (pr.c.src = 17)
  else s.card.up

/-- Does a command that runs concern a partition that has gone DOWN (R312)? -/
def cmdDown (s : State) (pr : Proc) : Bool :=
  decide (pr.step ≠ 0) && [0x01, 0x03, 0x04, 0x05, 0x06, 0x07, 0x08, 0x0A, 0x0B].contains pr.op && decide (pr.p < 12) && decide ((part s pr.p).st = .down)

/-- WARM_START. -/
def warmCmd (s : State) : State := if ucp s then mgrEnd rSTATE 0 s else warmStart s

/-- The running command goes a step further; `none` while it waits. -/
def cmdStep (pr : Proc) (s : State) : Option State :=
  if pr.step = 0 ∧ namesTest s pr = true then some (mgrEnd rSTATE 0 s)
  else match pr.op with
  | 0x01 => partCreate pr s
  | 0x02 => some (partStart pr s)
  | 0x03 => partReset pr s
  | 0x04 => partReset pr s
  | 0x05 => partDelete pr s
  | 0x06 => dieEvacuate pr s
  | 0x07 => dieAdd pr s
  | 0x08 => slabAssign pr s
  | 0x09 => slabRelease pr s
  | 0x0A => rpAssign pr s
  | 0x0B => rpRelease pr s
  | 0x0C => some (partQuery pr s)
  | 0x10 => some (errInject pr s)
  | 0x30 => rcWrite pr s
  | 0x31 => some (rcVerify s)
  | 0x32 => some (rcDisarm s)
  | 0x33 => some (rcRollback s)
  | 0x34 => rcRead pr s
  | 0x35 => some (rcSvnRaise s)
  | 0x36 => fwActivate pr s
  | 0x37 => some (selftest pr s)
  | 0x38 => some (warmCmd s)
  | 0x39 => logRead pr s
  | op =>
    if 0x20 ≤ op ∧ op < 0x30 then bhStep pr s
    else if 0x40 ≤ op ∧ op < 0x46 then pairStep pr s
    else some (mgrEnd rINVALID 0 s)

/-- The Cox's own work goes a step further: a command, or the next one from the queue. -/
def coxStep (s : State) : Option State :=
  match s.cox.cur with
  | some pr =>
    if ucp s && !(readOnly pr.op) then some (mgrEnd rFAILED 0 s)
    else if cmdDown s pr then some (mgrEnd rFAILED 0 s)
    else cmdStep pr s
  | none =>
    match s.cox.queue.find? (servable s) with
    | some pr => some { s with cox := { s.cox with queue := s.cox.queue.erase pr, cur := some pr } }
    | none => none

/-- A procedure beside the commands goes a step further: a takeover (R430) or a page retirement (R298). None does after a UCP
(Table 15.10 step 3). -/
def bgStep (pr : Proc) (s : State) : Option State :=
  if s.cox.bg.contains pr && !(ucp s) then (if pr.op = 0x1000 then takeStep pr s else retireStep pr s) else none

/-- Is the Cox working? -/
def coxOn (s : State) : Bool := s.pins.pwrok && !s.cox.dead && !s.card.k3 && !s.card.dark

/-- The Cox works until everything it does waits, at most `n` steps. -/
def coxRun : Nat → State → State
  | 0, s => s
  | n + 1, s =>
    match coxStep s with
    | some t => coxRun n t
    | none => match s.cox.bg.findSome? (fun pr => bgStep pr s) with
      | some t => coxRun n t
      | none => s

/-- A partition's Strata commands that wait go on (R288). -/
def strGo (s : State) : State := (List.range 12).foldl (fun s p => strStep (retiring s) p s) s

/-- What follows the Cox's work: CoxCmds that may go now go, and Strata commands that waited for the pages `old` under retirement go on
when one has ended (R287, R288). -/
def coxEnd (old : List Nat) (s : State) : State :=
  let t := coxCommands s
  if retiring t = old then t else strGo t

/-- The Cox goes on after an event. -/
def coxGo (s : State) : State := if coxOn s then coxEnd (retiring s) (coxRun 64 s) else s

/-- A step of a die's evacuation or addition exceeds its bound (R321, R323). A switch that does not drain is waited for. -/
def lifeTimeout (s : State) : State :=
  match s.cox.cur with
  | none => s
  | some pr =>
    if (pr.op = 0x06 ∧ (pr.step = 1 ∨ pr.step = 2 ∨ pr.step = 4)) ∨ (pr.op = 0x07 ∧ pr.step = 1 ∧ drained s = true) then
      coxGo (mgrStep { pr with bad := true } s)
    else s

/-- A park has not completed in 30 µs (R317): a reset of the partition goes on regardless. -/
def parkLate (h : Nat) (s : State) : State :=
  let late := decide (h < 576) && decide ((hart s h).st = .parking)
  let s := parkTimeout h s
  match s.cox.cur with
  | some pr => if late && (pr.op = 0x03 || pr.op = 0x04) && decide (pr.step = 1) && decide (pr.p = hartPart s h) then coxGo (mgrStep { pr with bad := true } s) else s
  | none => s

/-- Step 5 of Table 7.6 exceeds its bound (R249). -/
def drainTimeout (s : State) : State := if drained s then s else coxRec 0x0A 1 s

end Sys2Proof.Machine
end

