-- ==== Sys2Proof/Machine/HomeMsg.lean ====
section
/-! DEFINITION. What a home agent does with each message that reaches it, and with the events of its own: snoop answers, CompAcks,
region maps, timeouts, and the teardown of a partition (R121, R122, R131, R139, R149, R153, R156, R161, R163, R174, R178,
R182 to R185).
Log entries with the choices and readings made here: 28. -/

namespace Sys2Proof.Machine

/-! ### Snoop answers -/

/-- A holder of a PRIV region that answers a line snoop with I has its MAP bit cleared (R122). -/
def privGone (n l : Nat) (f : Flit) (s : State) : State :=
  updHome n (fun x => match regFind x (lineRegion l) with
    | some r => if r.priv && decide (f.st = .i) && decide (r.holder = agDie f.src) then
        updReg (lineRegion l) (fun r => { r with map := putBit r.map (l % 64) false }) x else x
    | none => x) s

/-- A transaction that may have ended. -/
def endTrk (n id : Nat) (s : State) : State :=
  match (home s n).trk.find? (fun t => t.id = id) with
  | some t => endIfDone n t s
  | none => s

/-- SnpRsp for the request tracker `id`. -/
def trkSnpRsp (n : Nat) (f : Flit) (s : State) : State :=
  match (home s n).trk.find? (fun t => decide (t.id = f.txn) && t.pend.contains f.src) with
  | none => s
  | some t =>
    let own := decide (t.owner = some f.src)
    let t := { t with
      pend := t.pend.erase f.src
      fwd := t.fwd || (own && f.fwdd)
      ownSt := if own then f.st else t.ownSt
      ownWb := t.ownWb || (own && f.wb)
      ndExp := t.ndExp + b2n f.wb }
    let s := privGone n (lineOf t.f.addr) f (updTrk n t.id (fun _ => t) s)
    if t.pend.isEmpty then homeRun n (endTrk n t.id (afterSnoops n t s)) else s

/-- SnpRsp for a victim: of a line, or of a recalled region with the number of its SnpData (R131). -/
def vicSnpRsp (n : Nat) (f : Flit) (s : State) : State :=
  let key := 64 * f.src + lineOf f.addr % 64
  match (home s n).vic.find? (fun v => decide (v.id = f.txn) && v.pend.contains key) with
  | none => s
  | some v =>
    let v := { v with pend := v.pend.erase key, ndExp := v.ndExp + b2n f.wb + f.ndata }
    homeRun n (updHome n (fun x => { x with vic := x.vic.map (fun y => if y.id = v.id then v else y) }) s)

/-- SnpRsp at a home. -/
def homeSnpRsp (n : Nat) (f : Flit) (s : State) : State := if f.txn < 8192 then trkSnpRsp n f s else vicSnpRsp n f s

/-- SnpData at a home: the line is written to memory (R149, R153, R163). Data for a transaction that a teardown closed is
discarded. -/
def homeSnpData (n : Nat) (f : Flit) (s : State) : State :=
  let l := lineOf f.addr + f.idx
  if f.txn < 8192 then
    match (home s n).trk.find? (fun t => t.id = f.txn) with
    | none => s
    | some t => homeWrite n (some t.id) none l f.data f.poison [] (updTrk n t.id (fun t => { t with ndGot := t.ndGot + 1, wr := t.wr + 1 }) s)
  else
    match (home s n).vic.find? (fun v => v.id = f.txn) with
    | none => s
    | some v => homeWrite n none (some v.id) l f.data f.poison [] (updHome n (fun x => { x with
        vic := x.vic.map (fun y => if y.id = v.id then { y with ndGot := y.ndGot + 1, wr := y.wr + 1 } else y) }) s)

/-- CompAck at a home (R161). -/
def homeCompAck (n : Nat) (f : Flit) (s : State) : State :=
  match (home s n).trk.find? (fun t => decide (t.f.src = f.src) && decide (t.f.txn = f.txn) && t.ph ≠ .wait) with
  | none => s
  | some t =>
    let early := !t.pend.isEmpty
    let s := if early && !t.listed then updHome n (updLin (lineOf t.f.addr) (ackHolder f.src (t.f.op = oRdOwn || t.f.op = oUpgrade) f.st)) s else s
    homeRun n (endTrk n t.id (updTrk n t.id (fun t => { t with acked := true, listed := t.listed || early }) s))

/-- RgnMap at a home: of a split (Table 4.4 step 4), of a release (R130), of one that was stale, or before its RgnRel (R236). -/
def homeRgnMap (n : Nat) (f : Flit) (s : State) : State :=
  let x := home s n
  let begin_ := fun (p : Split) => homeRun n (splitBegin n p (f.data.toNat % 2 ^ 64) s)
  match x.split.find? (fun p => decide (p.txn = f.txn) && p.rel.isNone && !p.ready && decide (agDie f.src = p.holder)) with
  | some p => begin_ p
  | none => match x.split.find? (fun p => decide (p.rel = some (f.src, f.txn)) && !p.ready) with
    | some p => begin_ p
    | none =>
      if x.mapx.contains (f.src, f.txn) then updHome n (fun x => { x with mapx := x.mapx.erase (f.src, f.txn) }) s
      else updHome n (fun x => { x with maps := x.maps ++ [f] }) s

/-- The last allocation of a region's conversion is made (Table 4.4 step 5, R130). -/
def splitDone (n g : Nat) (s : State) : State :=
  match (home s n).split.find? (fun p => decide (p.g = g) && p.ready) with
  | none => s
  | some p =>
    let s := if p.todo.isEmpty then s else splitAlloc n p s
    match (home s n).split.find? (fun q => decide (q.g = g) && q.ready && q.todo.isEmpty) with
    | some q => homeRun n (splitEnd n q s)
    | none => homeRun n s

/-- A coherent request or eviction reaches a home. -/
def homeReq (n : Nat) (f : Flit) (s : State) : State :=
  if f.op = oWrBackDirty ∨ f.op = oEvictClean then homeRun n (homeEvict n f s)
  else if f.op = oRgnRel then homeRun n (homeRgnRel n f s)
  else homeRun n (homeTake n f s)

/-! ### Timeouts -/

/-- Does a transaction or victim await a snoop answer of an agent? `some` the line. -/
def awaited (x : Home) (txn a : Nat) : Option Nat :=
  if txn < 8192 then (x.trk.find? (fun t => decide (t.id = txn) && t.pend.contains a)).map (fun t => lineOf t.f.addr)
  else match x.vic.find? (fun v => decide (v.id = txn) && v.pend.any (fun e => e / 64 = a)) with
    | some v => some v.line
    | none => (x.split.find? (fun p => decide (p.txn = txn) && p.rel.isNone && !p.ready && decide (sliceAgent p.holder (sliceOf p.g) = a))).map (fun p => 64 * p.g)

/-- A snoop is unanswered after 12 µs (R178). -/
def snpTimeout (n txn a : Nat) (s : State) : State :=
  match awaited (home s n) txn a with
  | none => s
  | some l => logErr { frame := frHa n, ty := 0x04, cls := 2, consq := true, part := linePart s (64 * l), addr := some (64 * l), agent := some a, fpart := linePart s (64 * l) } s

/-- A reservation is unused 10 µs after its CreditGrant (R174). -/
def rsvTimeout (n src txn : Nat) (s : State) : State :=
  match (home s n).rsv.find? (fun r => decide (r.src = src) && decide (r.txn = txn)) with
  | none => s
  | some r =>
    let s := setBit (frHa n) 0x040 48 (updHome n (fun x => { x with rsv := x.rsv.erase r }) s)
    homeRun n (logErr { frame := frHa n, ty := 0x05, cls := 1, consq := true, part := r.part, agent := some src, fpart := r.part } s)

/-! ### Teardown (Table 5.4) -/

/-- The teardown command for partition `p` reaches a home. -/
def teardown (n p : Nat) (s : State) : State :=
  if n < 32 ∧ p < 12 ∧ (part s p).tearing.contains n = true ∧ (home s n).tear.contains p = false then homeRun n (tearHome n p s) else s

/-- The walk is done and every poison write is accepted: completion is reported to the Cox (step 4). -/
def teardownDone (n p : Nat) (s : State) : State :=
  if (home s n).tear.contains p && !(s.memq.any (fun q => decide (q.ha = n) && decide (q.tear = some p))) then
    updPart p (fun x => { x with tearing := x.tearing.erase n }) (updHome n (fun x => { x with tear := x.tear.erase p }) s)
  else s

/-- A step of the teardown exceeds its bound (R185). -/
def teardownTimeout (n p : Nat) (s : State) : State :=
  if p < 12 ∧ (part s p).tearing.contains n = true then
    logErr { frame := frHa n, ty := 0x07, cls := 3, consq := true, part := p } s
  else s

/-- The resume for a partition that its reset prepares (Table 9.9 step 4). -/
def resume (n p : Nat) (s : State) : State :=
  match s.cox.cur with
  | some pr =>
    if n < 32 ∧ p < 12 ∧ (pr.op = 0x03 ∨ pr.op = 0x04) ∧ pr.step = 4 ∧ pr.p = p then updHome n (fun x => { x with off := putBit x.off p false }) s else s
  | none => s

end Sys2Proof.Machine
end

