-- ==== Sys2Proof/Machine/SliceMsg.lean ====
section
/-! DEFINITION. What a die-directory slice does with each message that reaches it: requests and evictions of its L2s,
CompAcks and snoop answers of its L2s, and the answers of the homes (R97, R101, R105, R138 to R141, R157, R164 to R175).
Log entries with the choices and readings made here: 12, 13, 14, 16, 19, 21, 26, 39. -/

namespace Sys2Proof.Machine

/-! ### Completion of a request (R91, R105, R127, R139) -/

/-- A line filled into an L2 that lies in a locked range enters the L3 (R91). -/
def lockFill (d k u l : Nat) (s : State) : State :=
  if (lockOf s d l).isNone then s
  else match l2Find (hart s (48 * d + u)) l with
    | some e => l3Alloc d k l e.data false e.poison (dperm (slice s d k) l) s
    | none => s

/-- The die's permission after a transaction whose L2 installed `st` with `rgn` (R127, R139). -/
def fillPerm (c : Slice) (t : Tx) (st : St) (rgn : Bool) (old : St) : St :=
  let g := lineRegion (lineOf t.f.addr)
  if t.up = 0 ∨ t.up = oRdOnce then old
  else if t.up = oRdRgn then (if (if t.self then t.st else st) = .s then .s else if rgnHeld c g then .r else .e)
  else if t.self then .e
  else if st = .s ∨ st = .sd then st
  else if rgn ∨ rgnHeld c g = true then .r else .e

/-- The directory lists core `u`, which has installed the line in state `st` (R96, R97). -/
def ackPres (u : Nat) (st : St) (e : DirEnt) : DirEnt :=
  { e with pres := putBit e.pres u true, owner := if st = .e ∨ st = .m then u else e.owner }

/-- The L2 has installed its line and every snoop of the transaction is answered: the directory records the holder and
the permission, the home gets its CompAck, and the transaction closes (R97, R117, R139). -/
def finishTx (d k : Nat) (t : Tx) (st : St) (rgn : Bool) (s : State) : State :=
  let l := lineOf t.f.addr
  let u := agUnit t.f.src
  let s := if t.rgnWay then updSlice d k (rgnAnswer (lineRegion l) rgn) s else s
  let c := slice s d k
  let s := if t.listed then s else updDir d k l (ackPres u st) s
  let s := updDir d k l (fun e => { e with dperm := fillPerm c t st rgn e.dperm }) s
  let s := lockFill d k u l s
  let s := if t.up = 0 ∨ t.up = oRdOnce then s else ackHome d k l t.id st rgn s
  closeTx d k t.id (updTx d k t.id (fun t => { t with got := t.got || rgn }) s)

/-- CompAck of an L2: it may come before the last SnpRsp of its transaction. The directory lists the L2 at once, so an eviction
that follows the CompAck finds it a holder (R165). -/
def sliceCompAck (d k : Nat) (f : Flit) (s : State) : State :=
  match (slice s d k).tx.find? (fun t => decide (t.f.src = f.src) && decide (t.f.txn = f.txn) && (t.ph = .ack || t.ph = .snoop)) with
  | none => s
  | some t =>
    if t.ph = .ack then sliceRun d k (finishTx d k t f.st f.rgn s)
    else (if t.listed then id else updDir d k (lineOf t.f.addr) (ackPres (agUnit f.src) f.st)) (updTx d k t.id (fun t => { t with acked := some (f.st, f.rgn), listed := true }) s)

/-! ### Snoop answers of the die's L2s -/

/-- The directory after core `u` answered a snoop with state `st` (R96, R117). -/
def dirAnswer (u : Nat) (st : St) (e : DirEnt) : DirEnt :=
  { e with pres := if st = .i then putBit e.pres u false else e.pres,
           owner := if e.owner = u ∧ (st = .i ∨ st = .s) then 0x3F else e.owner }

/-- Core `u` answered a snoop for a line: its entry stays in the directory while a fill is on the way to it (R97, R162). -/
def snooped (d k l u : Nat) (st : St) (s : State) : State :=
  let s := if st = .i then updSlice d k (copyLost l (fun x => decide (x = u))) s else s
  let keep := st = .i && filling (slice s d k) l u
  updDir d k l (fun e => let x := dirAnswer u st e; if keep then { x with pres := e.pres } else x) s

/-- Who is still awaited after core `u` answered: its SnpData too (number 64 + u), when it sent some that is not here. -/
def pendAfter (pend : List Nat) (u : Nat) (wb here : Bool) : List Nat :=
  pend.filter (· ≠ u) ++ (if wb && !here then [64 + u] else [])

/-- The L2s have answered for a request resolved on the die: data forwarded completes it with a Comp where one is due;
otherwise the slice resolves it (R105, R149). -/
def txSnooped (d k : Nat) (t : Tx) (s : State) : State :=
  let l := lineOf t.f.addr
  if t.fwd then
    let s := if wantsOwn t.f.op then l3Drop d k l s else s
    let s := if t.fcomp then updTx d k t.id (fun t => { t with ph := .ack }) s else grant d k t .e s
    match t.acked with
    | some (st, rgn) => finishTx d k t st rgn s
    | none => s
  else resolve d k t s

/-- SnpRsp of core `u` for the transaction with tag `id`. -/
def txSnpRsp (d k id u : Nat) (f : Flit) (s : State) : State :=
  match (slice s d k).tx.find? (fun t => t.id = id) with
  | none => s
  | some t =>
    if !(t.pend.contains u) then s
    else if t.ph = .victim then
      let t := { t with pend := pendAfter t.pend u f.wb t.vdata.isSome, vclean := if f.comp then some (f.data, f.poison) else t.vclean }
      let s := updTx d k id (fun _ => t) s
      if t.pend.isEmpty then sliceRun d k (victimDone d k t s) else s
    else
      let l := lineOf t.f.addr
      let t := { t with pend := pendAfter t.pend u f.wb t.vdata.isSome, fwd := t.fwd || f.fwdd }
      let s := snooped d k l u f.st (updTx d k id (fun _ => t) s)
      let s := if f.st = .sd then l3Drop d k l s else s
      if t.pend.isEmpty then sliceRun d k (txSnooped d k t s) else s

/-- SnpData of core `u` for the transaction with tag `id`: of a directory victim it waits for the last answer (R99);
otherwise the line stays on the die, in the L3. -/
def txSnpData (d k id u : Nat) (f : Flit) (s : State) : State :=
  match (slice s d k).tx.find? (fun t => t.id = id) with
  | none => s
  | some t =>
    let t := { t with vdata := some (f.data, f.poison), pend := t.pend.filter (· ≠ 64 + u) }
    let s := updTx d k id (fun _ => t) s
    if t.ph = .victim then (if t.pend.isEmpty then sliceRun d k (victimDone d k t s) else s)
    else
      let l := lineOf t.f.addr
      let s := l3Alloc d k l f.data true f.poison (dperm (slice s d k) l) s
      if t.ph = .snoop ∧ t.pend.isEmpty = true then sliceRun d k (txSnooped d k t s) else s

/-- The L2s have answered the slice's snoop for a snoop of a home, a region recall or a removal of its own. -/
def snpDone (d k : Nat) (t : SnpTx) (s : State) : State :=
  if t.pend.isEmpty then sliceRun d k (if t.f.idx = 64 then rgnLineDone d k t s else snpFinish d k t s) else s

/-- SnpRsp of core `u` for the snoop with tag `id`. -/
def snpSnpRsp (d k id u : Nat) (f : Flit) (s : State) : State :=
  let c := slice s d k
  match c.snp.find? (fun t => decide (t.id = id) && t.pend.contains u) with
  | none => s
  | some t =>
    let l := lineOf t.f.addr
    let own := decide (ownerOf c l = some u)
    let t := { t with pend := pendAfter t.pend u f.wb t.ret.isSome, fwd := t.fwd || f.fwdd, ownSt := if own then f.st else t.ownSt }
    let s := updSlice d k (fun c => { c with snp := c.snp.map (fun x => if x.id = id then t else x) }) s
    snpDone d k t (snooped d k l u f.st s)

/-- SnpData of core `u` for the snoop with tag `id`. -/
def snpSnpData (d k id u : Nat) (f : Flit) (s : State) : State :=
  match (slice s d k).snp.find? (fun t => t.id = id) with
  | none => s
  | some t =>
    let t := { t with ret := some (f.data, f.poison), pend := t.pend.filter (· ≠ 64 + u) }
    snpDone d k t (updSlice d k (fun c => { c with snp := c.snp.map (fun x => if x.id = id then t else x) }) s)

/-- SnpRsp at a slice. -/
def sliceSnpRsp (d k : Nat) (f : Flit) (s : State) : State :=
  if agDie f.src ≠ d then s
  else if f.txn < 32 then txSnpRsp d k f.txn (agUnit f.src) f s else snpSnpRsp d k f.txn (agUnit f.src) f s

/-- SnpData at a slice. -/
def sliceSnpData (d k : Nat) (f : Flit) (s : State) : State :=
  if agDie f.src ≠ d then s
  else if f.txn < 32 then txSnpData d k f.txn (agUnit f.src) f s else snpSnpData d k f.txn (agUnit f.src) f s

/-! ### Evictions of the die's L2s (R91, R101, R164, R165) -/

/-- Is an eviction by core `u` stale at the slice (R165 through R101)? -/
def l2EvictStale (c : Slice) (u l : Nat) : Bool :=
  !((holders c l).contains u) ||
  c.tx.any (fun t => t.ph ≠ .wait && t.snooped.contains u && (decide (lineOf t.f.addr = l) && t.ph ≠ .victim || decide (t.vline = l) && t.ph = .victim)) ||
  c.snp.any (fun t => t.started && decide (lineOf t.f.addr = l) && t.snooped.contains u)

/-- WrBackDirty or EvictClean of an L2: the line enters the L3 with the die's permission and the L2 is no holder of it. A
damaged clean line brings no data. -/
def sliceEvict (d k : Nat) (f : Flit) (s : State) : State :=
  let c := slice s d k
  let l := lineOf f.addr
  let u := agUnit f.src
  let ack := rsp oEvictAck (sliceAgent d k) f.src f.txn f
  if l2EvictStale c u l then send { ack with stale := true } s
  else
    let s := updSlice d k (fun c => { c with tx := c.tx.map (fun t =>
      if t.f.src = f.src ∧ lineOf t.f.addr = l ∧ (t.ph = .ack ∨ t.ph = .snoop) then { t with listed := true } else t) }) (send ack s)
    let dp := dperm c l
    let keep := fun (s : State) => if f.stale then s else l3Alloc d k l f.data (f.op = oWrBackDirty) f.poison dp s
    let s := updSlice d k (copyLost l (fun x => decide (x = u))) (updDir d k l (fun e => { dirAnswer u .i e with age := 0 }) s)
    if !(holders (slice s d k) l).isEmpty || lineOpen c l then sliceRun d k (keep s)
    else
      let gone := updSlice d k (fun c => match dirKey c l with
        | some q => { c with dir := mdel c.dir q }
        | none => c) s
      let held := (l3Key c l).isSome
      sliceRun d k (if f.stale && held then setDperm d k l dp gone
        else if f.stale then (if dp = .i then gone else giveUp d k l false dp 0 false gone)
        else keep gone)

/-! ### Answers of the homes -/

/-- Remove a write-back buffer entry or a release that the home has answered. -/
def upDone (d k txn : Nat) (s : State) : State :=
  sliceRun d k (reservedDone d k txn (updSlice d k (fun c => { c with wb := c.wb.filter (fun e => e.txn ≠ txn), rel := c.rel.filter (fun e => e.txn ≠ txn) }) s))

/-- The slice's own Upgrade is granted: the request goes on as one resolved on the die. -/
def upgraded (d k : Nat) (t : Tx) (s : State) : State :=
  let t := { t with got := true }
  sliceRun d k (judge d k t (updTx d k t.id (fun _ => t) s))

/-- Data or DataCopy of a home, or forwarded by a holder, for a request whose answer comes to the slice. -/
def sliceData (d k : Nat) (f : Flit) (s : State) : State :=
  match (slice s d k).tx.find? (fun t => decide (t.id = f.txn) && t.ph = .home) with
  | none => s
  | some t =>
    let t := { t with hasData := true, data := f.data, poison := f.poison, st := f.st }
    let s := updTx d k t.id (fun _ => t) s
    if t.f.op = oRdOnce then
      sliceRun d k (closeTx d k t.id (send { dat oDataCopy (sliceAgent d k) t.f.src t.f.txn t.f f.data f.poison with comp := true } s))
    else if t.up = oRdOnce then sliceRun d k (judge d k t s)
    else if t.up = oRdRgn then
      let t := { t with got := f.st ≠ .s }
      sliceRun d k (resolve d k t (updTx d k t.id (fun _ => t) s))
    else
      let t := { t with dirty := t.dirty || f.st = .m }
      if f.comp || t.got then upgraded d k t s else updTx d k t.id (fun _ => t) s

/-- Comp of a home: a cache-block or whole-line request is complete, the slice's CboClean frees its buffer (R94), or its
own Upgrade is granted. -/
def sliceComp (d k : Nat) (f : Flit) (s : State) : State :=
  if 32 ≤ f.txn then upDone d k f.txn s
  else match (slice s d k).tx.find? (fun t => decide (t.id = f.txn) && t.ph = .home) with
    | none => s
    | some t =>
      if t.f.op = oCboClean ∨ t.f.op = oCboFlush ∨ t.f.op = oWrFull then
        sliceRun d k (closeTx d k t.id (send (rsp oComp (sliceAgent d k) t.f.src t.f.txn t.f) s))
      else
        let t := { t with dirty := t.dirty || f.st = .m }
        if t.hasData || decide (t.up ≠ oRdOwn ∧ dperm (slice s d k) (lineOf t.f.addr) ≠ .i) then upgraded d k t s
        else updTx d k t.id (fun _ => { t with got := true }) s

/-- A stale announcement of dirty data in a region that the home recalls: the data goes with the answer to the recall (R131). -/
def recallData (d k : Nat) (f : Flit) (s : State) : State :=
  let c := slice s d k
  match c.wb.find? (fun e => decide (e.txn = f.txn) && !e.clean && !e.gone && (e.st = .m || e.st = .sd)) with
  | none => s
  | some e => match c.rsnp.find? (fun r => decide (r.f.op = oSnpRgnInv) && decide (regionOf r.f.addr = lineRegion e.line)) with
    | none => s
    | some r => updSlice d k (fun c => { c with rsnp := c.rsnp.map (fun y => if y.f = r.f then { y with ndata := y.ndata + 1 } else y) })
        (snpData (sliceAgent d k) r.f e.data e.poison (e.line % 64) s)

/-- EvictAck of a home frees the buffer entry, or ends a region's release (R130, R166). -/
def sliceEvictAck (d k : Nat) (f : Flit) (s : State) : State := upDone d k f.txn (if f.stale then recallData d k f s else s)

/-- Fault of a home: an announcement is over; a request is refused to its L2, which holds the line only where it did. -/
def sliceFault (d k : Nat) (f : Flit) (s : State) : State :=
  if 32 ≤ f.txn then upDone d k f.txn s
  else match (slice s d k).tx.find? (fun t => decide (t.id = f.txn) && (t.ph = .home || t.ph = .ack) && t.up ≠ 0) with
    | none => s
    | some t =>
      let l := lineOf t.f.addr
      let u := agUnit t.f.src
      let has := (l2Find (hart s (48 * d + u)) l).isSome
      let s := send { faultRsp (sliceAgent d k) f.cause t.f with addr := t.f.addr } s
      sliceRun d k (closeTx d k t.id (if has then s else updDir d k l (dirAnswer u .i) s))

/-- Retry: the request waits for a CreditGrant, or for one of the requester's reservations to be used (R173, R175). -/
def sliceRetry (d k : Nat) (f : Flit) (s : State) : State :=
  if (upAgain s d k f.txn).isSome then
    let x := home s (agUnit f.src)
    let queued := (x.rq ++ x.rsv).any (fun e => decide (e.src = f.dst) && decide (e.txn = f.txn))
    updSlice d k (fun c => { c with refused := c.refused ++ [(f.txn, agUnit f.src, b2n queued)] }) s
  else s

/-- CreditGrant: the request leaves again with RSV (R173). -/
def sliceCredit (d k : Nat) (f : Flit) (s : State) : State :=
  match upAgain s d k f.txn with
  | some q => sendUp d { q with rsv := true } (updSlice d k (fun c => { c with
      refused := c.refused.map (fun e => if e.1 = f.txn then (e.1, e.2.1, 2) else e) }) s)
  | none => s

/-! ### Snoops of the homes (R143, R157) -/

/-- A snoop reaches a slice. -/
def sliceSnoop (d k : Nat) (f : Flit) (s : State) : State :=
  if (f.op = oSnpRgnSplit ∨ f.op = oSnpRgnInv) ∧ (die s d).asg = some f.part then
    sliceRun d k (updSlice d k (fun c => { c with rsnp := c.rsnp ++ [{ f := f }] }) s)
  else sliceRun d k (snpTake d k f s)

/-! ### Requests -/

/-- A request of an L2, or an eviction, reaches its slice (R104, R164). -/
def sliceReq (d k : Nat) (f : Flit) (s : State) : State :=
  if f.op = oWrBackDirty ∨ f.op = oEvictClean then sliceEvict d k f s
  else sliceRun d k (acceptReq d k f s)

/-- An entry of a full set has closed: the first waiting request of such a set is accepted, as a tracker is free (R100). -/
def setWaitRelease (d k : Nat) (s : State) : State :=
  let c := slice s d k
  match freeTx c, c.setWait.find? (fun f => (dirKey c (lineOf f.addr)).isSome || (dirWay c (lineOf f.addr)).isSome) with
  | some _, some f => sliceRun d k (acceptReq d k f (updSlice d k (fun c => { c with setWait := c.setWait.erase f }) s))
  | _, _ => s

end Sys2Proof.Machine
end

