-- ==== Sys2Proof/Machine/MsgOps.lean ====
section
/-! DEFINITION. Delivery of a message: it leaves the wires and reaches the agent that it names, which does what its kind of agent
does with it (R19, R20, R38, R136 to R144, R147, R152, R246, R250).
Log entries with the choices and readings made here: 9, 31, 32, 34, 193, 195. -/

namespace Sys2Proof.Machine

/-! ### Acting -/

/-- A command acts only on a package that is powered and not shut down; then the Cox goes on. -/
def act (g : State → State) (s : State) : Out := if s.pins.pwrok && !s.card.dark then done (coxGo (g s)) else done s

/-- Do both agent IDs of a flit name agents (R20)? -/
def idsOk (f : Flit) : Bool := agValid f.src && agValid f.dst
/-- A flit is of the kind that a command delivers. -/
def isMsg (n : Net) (op : Nat) (f : Flit) : Bool := decide (f.net = n) && decide (f.op = op) && idsOk f

/-- A flit arrives: it leaves the wires, and the Agdel ports that it passed count what it opens and completes (R250). -/
def arrive (f : Flit) (s : State) : State :=
  let a := agDie f.src
  let b := agDie f.dst
  let s := take f s
  if a = b then s
  else
    let s := if a < 12 then closeTxn a f true (if f.net = .req then openTx a f s else s) else s
    if b < 12 then closeTxn b f false s else s

/-- A flit that names a reserved agent: the first network interface, of stop `t` of the I/O die or of compute die `t - 96`, discards
it and records it with the flit's PART (R20, R582). -/
def reservedId (f : Flit) (t : Nat) (s : State) : State :=
  if idsOk f ∨ 108 ≤ t then s
  else logErr (flitErr (if t < 96 then frNi t else frDlog (t - 96)) (if t < 96 then 0x07 else 0x09) false f) (scrap f s)

/-- The interface that a flit with a reserved ID meets first: its sender's, or its receiver's where the sender is the reserved one. -/
def firstNi (f : Flit) : Nat :=
  let a := if agValid f.src then f.src else f.dst
  if !(agValid a) then 108 else if agDie a < 12 then 96 + agDie a else unitStop (agUnit a)

/-- Deliver a message of the kind to its agent: in the order of its way, unless an interface, a port or a stop on its way refuses or
keeps it (R20, R82, R237, R246, R248, R253, R254, R258). DESIGN CHOICE: what is sent to the partner package's agents (DIE 13)
leaves this package without a further effect here; the pair's own messages are commands of their own. -/
def deliver (n : Net) (op : Nat) (g : Flit → State → State) (f : Flit) (s : State) : State :=
  if f.net ≠ n ∨ f.op ≠ op then s
  else if !(idsOk f) then reservedId f (firstNi f) s
  else if !(mayArrive s f) then s
  else match (portMeets f s).orElse (fun _ => meshMeets f s) with
    | some h => h s
    | none => if agDie f.dst = 13 then arrive f s else g f (arrive f s)

/-- The record bank of an agent (Table 17.1), and whether its table of types lists a refused opcode (Table 15.3). -/
def agBank (a : Nat) : Nat × Bool :=
  let u := agUnit a
  if agDie a < 12 then (frDlog (agDie a), false)
  else if u < 0x20 then (frHa u, true)
  else if u < 0x2C then (frStop u, false)
  else if 0x30 ≤ u ∧ u < 0x3C then (frRp (u - 0x30), false)
  else if 0x60 ≤ u ∧ u < 0x64 then (frIc (u - 0x60), false)
  else if 0x68 ≤ u ∧ u < 0x6C then (frBh, false)
  else if u = 0x70 then (frCox, false)
  else (frStop u, false)

/-- A request that its target does not accept is answered with Fault UNSUPPORTED (R147). -/
def refuseReq (f : Flit) (s : State) : State := send (faultRsp f.dst cUNSUPPORTED f) s

/-- A flit with a reserved opcode reaches an agent: Fault to a request, discard of anything else, and a record (R138). -/
def reservedAt (f : Flit) (s : State) : State :=
  let b := agBank f.dst
  let t := if b.2 then ((0x06 : Nat), s) else (let r := drawNat s; (r.1 % 65536, r.2))
  let s := logErr (flitErr b.1 t.1 false f) t.2
  if f.net = .req then refuseReq f s else s

/-- A flit with a reserved opcode comes the way of the others. -/
def reservedOp (f : Flit) (s : State) : State := if opOk f.net f.op then s else deliver f.net f.op reservedAt f s

/-! ### Requests -/

/-- A coherent request or eviction. -/
def reqAt (f : Flit) (s : State) : State :=
  if isSlice f.dst then sliceReq (agDie f.dst) (agUnit f.dst - 64) f s
  else if isHome f.dst then homeReq (agUnit f.dst) f s
  else refuseReq f s

/-- An I/O or configuration request: a register access is served by its block, the rest by the root port or the Boathouse
that owns the function (R152, R336, R365, R549). -/
def ioAt (f : Flit) (s : State) : State :=
  let wr := f.op = oIoWr || f.op = oCfgWr
  let u := agUnit f.dst
  match ioTarget f.addr with
  | .drs fr off =>
    let n := 2 ^ f.size
    if wr then ioAnswer f false 0 (drsWrite f.part fr off n ((f.data.toNat / 256 ^ (f.addr % 64)) % 256 ^ n) s)
    else ioAnswer f false (drsRead s f.part fr off n) s
  | .ecam _ _ => if isRp f.dst then rpIo (u - 0x30) f s else refuseReq f s
  | .rpMem _ _ _ => if isRp f.dst then rpIo (u - 0x30) f s else refuseReq f s
  | .vfCfg _ _ => if agDie f.dst = 12 ∧ 0x68 ≤ u ∧ u < 0x6C then bhIo f s else refuseReq f s
  | .vfBar _ _ => if agDie f.dst = 12 ∧ 0x68 ≤ u ∧ u < 0x6C then bhIo f s else refuseReq f s
  | .none => send (faultRsp f.dst cVACANT f) s

/-- An interrupt message. -/
def intAt (f : Flit) (s : State) : State :=
  if agDie f.dst = 12 ∧ 0x60 ≤ agUnit f.dst ∧ agUnit f.dst < 0x64 then intMsgTake f s else refuseReq f s

/-- A Mail request. -/
def mailAt (f : Flit) (s : State) : State := if f.dst = coxAgent then mailTake f s else refuseReq f s

/-! ### Snoops -/

/-- A snoop reaches an L2, a slice, a root port or a data mover. -/
def engOf (a : Nat) : Option Nat :=
  let u := agUnit a
  if agDie a ≠ 12 then none
  else if 0x30 ≤ u ∧ u < 0x3C then some (u - 0x30)
  else if 0x68 ≤ u ∧ u < 0x6C then some (16 + (u - 0x68))
  else if u = 0x70 then some coxEng
  else none

/-- A data mover of the Boathouse looks at what its engine has finished. -/
def engSync (r : Nat) (s : State) : State := if 16 ≤ r ∧ r < 20 then bhSync r s else s

/-- A snoop. -/
def snpAt (f : Flit) (s : State) : State :=
  if isCore f.dst then afterHart (agHart f.dst) (l2SnpTake (agHart f.dst) f s)
  else if isSlice f.dst then sliceSnoop (agDie f.dst) (agUnit f.dst - 64) f s
  else match engOf f.dst with
    | some r => rpSnoop r f s
    | none => s

/-! ### Responses and data -/

/-- A message for an L2 (`l`), a slice (`c`), or an engine (`e`). -/
def toAgent (l : Nat → Flit → State → State) (c : Nat → Nat → Flit → State → State) (e : Nat → Flit → State → State) (f : Flit) (s : State) : State :=
  if isCore f.dst then afterHart (agHart f.dst) (l (agHart f.dst) f s)
  else if isSlice f.dst then c (agDie f.dst) (agUnit f.dst - 64) f s
  else match engOf f.dst with
    | some r => engSync r (e r f s)
    | none => s

/-- A message for a slice or a home. -/
def toKeeper (c : Nat → Nat → Flit → State → State) (h : Nat → Flit → State → State) (f : Flit) (s : State) : State :=
  if isSlice f.dst then c (agDie f.dst) (agUnit f.dst - 64) f s
  else if isHome f.dst then h (agUnit f.dst) f s
  else s

/-- Fault at an engine. -/
def engFault (r : Nat) (f : Flit) (s : State) : State := if 16 ≤ r ∧ r < 20 then bhFault r f s else rpFault r f s

/-- A message that its agent only takes. -/
def takeOnly (_ : Nat) (_ : Flit) (s : State) : State := s
/-- The same for a slice. -/
def takeSlice (_ _ : Nat) (_ : Flit) (s : State) : State := s

end Sys2Proof.Machine
end

