-- ==== Sys2Proof/Machine/Partition.lean ====
section
/-! DEFINITION. The commands of partitions: the managers' lifecycle commands, harts and the mailbox (chapter 9).
Log entries with the choices and readings made here: 93, 94, 161. -/

namespace Sys2Proof.Machine

/-- A manager writes `MGR_CMD` with an opcode, after the arguments (R309 to R311). -/
def mgrAct (op : Nat) (c : MgrCmd) (s : State) : Out := act (mgrPut op c {}) s

/-- PART_CREATE (R311, Table 9.4). -/
def execPartCreate (c : MgrCmd) (s : State) : Out := mgrAct 0x01 c s

/-- PART_START (R316). -/
def execPartStart (c : MgrCmd) (s : State) : Out := mgrAct 0x02 c s

/-- PART_STOP (R325). -/
def execPartStop (c : MgrCmd) (s : State) : Out := mgrAct 0x03 c s

/-- PART_RESET (R325, Table 9.9). -/
def execPartReset (c : MgrCmd) (s : State) : Out := mgrAct 0x04 c s

/-- PART_DELETE (R311). -/
def execPartDelete (c : MgrCmd) (s : State) : Out := mgrAct 0x05 c s

/-- DIE_EVACUATE (R320, Table 9.7). -/
def execDieEvacuate (c : MgrCmd) (s : State) : Out := mgrAct 0x06 c s

/-- DIE_ADD (R323, Table 9.8). -/
def execDieAdd (c : MgrCmd) (s : State) : Out := mgrAct 0x07 c s

/-- SLAB_ASSIGN (R301, Table 8.13). -/
def execSlabAssign (c : MgrCmd) (s : State) : Out := mgrAct 0x08 c s

/-- SLAB_RELEASE (R301, Table 8.13). -/
def execSlabRelease (c : MgrCmd) (s : State) : Out := mgrAct 0x09 c s

/-- RP_ASSIGN (R311). -/
def execRpAssign (c : MgrCmd) (s : State) : Out := mgrAct 0x0A c s

/-- RP_RELEASE (R311). -/
def execRpRelease (c : MgrCmd) (s : State) : Out := mgrAct 0x0B c s

/-- PART_QUERY (R311). -/
def execPartQuery (c : MgrCmd) (s : State) : Out := mgrAct 0x0C c s

/-- MGR_CMD_RESERVED (R311). -/
def execMgrCmdReserved (c : MgrCmd) (op : Nat) (s : State) : Out := mgrAct (op % 256) c s

/-- LIFECYCLE_STEP_TIMEOUT (R321, R323). -/
def execLifecycleStepTimeout (s : State) : Out := act (fun s => lifeTimeout s) s

/-- SELFRST: PART_CTL.SELFRST (R325). -/
def execSelfrst (p : Nat) (s : State) : Out := act (fun s => if p < 12 then drsWrite p (frPart p) 0x008 8 1 s else s) s

/-- PARK: PART_HARTCMD with OP 0 (R316 to R318). -/
def execPark (p h : Nat) (s : State) : Out := act (fun s => if p < 12 ∧ h < 1024 then drsWrite p (frPart p) 0x028 8 (h + 0) s else s) s

/-- START: PART_HARTCMD with OP 1 (R316 to R318). -/
def execStart (p h : Nat) (s : State) : Out := act (fun s => if p < 12 ∧ h < 1024 then drsWrite p (frPart p) 0x028 8 (h + 1024) s else s) s

/-- PARK_TIMEOUT (R317). -/
def execParkTimeout (h : Nat) (s : State) : Out := act (fun s => parkLate h s) s

/-- SEND: MBX_TXCTL.SEND (R328). -/
def execSend (p dst : Nat) (s : State) : Out := act (fun s => if p < 12 ∧ dst < 16 then drsWrite p (frMail p) 0x040 8 (dst + 256) s else s) s

/-- MBX_RXPOP (R331). -/
def execMbxRxpop (p : Nat) (s : State) : Out := act (fun s => if p < 12 then drsWrite p (frMail p) 0x0C8 8 1 s else s) s

/-- MBX_RXIRQ_WRITE (R331). -/
def execMbxRxirqWrite (p : Nat) (v : Word) (s : State) : Out := act (fun s => if p < 12 then drsWrite p (frMail p) 0x0D0 8 v.toNat s else s) s

end Sys2Proof.Machine
end

