-- ==== Sys2Proof/Machine/Boathouse.lean ====
section
/-! DEFINITION. The commands of the Boathouse: the VFs' registers, NVMe commands, drives and its manager commands (chapter 11).
Log entries with the choices and readings made here: 130, 142, 145, 151. -/

namespace Sys2Proof.Machine

/-- An access of a partition to the register window of a VF (R366, R395). -/
def vfAct (part v : Nat) (g : State → State) (s : State) : Out := act (fun s => let q := vfGate part v s; if q.1 then g q.2 else q.2) s

/-- SQ_TAIL_DOORBELL (R366, R395). -/
def execSqTailDoorbell (part vf y v : Nat) (s : State) : Out := vfAct part vf (sqTail vf y v) s

/-- CQ_HEAD_DOORBELL (R366, R395). -/
def execCqHeadDoorbell (part vf y v : Nat) (s : State) : Out := vfAct part vf (cqHead vf y v) s

/-- CC_EN_SET (R367). -/
def execCcEnSet (part vf : Nat) (cc : BitVec 32) (acq : Option Nat) (s : State) : Out := vfAct part vf (ccEnSet vf cc.toNat acq) s

/-- CONTROLLER_RESET (R391). -/
def execControllerReset (part vf : Nat) (s : State) : Out := vfAct part vf (ctrlReset vf) s

/-- ADMIT (R384 to R388). -/
def execBqeAdmission (vf q : Nat) (e : Sqe) (fetchFault : Bool) (s : State) : Out := act (fun s => bqeAdmit vf q e fetchFault s) s

/-- DELETE_IO_SQ (R391). -/
def execDeleteIoSq (vf : Nat) (s : State) : Out := act (fun s => deleteSq vf s) s

/-- CREATE_IO_SQ (R371). -/
def execCreateIoSq (vf : Nat) (s : State) : Out := act (fun s => createSq vf s) s

/-- GET_LOG_PAGE (R370). -/
def execGetLogPage (vf : Nat) (s : State) : Out := act (fun s => getLogPage vf s) s

/-- DELETE_IO_CQ (R370). -/
def execDeleteIoCq (vf : Nat) (s : State) : Out := act (fun s => deleteCq vf s) s

/-- CREATE_IO_CQ (R371). -/
def execCreateIoCq (vf : Nat) (s : State) : Out := act (fun s => createCq vf s) s

/-- IDENTIFY (R370). -/
def execIdentify (vf : Nat) (s : State) : Out := act (fun s => identify vf s) s

/-- ABORT (R391). -/
def execAbort (vf : Nat) (s : State) : Out := act (fun s => abortCmd vf s) s

/-- SET_FEATURES (R370). -/
def execSetFeatures (vf : Nat) (s : State) : Out := act (fun s => setFeatures vf s) s

/-- GET_FEATURES (R370). -/
def execGetFeatures (vf : Nat) (s : State) : Out := act (fun s => getFeatures vf s) s

/-- ASYNCHRONOUS_EVENT_REQUEST (R384). -/
def execAsynchronousEventRequest (vf : Nat) (s : State) : Out := act (fun s => aerTake vf s) s

/-- NVME_INVALID_OPCODE (R370). -/
def execNvmeInvalidOpcode (vf n : Nat) (s : State) : Out := act (fun s => badOpcode vf n s) s

/-- FLUSH (R390). -/
def execFlush (n : Nat) (s : State) : Out := act (fun s => flushBegin n s) s

/-- WRITE (R377 to R380). -/
def execWrite (n : Nat) (s : State) : Out := act (fun s => rwBegin 1 n s) s

/-- READ (R377 to R380). -/
def execRead (n : Nat) (s : State) : Out := act (fun s => rwBegin 2 n s) s

/-- COMPARE (R377 to R380). -/
def execCompare (n : Nat) (s : State) : Out := act (fun s => rwBegin 5 n s) s

/-- WRITE_ZEROES (R377 to R380). -/
def execWriteZeroes (n : Nat) (s : State) : Out := act (fun s => rwBegin 8 n s) s

/-- DATASET_MANAGEMENT (R377 to R380). -/
def execDatasetManagement (n : Nat) (s : State) : Out := act (fun s => rwBegin 9 n s) s

/-- RANGE_LOCK_GRANT (R389). -/
def execRangeLockGrant (n : Nat) (s : State) : Out := act (fun s => bhSettle (lockGrant n s)) s

/-- BACKING_COMPLETION (R378, R379). -/
def execBackingCompletion (n : Nat) (ok : Bool) (s : State) : Out := act (fun s => backDone n ok s) s

/-- BACKING_TIMEOUT (R379, R406). -/
def execBackingTimeout (n : Nat) (s : State) : Out := act (fun s => backDone n false s) s

/-- MAP_COMMIT_COMPLETE (R379 to R381). -/
def execMapCommitComplete (nsid span : Nat) (ok : Bool) (s : State) : Out := act (fun s => commitDone (spanKey nsid span) ok s) s

/-- FLR (R392). -/
def execFlr (vf : Nat) (s : State) : Out := act (fun s => flrVf vf s) s

/-- PS1_ENTRY (R394). -/
def execPs1Entry (vf : Nat) (s : State) : Out := act (fun s => ps1Entry vf s) s

/-- PROXY_ACCESS (R396, R397). -/
def execProxyAccess (rp rid page off : Nat) (wr : Bool) (data : List (BitVec 8)) (s : State) : Out := act (fun s => proxyAccess rp rid page off wr data s) s

/-- DRIVE_LOST (R406). -/
def execDriveLost (drv : Nat) (s : State) : Out := act (fun s => driveLost drv s) s

/-- POOL_REBUILD_DONE (R383). -/
def execPoolRebuildDone (p : Nat) (maps : List (Nat × Nat × List (BitVec 8))) (s : State) : Out := act (fun s => poolRebuilt p maps s) s

/-- BH_DRIVE_ATTACH (R373), with what the drive answers. -/
def execBhDriveAttach (c : MgrCmd) (id : DriveId) (s : State) : Out := act (mgrPut 0x20 c id) s

/-- BH_DRIVE_DETACH (R397). -/
def execBhDriveDetach (c : MgrCmd) (s : State) : Out := mgrAct 0x21 c s

/-- BH_POOL_ADD (R397). -/
def execBhPoolAdd (c : MgrCmd) (s : State) : Out := mgrAct 0x22 c s

/-- BH_POOL_REMOVE (R397). -/
def execBhPoolRemove (c : MgrCmd) (s : State) : Out := mgrAct 0x23 c s

/-- BH_NS_CREATE (R375). -/
def execBhNsCreate (c : MgrCmd) (s : State) : Out := mgrAct 0x24 c s

/-- BH_NS_DELETE (R397). -/
def execBhNsDelete (c : MgrCmd) (s : State) : Out := mgrAct 0x25 c s

/-- BH_NS_ATTACH (R397). -/
def execBhNsAttach (c : MgrCmd) (s : State) : Out := mgrAct 0x26 c s

/-- BH_NS_DETACH (R397). -/
def execBhNsDetach (c : MgrCmd) (s : State) : Out := mgrAct 0x27 c s

/-- BH_VF_CREATE (R399). -/
def execBhVfCreate (c : MgrCmd) (s : State) : Out := mgrAct 0x28 c s

/-- BH_VF_DELETE (R397). -/
def execBhVfDelete (c : MgrCmd) (s : State) : Out := mgrAct 0x29 c s

/-- BH_VF_SHARE (R387). -/
def execBhVfShare (c : MgrCmd) (s : State) : Out := mgrAct 0x2A c s

/-- BH_VF_FREEZE (R401). -/
def execBhVfFreeze (c : MgrCmd) (s : State) : Out := mgrAct 0x2B c s

/-- VF_FREEZE_TIMEOUT (R401). -/
def execVfFreezeTimeout (vf : Nat) (s : State) : Out := act (fun s => freezeTimeout vf s) s

/-- BH_VF_SAVE (R402). -/
def execBhVfSave (c : MgrCmd) (s : State) : Out := mgrAct 0x2C c s

/-- BH_VF_RESTORE (R403). -/
def execBhVfRestore (c : MgrCmd) (s : State) : Out := mgrAct 0x2D c s

/-- BH_VF_THAW (R403). -/
def execBhVfThaw (c : MgrCmd) (s : State) : Out := mgrAct 0x2E c s

/-- BH_DIRTY_LOG (R404). -/
def execBhDirtyLog (c : MgrCmd) (s : State) : Out := mgrAct 0x2F c s

/-- BH_FW_ACTIVATE: FW_ACTIVATE of the BHFW section (R464, R393, Table 13.13). -/
def execBhFwActivate (c : MgrCmd) (s : State) : Out := mgrAct 0x36 { c with a0 := c.a0 ||| 2 } s

/-- BH_ACTIVATION_ABANDON (R393). -/
def execBhActivationAbandon (s : State) : Out := act (fun s => bhAbandon s) s

/-- INTERRUPT_COALESCING_TIME (R370). -/
def execInterruptCoalescingTime (vf : Nat) (s : State) : Out := act (fun s => bhIrqAll vf s) s

end Sys2Proof.Machine
end

