-- ==== Sys2Proof/Machine/Card.lean ====
section
/-! DEFINITION. The commands of the start, the Race Card, firmware activation and self-tests (chapter 13).
Log entries with the choices and readings made here: 6. -/

namespace Sys2Proof.Machine

/-- An edge of a package pin: it acts whatever the state of the package. -/
def pinAct (g : State → State) (s : State) : Out := done (coxGo (g s))

/-- PWROK_RISE (R569 to R571). -/
def execPwrokRise (hw : Hw) (s : State) : Out := pinAct (pwrokRise hw) s

/-- PKG_RST_N_RISE (R569 to R571). -/
def execPkgRstNRise (hw : Hw) (s : State) : Out := pinAct (rstRise hw) s

/-- PKG_RST_N_FALL (R569 to R571). -/
def execPkgRstNFall (ns : Nat) (s : State) : Out := pinAct (rstFall ns) s

/-- PWROK_FALL (R569 to R571). -/
def execPwrokFall (s : State) : Out := pinAct (pwrokFall) s

/-- START_STEP_FAIL (R459, R458). -/
def execStartStepFail (step : Nat) (s : State) : Out := act (fun s => stepFail step s) s

/-- RC_WRITE (R467, Table 13.13). -/
def execRcWrite (c : MgrCmd) (s : State) : Out := mgrAct 0x30 c s

/-- RC_VERIFY (R448, Table 13.13). -/
def execRcVerify (c : MgrCmd) (s : State) : Out := mgrAct 0x31 c s

/-- RC_DISARM (R467, Table 13.13). -/
def execRcDisarm (c : MgrCmd) (s : State) : Out := mgrAct 0x32 c s

/-- RC_ROLLBACK (R455, Table 13.13). -/
def execRcRollback (c : MgrCmd) (s : State) : Out := mgrAct 0x33 c s

/-- RC_READ (R467, Table 13.13). -/
def execRcRead (c : MgrCmd) (s : State) : Out := mgrAct 0x34 c s

/-- RC_SVN_RAISE (R467, Table 13.13). -/
def execRcSvnRaise (c : MgrCmd) (s : State) : Out := mgrAct 0x35 c s

/-- COX_FW_ACTIVATE: FW_ACTIVATE of the COXFW section (R465, Table 13.12). -/
def execCoxFwActivate (c : MgrCmd) (s : State) : Out := mgrAct 0x36 { c with a0 := c.a0 ||| 1 } s

/-- HEARTBEAT_MISS (R465). -/
def execHeartbeatMiss (s : State) : Out := act (fun s => heartbeatMiss s) s

/-- PROBATION_END (R466). -/
def execProbationEnd (s : State) : Out := act (fun s => probationEnd s) s

/-- LOCKSTEP_MISCOMPARE (R511, R465, Table 15.3). -/
def execLockstepMiscompare (active : Bool) (s : State) : Out := act (fun s => miscompare active s) s

/-- WARM_START (R457). -/
def execWarmStart (c : MgrCmd) (s : State) : Out := mgrAct 0x38 c s

/-- LOG_READ (R467, Table 13.13). -/
def execLogRead (c : MgrCmd) (s : State) : Out := mgrAct 0x39 c s

/-- DIE_BIST: SELFTEST of code 1 (R462, Table 13.11). -/
def execDieBist (c : MgrCmd) (s : State) : Out := mgrAct 0x37 { c with a0 := 1 } s

/-- LINK_FULL: SELFTEST of code 2 (R462, Table 13.11). -/
def execLinkFull (c : MgrCmd) (s : State) : Out := mgrAct 0x37 { c with a0 := 2 } s

/-- MEM_TEST: SELFTEST of code 3 (R462, Table 13.11). -/
def execMemTest (c : MgrCmd) (s : State) : Out := mgrAct 0x37 { c with a0 := 3 } s

/-- RP_MARGIN: SELFTEST of code 4 (R462, Table 13.11). -/
def execRpMargin (c : MgrCmd) (s : State) : Out := mgrAct 0x37 { c with a0 := 4 } s

/-- WG_RECAL: SELFTEST of code 5 (R213, Table 13.11). -/
def execWgRecal (c : MgrCmd) (s : State) : Out := mgrAct 0x37 { c with a0 := 5 } s

/-- L3_BANK: SELFTEST of code 6 (R463, Table 13.11). -/
def execL3Bank (c : MgrCmd) (s : State) : Out := mgrAct 0x37 { c with a0 := 6 } s

/-- SELFTEST_COMPLETE (R462, R463). -/
def execSelftestComplete (result : Nat) (detail : Nat) (pages : List (Nat × Nat)) (s : State) : Out := act (fun s => testDone result detail pages s) s

/-- ERR_INJECT (R528). -/
def execErrInject (c : MgrCmd) (s : State) : Out := mgrAct 0x10 c s

/-- COX_ACTIVATION_TIMEOUT (R465). -/
def execCoxActivationTimeout (step : Nat) (s : State) : Out := act (fun s => fwTimeout step s) s

end Sys2Proof.Machine
end

