-- ==== Sys2Proof/Machine/Coherence.lean ====
section
/-! DEFINITION. The messages of the Agdel protocol at the agents that receive them, and the events of a home (chapters 4
and 5).
Log entries with the choices and readings made here: 34, 36, 37, 38, 97. -/

namespace Sys2Proof.Machine

/-- RDSHARED (R149). -/
def execRdshared (f : Flit) (s : State) : Out := act (deliver .req oRdShared reqAt f) s

/-- RDOWN (R149). -/
def execRdown (f : Flit) (s : State) : Out := act (deliver .req oRdOwn reqAt f) s

/-- UPGRADE (R162). -/
def execUpgrade (f : Flit) (s : State) : Out := act (deliver .req oUpgrade reqAt f) s

/-- CLAIMOWN (R142, R149). -/
def execClaimown (f : Flit) (s : State) : Out := act (deliver .req oClaimOwn reqAt f) s

/-- RDONCE (R149). -/
def execRdonce (f : Flit) (s : State) : Out := act (deliver .req oRdOnce reqAt f) s

/-- RDRGN (R127). -/
def execRdrgn (f : Flit) (s : State) : Out := act (deliver .req oRdRgn reqAt f) s

/-- WRFULL, its data with it (R149). -/
def execWrfull (f : Flit) (s : State) : Out := act (deliver .req oWrFull reqAt f) s

/-- WRBACKDIRTY, its data with it (R164, R165). -/
def execWrbackdirty (f : Flit) (s : State) : Out := act (deliver .req oWrBackDirty reqAt f) s

/-- EVICTCLEAN (R164, R165). -/
def execEvictclean (f : Flit) (s : State) : Out := act (deliver .req oEvictClean reqAt f) s

/-- RGNREL, its map with it (R130, R169). -/
def execRgnrel (f : Flit) (s : State) : Out := act (deliver .req oRgnRel reqAt f) s

/-- CBOCLEAN (R150). -/
def execCboclean (f : Flit) (s : State) : Out := act (deliver .req oCboClean reqAt f) s

/-- CBOFLUSH (R150). -/
def execCboflush (f : Flit) (s : State) : Out := act (deliver .req oCboFlush reqAt f) s

/-- IORD (R152). -/
def execIord (f : Flit) (s : State) : Out := act (deliver .req oIoRd ioAt f) s

/-- IOWR (R152). -/
def execIowr (f : Flit) (s : State) : Out := act (deliver .req oIoWr ioAt f) s

/-- CFGRD (R152). -/
def execCfgrd (f : Flit) (s : State) : Out := act (deliver .req oCfgRd ioAt f) s

/-- CFGWR (R152). -/
def execCfgwr (f : Flit) (s : State) : Out := act (deliver .req oCfgWr ioAt f) s

/-- INTMSG (R348). -/
def execIntmsg (f : Flit) (s : State) : Out := act (deliver .req oIntMsg intAt f) s

/-- MAIL (R329). -/
def execMail (f : Flit) (s : State) : Out := act (deliver .req oMail mailAt f) s

/-- RESERVED_OPCODE (R138). -/
def execReservedOpcode (f : Flit) (s : State) : Out := act (reservedOp f) s

/-- RSVD_ID (R20). -/
def execRsvdId (f : Flit) (stop : Nat) (s : State) : Out := act (reservedId f stop) s

/-- REGION_SPLIT_DONE (R128, Table 4.4 step 5, R130). -/
def execRegionSplitDone (ha g : Nat) (s : State) : Out := act (fun s => if ha < 32 then splitDone ha g s else s) s

/-- SNPSHARED (R143 to R146, R157, R162, R167). -/
def execSnpshared (f : Flit) (s : State) : Out := act (deliver .snp oSnpShared snpAt f) s

/-- SNPOWN (R143 to R146, R157, R162, R167). -/
def execSnpown (f : Flit) (s : State) : Out := act (deliver .snp oSnpOwn snpAt f) s

/-- SNPINV (R143 to R146, R157, R162, R167). -/
def execSnpinv (f : Flit) (s : State) : Out := act (deliver .snp oSnpInv snpAt f) s

/-- SNPCUR (R143 to R146, R157, R162, R167). -/
def execSnpcur (f : Flit) (s : State) : Out := act (deliver .snp oSnpCur snpAt f) s

/-- SNPCLEAN (R143 to R146, R157, R162, R167). -/
def execSnpclean (f : Flit) (s : State) : Out := act (deliver .snp oSnpClean snpAt f) s

/-- BACKINV (R143 to R146, R157, R162, R167). -/
def execBackinv (f : Flit) (s : State) : Out := act (deliver .snp oBackInv snpAt f) s

/-- SNPRGNSPLIT (R128, Table 4.4, R168, R169). -/
def execSnprgnsplit (f : Flit) (s : State) : Out := act (deliver .snp oSnpRgnSplit snpAt f) s

/-- SNPRGNINV (R131, R168, R169). -/
def execSnprgninv (f : Flit) (s : State) : Out := act (deliver .snp oSnpRgnInv snpAt f) s

/-- COMP (R140). -/
def execComp (f : Flit) (s : State) : Out := act (deliver .rsp oComp (toAgent l2Comp sliceComp rpComp) f) s

/-- COMPACK (R139, R161). -/
def execCompack (f : Flit) (s : State) : Out := act (deliver .rsp oCompAck (toKeeper sliceCompAck homeCompAck) f) s

/-- SNPRSP (R144, R149). -/
def execSnprsp (f : Flit) (s : State) : Out := act (deliver .rsp oSnpRsp (toKeeper sliceSnpRsp homeSnpRsp) f) s

/-- EVICTACK (R166). -/
def execEvictack (f : Flit) (s : State) : Out := act (deliver .rsp oEvictAck (toAgent l2EvictAck sliceEvictAck rpEvictAck) f) s

/-- RETRY (R171, R173, R175). -/
def execRetry (f : Flit) (s : State) : Out := act (deliver .rsp oRetry (toAgent takeOnly sliceRetry rpRetry) f) s

/-- CREDITGRANT (R173). -/
def execCreditgrant (f : Flit) (s : State) : Out := act (deliver .rsp oCreditGrant (toAgent takeOnly sliceCredit rpCredit) f) s

/-- FAULT (R38, R338, R584). -/
def execFault (f : Flit) (s : State) : Out := act (deliver .rsp oFault (toAgent l2Fault sliceFault engFault) f) s

/-- IOCOMP (R37). -/
def execIocomp (f : Flit) (s : State) : Out := act (deliver .rsp oIoComp (toAgent l2Io takeSlice rpIoComp) f) s

/-- DATA (R140, R149). -/
def execData (f : Flit) (s : State) : Out := act (deliver .dat oData (toAgent l2Data sliceData rpData) f) s

/-- DATACOPY (R149). -/
def execDatacopy (f : Flit) (s : State) : Out := act (deliver .dat oDataCopy (toAgent l2Data sliceData rpData) f) s

/-- SNPDATA (R131, R153, R163). -/
def execSnpdata (f : Flit) (s : State) : Out := act (deliver .dat oSnpData (toKeeper sliceSnpData homeSnpData) f) s

/-- RGNMAP (R128, Table 4.4 step 4). -/
def execRgnmap (f : Flit) (s : State) : Out := act (deliver .dat oRgnMap (toKeeper takeSlice homeRgnMap) f) s

/-- IODATA (R38). -/
def execIodata (f : Flit) (s : State) : Out := act (deliver .dat oIoData (toAgent l2Io takeSlice takeOnly) f) s

/-- SNP_TIMEOUT, whose time does not pass while the port of the agent's die parks (R178, R257). -/
def execSnpTimeout (ha txn agent : Nat) (s : State) : Out := act (fun s => if ha < 32 ∧ !(decide (agDie agent < 12) && parking s (agDie agent)) = true then snpTimeout ha txn agent s else s) s

/-- RSVTMO (R174). -/
def execRsvtmo (ha src txn : Nat) (s : State) : Out := act (fun s => if ha < 32 then rsvTimeout ha src txn s else s) s

/-- TEARDOWN (R182, Table 5.4 steps 1 to 3). -/
def execTeardown (ha p : Nat) (s : State) : Out := act (fun s => teardown ha p s) s

/-- TEARDOWN_COMPLETE (R182, Table 5.4 step 4). -/
def execTeardownComplete (ha p : Nat) (s : State) : Out := act (fun s => teardownDone ha p s) s

/-- TEARDOWN_TIMEOUT (R185). -/
def execTeardownTimeout (ha p : Nat) (s : State) : Out := act (fun s => teardownTimeout ha p s) s

/-- RESUME (R325). -/
def execResume (ha p : Nat) (s : State) : Out := act (fun s => resume ha p s) s

end Sys2Proof.Machine
end

