-- ==== Sys2Proof/Machine/Die.lean ====
section
/-! DEFINITION. The commands of a compute die's slices and of its E4: requests, way locks and range invalidations (chapter 3).
Log entries with the choices and readings made here: 25. -/

namespace Sys2Proof.Machine

/-- SLICE_REQUEST: a request or eviction of an L2 (R104). -/
def execSliceRequest (f : Flit) (s : State) : Out := act (fun s => if f.net = .req ∧ isSlice f.dst = true ∧ agDie f.src = agDie f.dst ∧ isCore f.src = true ∧ 1 ≤ f.op ∧ f.op ≤ 12 ∧ mayArrive s f = true then
    reqAt f (arrive f s) else s) s

/-- SET_WAIT_RELEASE (R100). -/
def execSetWaitRelease (d sl : Nat) (s : State) : Out := act (fun s => if d < 12 ∧ sl < 24 then setWaitRelease d sl s else s) s

/-- L3_LOCK_CTL_WRITE, by a partition that sees the die's frame (R107, R108). -/
def execL3LockCtlWrite (d n : Nat) (v : Word) (part : Nat) (s : State) : Out := act (fun s => if d < 12 ∧ n < 4 then drsWrite part (frDie d) (0x110 + 0x20 * n) 8 v.toNat s else s) s

/-- L3_LOCK_SWEEP_DONE (R108). -/
def execL3LockSweepDone (d : Nat) (s : State) : Out := act (fun s => if d < 12 then sweepDone d s else s) s

/-- RANGE_INVALIDATE: the Cox's CoxCmd reaches E4 (R112, R113). -/
def execRangeInvalidate (d lo hi : Nat) (s : State) : Out := act (fun s => if d < 12 ∧ lo ≤ hi then rangeTake d lo hi (arrive (rangeFlit d lo hi) s) else s) s

/-- RANGE_INVAL_COMPLETE (R113). -/
def execRangeInvalComplete (d : Nat) (s : State) : Out := act (fun s => if d < 12 then rangeComplete d s else s) s

/-- RANGE_TIMEOUT (R113). -/
def execRangeTimeout (d : Nat) (s : State) : Out := act (fun s => if d < 12 then rangeTimeout d s else s) s

/-- RANGE_NORESP (R113). -/
def execRangeNoresp (d : Nat) (s : State) : Out := act (fun s => if d < 12 then rangeNoresp d s else s) s

end Sys2Proof.Machine
end

