-- ==== Sys2Proof/Machine/Link.lean ====
section
/-! DEFINITION. The commands of the Agdel links: flits and credits, the sideband, training, repair, low power and losses (chapter 6), and the rate calls that the sideband carries (chapter 14).
Log entries with the choices and readings made here: 47, 51, 52, 133. -/

namespace Sys2Proof.Machine

/-- A register write made by a partition, or by the system (15). -/
def wrAs (p f off v : Nat) (s : State) : State := if p < 12 ∨ p = 15 then drsWrite p f off 8 v s else s

/-- A write of `LNK_CTL` of the I/O-die end with a command, the other fields as they are (Table 6.15). -/
def linkCtl (d cmd part : Nat) (s : State) : State :=
  if d < 12 then wrAs part (frAp d) 0x408 (setBits (reg s (frAp d) 0x408).toNat 0 5 cmd) s else s

/-- LINK_FLIT_SEND: toward the die (`dir` 0) the port takes a flit for its die, from the die (1) its end sends one (R188, R200, R253 to R258). -/
def execLinkFlitSend (ap dir : Nat) (f : Flit) (s : State) : Out := act (fun s => if ap < 12 ∧ dir < 2 then (if dir = 0 then apOutbound ap f s else if agDie f.src = ap ∧ agDie f.dst ≠ ap then linkSend ap true f s else s) else s) s

/-- LINK_FLIT_RECEIVE (R191, R192, R200). -/
def execLinkFlitReceive (ap dir q : Nat) (net : Net) (errs : List LaneErr) (s : State) : Out := act (fun s => if ap < 12 ∧ dir < 2 ∧ q < 4 then linkReceive ap (dir = 1) q net errs s else s) s

/-- LINKCREDIT: credits of the pools of direction `dir` return to their transmitter (R201). -/
def execLinkcredit (ap dir : Nat) (q : CreditVia) (nreq nsnp nrsp ndat : Nat) (s : State) : Out := act (fun s => if ap < 12 ∧ dir < 2 ∧ q.quarter < 4 then creditTake ap (dir = 1) q.quarter [nreq, nsnp, nrsp, ndat] q.errs s else s) s

/-- RATE_CALL_SEND (R205). -/
def execRateCallSend (d : Nat) (s : State) : Out := act (fun s => if sbWorks s d then rateCallSend d s else s) s

/-- RATE_CALL (R479, R480). -/
def execRateCall (d : Nat) (body : BitVec 48) (s : State) : Out := act (fun s => if sbWorks s d then rateCallTake d body.toNat s else s) s

/-- RATE_CALL_MISS (R205, R480). -/
def execRateCallMiss (d : Nat) (s : State) : Out := act (fun s => if sbWorks s d then rateCallMiss d s else s) s

/-- DEMAND (R478). -/
def execDemand (d : Nat) (body : BitVec 48) (s : State) : Out := act (fun s => if sbWorks s d then demandTake d body.toNat s else s) s

/-- DEMAND_MISS (R478). -/
def execDemandMiss (d : Nat) (s : State) : Out := act (fun s => if d < 12 then demandMiss d s else s) s

/-- HELLO at the I/O-die end (R207, R220). -/
def execHello (d : Nat) (body : BitVec 48) (s : State) : Out := act (fun s => if sbWorks s d then helloTake d body.toNat (sbTake d true 0x08 body.toNat s) else s) s

/-- HELLO_ACK at the die end (R207, R208). -/
def execHelloAck (d pos : Nat) (accept : Bool) (s : State) : Out := act (fun s => if sbWorks s d then helloAckTake d accept (sbTake d false 0x09 (pos + 16 * b2n accept) s) else s) s

/-- TRAIN_STEP of one end, with what its receivers found (R207, Tables 6.10 and 6.12). -/
def execTrainStep (d : Nat) (dieEnd : Bool) (step : Nat) (pass : Bool) (finds : List WgFind) (s : State) : Out := act (fun s => if sbWorks s d then leaveD3 d (trainStep d dieEnd step pass finds s) else s) s

/-- TRAIN_FAIL: the step that runs exceeds its bound (R207). -/
def execTrainFail (d : Nat) (s : State) : Out := act (fun s => if sbWorks s d then trainOver d s else s) s

/-- WIDTH_BEACON_SEND (R216). -/
def execWidthBeaconSend (d : Nat) (s : State) : Out := act (fun s => if sbWorks s d then (if linkSt s d false = lL0 then sendBeacons d s else s) else s) s

/-- WIDTH_BEACON at the die end (R215, R216). -/
def execWidthBeacon (d : Nat) (body : BitVec 48) (s : State) : Out := act (fun s => if sbWorks s d then beaconTake d body.toNat (sbTake d false 0x10 body.toNat s) else s) s

/-- WIDTH_REPORT at the I/O-die end (R215, R216). -/
def execWidthReport (d : Nat) (body : BitVec 48) (s : State) : Out := act (fun s => if sbWorks s d then reportTake d body.toNat (sbTake d true 0x11 body.toNat s) else s) s

/-- REPAIR at a transmitter (R211). -/
def execRepair (d : Nat) (dieEnd : Bool) (body : BitVec 48) (s : State) : Out := act (fun s => if sbWorks s d then repairTake d dieEnd body.toNat (sbTake d (!dieEnd) 0x18 body.toNat s) else s) s

/-- REPAIR_ACK at a receiver (R211). -/
def execRepairAck (d : Nat) (dieEnd : Bool) (body : BitVec 48) (s : State) : Out := act (fun s => if sbWorks s d then repairAck d dieEnd body.toNat (sbTake d (!dieEnd) 0x19 body.toNat s) else s) s

/-- REPAIR_SWITCH of a group that an end receives (R211). -/
def execRepairSwitch (d : Nat) (dieEnd : Bool) (wg : Nat) (s : State) : Out := act (fun s => if d < 12 then (if wg < 96 then repairSwitch d (wgKey (!dieEnd) wg) s else s) else s) s

/-- REPAIR_WINDOW_END (R211). -/
def execRepairWindowEnd (d : Nat) (dieEnd : Bool) (s : State) : Out := act (fun s => if d < 12 then repairWindowEnd d dieEnd s else s) s

/-- AUTO_RECAL (R213). -/
def execAutoRecal (d : Nat) (dieEnd : Bool) (wg : Nat) (s : State) : Out := act (fun s => if d < 12 then autoRecal d dieEnd wg s else s) s

/-- PWR_REQ at the die end (R217). -/
def execPwrReq (d target : Nat) (s : State) : Out := act (fun s => if sbWorks s d then pwrReqTake d target s else s) s

/-- PWR_ACK at the I/O-die end (R217, R487). -/
def execPwrAck (d : Nat) (grant : Bool) (s : State) : Out := act (fun s => if sbWorks s d then pwrAck d grant s else s) s

/-- WAKE_PATTERN, driven by either end (R218). -/
def execWakePattern (d : Nat) (fromDie : Bool) (pat : BitVec 8) (s : State) : Out := act (fun s => if sbWorks s d then wakePattern d fromDie pat.toNat s else s) s

/-- SIDEBAND_BAD_FRAME (R203). -/
def execSidebandBadFrame (d : Nat) (dieEnd : Bool) (frame : BitVec 64) (s : State) : Out := act (fun s => if sbWorks s d then badFrame d dieEnd frame.toNat s else s) s

/-- SIDEBAND_RESEND (R204). -/
def execSidebandResend (d : Nat) (dieEnd : Bool) (ty : Nat) (s : State) : Out := act (fun s => if sbWorks s d then sbResend d dieEnd ty s else s) s

/-- SB_RST_N_RELEASE (R206, R207). -/
def execSbRstNRelease (d : Nat) (s : State) : Out := act (fun s => if d < 12 then rstRelease d s else s) s

/-- SB_RST_N_ASSERT, which the Cox makes only on an evacuated die (R219, R322). -/
def execSbRstNAssert (d : Nat) (s : State) : Out := act (fun s => if d < 12 then rstAssert d s else s) s

/-- FCLK_LOSS (R220). -/
def execFclkLoss (d q groups : Nat) (s : State) : Out := act (fun s => if d < 12 then (if q < 4 then fclkLoss d groups s else s) else s) s

/-- SB_UP_CLK_LOSS (R220). -/
def execSbUpClkLoss (d : Nat) (s : State) : Out := act (fun s => if d < 12 then anyLoss d s else s) s

/-- SB_FATAL_N (R220). -/
def execSbFatalN (d : Nat) (s : State) : Out := act (fun s => if d < 12 then anyLoss d s else s) s

/-- DIE_END_CLOCK_LOSS (R220). -/
def execDieEndClockLoss (d : Nat) (s : State) : Out := act (fun s => if d < 12 then dieEndLoss d s else s) s

/-- RETRAIN: LNK_CTL.CMD 1 (R208, R225). -/
def execRetrain (d : Nat) (part : Nat) (s : State) : Out := act (fun s => linkCtl d 1 part s) s

/-- RETRAIN_FULL: LNK_CTL.CMD 2 with CLRMASK (R208, R214, R225). -/
def execRetrainFull (d : Nat) (clr : Bool) (part : Nat) (s : State) : Out := act (fun s => linkCtl d (2 + 16 * b2n clr) part s) s

/-- HOLD: LNK_CTL.CMD 3 (R225). -/
def execHold (d : Nat) (part : Nat) (s : State) : Out := act (fun s => linkCtl d 3 part s) s

/-- RECAL: LNK_CTL.CMD 4 (R213, R225). -/
def execRecal (d : Nat) (part : Nat) (s : State) : Out := act (fun s => linkCtl d 4 part s) s

/-- LNK_CUT_WRITE, of LNK_CUT_OUT or LNK_CUT_IN (R197, R226). -/
def execLnkCutWrite (d : Nat) (out : Bool) (v : Word) (part : Nat) (s : State) : Out := act (fun s => if d < 12 then wrAs part (frAp d) (if out then 0x418 else 0x410) v.toNat s else s) s

/-- LNK_ERR_INJ_WRITE (R223, R525). -/
def execLnkErrInjWrite (d : Nat) (dieEnd : Bool) (v : Word) (part : Nat) (s : State) : Out := act (fun s => if d < 12 then wrAs part (frEnd d dieEnd) 0x530 v.toNat s else s) s

end Sys2Proof.Machine
end

