-- ==== Sys2Proof/Machine/Fabric.lean ====
section
/-! DEFINITION. The commands of the I/O-die fabric: network interfaces, epochs, stops, fences, parking and probes (chapter 7).
Log entries with the choices and readings made here: 42, 44. -/

namespace Sys2Proof.Machine

/-- NI_INJECT: an NI sends a flit of its agent; one that names a reserved agent it discards (R20, R237, R240, R247, R255). -/
def execNiInject (stop : Nat) (f : Flit) (s : State) : Out := act (fun s => if !(idsOk f) then reservedId f stop s else if inOrder s f then niInject stop f s else s) s

/-- DISABLED_STOP_REFUSE (R248). -/
def execDisabledStopRefuse (stop : Nat) (f : Flit) (s : State) : Out := act (fun s => if stop < 96 then disabledRefuse stop f s else s) s

/-- SWITCH: IOF_EPOCH_CTL.SWITCH (R244). -/
def execSwitch (part : Nat) (s : State) : Out := act (fun s => wrAs part frIof 0 1 s) s

/-- OLDCNT_DRAINED (R247). -/
def execOldcntDrained (s : State) : Out := act (fun s => if oldCnt s = 0 then niRelease s else s) s

/-- IOF_STOP_CTL_WRITE (R246). -/
def execIofStopCtlWrite (stop : Nat) (v : Word) (part : Nat) (s : State) : Out := act (fun s => if stop < 96 then wrAs part frIof (0x100 + 8 * stop) v.toNat s else s) s

/-- ROUTE_ENTRY_WRITE (R242, R243). -/
def execRouteEntryWrite (stop bank e : Nat) (v : Word) (part : Nat) (s : State) : Out := act (fun s => if stop < 96 ∧ bank < 2 ∧ e < 97 then wrAs part (frNi stop) (0x1000 + 0x400 * bank + 8 * e) v.toNat s else s) s

/-- AP_INBOUND_FLIT (R155, R250, R251, R253). -/
def execApInboundFlit (ap : Nat) (f : Flit) (s : State) : Out := act (fun s => if agDie f.src = ap then apInbound ap f s else s) s

/-- SOFT_FENCE: FENCE_CTL with REQ 1 and MODE 0, of an AP, or of root port `port - 16` (R250, Table 7.7). -/
def execSoftFence (port part : Nat) (s : State) : Out := act (fun s => if portOk port then wrAs part (frPort port) 0x600 1 s else s) s

/-- FENCED (R250, Table 7.7). -/
def execFenced (port : Nat) (s : State) : Out := act (fun s => if portOk port then (let t := fencedNow port s; if port < 12 then d3Advance port t else t) else s) s

/-- FENCE_TIMEOUT (R251). -/
def execFenceTimeout (port : Nat) (s : State) : Out := act (fun s => if portOk port then fenceTimeout port s else s) s

/-- HARD_FENCE: FENCE_CTL with REQ 1 and MODE 1 (R253). -/
def execHardFence (port part : Nat) (s : State) : Out := act (fun s => if portOk port then wrAs part (frPort port) 0x600 3 s else s) s

/-- FENCE_LIFT: FENCE_CTL with REQ 0 (R252). -/
def execFenceLift (port part : Nat) (s : State) : Out := act (fun s => if portOk port then wrAs part (frPort port) 0x600 (2 * b2n (fbit s (frPort port) 0x600 1)) s else s) s

/-- COXCMD_FENCE: E4 closes its stops to new requests off the die (R250, Table 7.7). -/
def execCoxcmdFence (d : Nat) (s : State) : Out := act (fun s => if d < 12 then
    updDie d (fun x => { x with gate := true }) (cmdAnswer d (coxCmdFlit (agent 12 (0x20 + d)) d 1) (arrive (coxCmdFlit (agent 12 (0x20 + d)) d 1) s)) else s) s

/-- The stops of a die are open again: what they held leaves, and its harts go on (R252). -/
def gateOpen (d : Nat) (s : State) : State :=
  let q := (die s d).gateq
  let s := sendAll q (updDie d (fun x => { x with gate := false, gateq := [] }) s)
  (List.range 48).foldl (fun s c => hartGo (48 * d + c) s) s

/-- UNFENCE: E4 releases what its stops hold (R252). -/
def execUnfence (d : Nat) (s : State) : Out := act (fun s => if d < 12 then gateOpen d (cmdAnswer d (coxCmdFlit (agent 12 (0x20 + d)) d 2) (arrive (coxCmdFlit (agent 12 (0x20 + d)) d 2) s)) else s) s

/-- PARK_FLIT (R254, R255). -/
def execParkFlit (ap : Nat) (f : Flit) (s : State) : Out := act (fun s => if ap < 12 ∧ parking s ap = true then apOutbound ap f s else s) s

/-- PARKFULL_FALL (R255). -/
def execParkfullFall (ap : Nat) (s : State) : Out := act (fun s => if ap < 12 ∧ parkFull s ap = false then parkRefill ap s else s) s

/-- PARK_RELEASE (R256). -/
def execParkRelease (ap : Nat) (s : State) : Out := act (fun s => if ap < 12 then parkRelease 256 ap s else s) s

/-- PROBE_SELECT: a flit passes a router input on its way (R234, R260 to R262). -/
def execProbeSelect (stop port netc : Nat) (f : Flit) (s : State) : Out := act (fun s => if netc = probeNet f ∧ (passInputs s f).contains (ioStop stop, port) = true then (List.range 16).foldl (fun s k => probeSee stop port netc f k s) s else s) s

/-- PRB_CNT_WRITE (R544). -/
def execPrbCntWrite (k : Nat) (v : Word) (part : Nat) (s : State) : Out := act (fun s => if k < 16 then wrAs part (frPb (k / 4)) (0x118 + 0x40 * (k % 4)) v.toNat s else s) s

end Sys2Proof.Machine
end

