-- ==== Sys2Proof/Machine/Faults.lean ====
section
/-! DEFINITION. The commands of faults, injection and the registers (chapters 15 and 17).
Log entries with the choices and readings made here: 98, 129. -/

namespace Sys2Proof.Machine

/-- FAULT_RECORD_SERVICE (R509). -/
def execFaultRecordService (frame : Nat) (s : State) : Out := act (fun s => serviceRec frame s) s

/-- INCIDENT_CLOSE (R517). -/
def execIncidentClose (s : State) : Out := act (fun s => incClose s) s

/-- CE_RATE_WINDOW (R515). -/
def execCeRateWindow (s : State) : Out := act (fun s => ceWindow s) s

/-- FLT_PPOP (R520). -/
def execFltPpop (p : Nat) (s : State) : Out := act (fun s => if p < 12 then drsWrite p (frPflt p) 0x048 8 1 s else s) s

/-- FLT_PIRQ_WRITE (R520). -/
def execFltPirqWrite (p : Nat) (v : Word) (s : State) : Out := act (fun s => if p < 12 then drsWrite p (frPflt p) 0x050 8 v.toNat s else s) s

/-- FLT_PKG_WRITE (R523): a manager, the Cox or the BMC, as 16, writes `FLT_PKG`. -/
def execFltPkgWrite (v : Word) (part : Nat) (s : State) : Out := act (fun s => if part < 12 ∨ part = 15 ∨ part = 16 then regWrite part frFlt 0 v.toNat s else s) s

/-- ERR_INJ_WRITE (R525). -/
def execErrInjWrite (frame : Nat) (v : Word) (part : Nat) (s : State) : Out := act (fun s => if hasErrBank (frameKind frame).1 then wrAs part frame 0x530 v.toNat s else s) s

/-- INJECTION_FIRE (R526). -/
def execInjectionFire (frame : Nat) (ev : InjEv) (s : State) : Out := act (fun s => injFire frame ev s) s

/-- REGISTER_WRITE (R552). -/
def execRegisterWrite (frame off : Nat) (v : Word) (part : Nat) (s : State) : Out := act (fun s => if off < 65536 ∧ off % 8 = 0 then wrAs part frame off v.toNat s else s) s

/-- EPOCH_DRAIN_TIMEOUT (R249). -/
def execEpochDrainTimeout (s : State) : Out := act (fun s => drainTimeout s) s

end Sys2Proof.Machine
end

