-- ==== Sys2Proof/Machine/Hart.lean ====
section
/-! DEFINITION. The commands of a hart: memory accesses, fences, cache-block instructions, waits, the store buffer, the
L1 fills, the vendor CSRs, the Buoy and the performance counters (chapters 2 and 16).
Log entries with the choices and readings made here: 4, 67, 68, 71, 173. -/

namespace Sys2Proof.Machine

/-- LOAD (R33, R35, R36, R42, R47). -/
def execLoad (m : MemAcc) (nt : Bool) (s : State) : Out := done (issueAcc (.load m nt) m false 0 s)

/-- STORE (R33, R35, R36, R44). -/
def execStore (m : MemAcc) (v : Line) (s : State) : Out := done (issueAcc (.store m v) m true 1 s)

/-- AMO (R59, R60, R64). -/
def execAmo (m : MemAcc) (op : AmoOp) (v : Word) (aq rl : Bool) (s : State) : Out :=
  done (issueAcc (.amo m op v aq rl) m true 3 s)

/-- LR: it loses the reservation held before (R61). -/
def execLr (m : MemAcc) (aq rl : Bool) (s : State) : Out := done (issueAcc (.lr m aq rl) m false 2 s)

/-- SC (R61, R62). -/
def execSc (m : MemAcc) (v : Word) (aq rl : Bool) (s : State) : Out := done (issueAcc (.sc m v aq rl) m true 3 s)

/-- AMOCAS, `amocas.q` included (R59, R64). -/
def execAmocas (m : MemAcc) (cmp new : BitVec 128) (aq rl : Bool) (s : State) : Out :=
  done (issueAcc (.amocas m cmp new aq rl) m true 3 s)

/-- FENCE and FENCE.TSO (R65): TSO orders reads before reads and writes, and writes before writes. -/
def execFence (h : Nat) (fs : FenceSet) (tso : Bool) (s : State) : Out :=
  done (issue h (.fence h (if tso then { pr := true, pw := true, sr := true, sw := true } else fs) tso) s)

/-- FENCE.I completes once older stores have drained; the L1I is left unchanged (R65, R49). -/
def execFenceI (h : Nat) (s : State) : Out := done (issue h (.fenceI h) s)

/-- `sfence.w.inval` as FENCE w,w (R65). -/
def execSfenceWInval (h : Nat) (s : State) : Out := done (issue h (.sfenceWInval h) s)

/-- `sfence.inval.ir` as FENCE r,r (R65). -/
def execSfenceInvalIr (h : Nat) (s : State) : Out := done (issue h (.sfenceInvalIr h) s)

/-- WFI, trapped by `mstatus.TW` below M-mode (illegal instruction) and by `hstatus.VTW` in VS-mode (virtual
instruction) (R73). DESIGN CHOICE: the spec gives no time limit for the two bits; it is taken as 0, so such a WFI is trapped at once, even
with an interrupt pending. -/
def execWfi (h : Nat) (s : State) : Out :=
  let x := hart s h
  done (if !(running s h) then s
    else if x.tw && x.priv ≠ .m then
      let r := drawNat s
      issueTrap h (.wfi h) 2 r.1 r.2
    else if x.vtw && x.priv = .vs then
      let r := drawNat s
      issueTrap h (.wfi h) 22 r.1 r.2
    else issue h (.wfi h) s)

/-- CBO_CLEAN (R66). -/
def execCboClean (m : MemAcc) (s : State) : Out := done (issueAcc (.cboClean m) { m with size := 1 } false 4 s)

/-- CBO_FLUSH (R66). -/
def execCboFlush (m : MemAcc) (s : State) : Out := done (issueAcc (.cboFlush m) { m with size := 1 } false 4 s)

/-- CBO_INVAL: as CBO_FLUSH where CBIE permits it, else an illegal instruction (R66). -/
def execCboInval (m : MemAcc) (s : State) : Out :=
  let x := hart s m.hart
  done (if running s m.hart && !x.cbie && x.priv ≠ .m then
      let r := drawNat s
      issueTrap m.hart (.cboInval m) 2 r.1 r.2
    else issueAcc (.cboInval m) { m with size := 1 } false 4 s)

/-- CBO_ZERO (R66). -/
def execCboZero (m : MemAcc) (s : State) : Out := done (issueAcc (.cboZero m) { m with size := 1 } true 4 s)

/-- PREFETCH_I (R51, R66, R67). -/
def execPrefetchI (m : MemAcc) (s : State) : Out := done (issue m.hart (.prefetchI m) s)

/-- PREFETCH_R (R51, R66, R67). -/
def execPrefetchR (m : MemAcc) (s : State) : Out := done (issue m.hart (.prefetchR m) s)

/-- PREFETCH_W (R51, R66, R67). -/
def execPrefetchW (m : MemAcc) (s : State) : Out := done (issue m.hart (.prefetchW m) s)

/-- WRS_NTO (R64). -/
def execWrsNto (h : Nat) (s : State) : Out := done (issue h (.wrsNto h) s)

/-- WRS_STO (R64). -/
def execWrsSto (h : Nat) (s : State) : Out := done (issue h (.wrsSto h) s)

/-- The wait of a `wrs.sto` is over. -/
def wrsOver (o : HOp) : HOp :=
  match o.ins with
  | .wrsSto _ => { o with got := true }
  | _ => o

/-- The wait of `wrs.sto` ends: the hart leaves C1 (R64). -/
def execWrsStoTimeout (h : Nat) (s : State) : Out := done (hartGo h (updHart h (fun x => { x with ops := x.ops.map wrsOver }) s))

/-- Does an instruction that is not complete require the older stores to drain (R45, R49, R60, R583)? -/
def needsDrain (s : State) (o : HOp) : Bool :=
  o.res.isNone && ((match insFence o.ins with
   | some f => f.pw || f.po
   | none => false) ||
  (match o.ins with
   | .fenceI _ => true
   | .wfi _ => true
   | _ => false) ||
  insCls s o.ins = .atomic || insCls s o.ins = .cbo)

/-- Does the oldest store buffer entry begin to drain (R45)? A pending interrupt requires it too. -/
def drainDue (s : State) (h : Nat) (timer : Bool) : Bool :=
  let x := hart s h
  match x.sb with
  | [] => false
  | e :: t => !e.draining &&
    (decide (e.mask = BitVec.allOnes 64) || !t.isEmpty || timer || x.drain || irqPending x ||
     x.ops.any (fun o => decide (e.seq < o.seq) && needsDrain s o))

/-- The oldest entry drains. -/
def drainHead (q : List SbEnt) : List SbEnt :=
  match q with
  | [] => []
  | e :: t => { e with draining := true } :: t

/-- STORE_BUFFER_DRAIN (R45, R46): the oldest entry begins to drain. -/
def execStoreBufferDrain (h : Nat) (timer : Bool) (s : State) : Out :=
  done (if drainDue s h timer then
      hartGo h (updHart h (fun x => { x with sb := drainHead x.sb }) s)
    else hartGo h s)

/-- L1_FILL (R39, R41, R42): the line that a miss buffer waits for arrives from the L2. -/
def execL1Fill (h line : Nat) (ifetch : Bool) (s : State) : Out :=
  let x := hart s h
  let buf := if ifetch then x.fmb else x.mb
  done (match buf.find? (fun e => decide (e.1 = line)) with
    | none => s
    | some e =>
      if l2St x line = .i ∨ x.inq.any (fun q => decide (q.line = line)) = true then s
      else
        let s := l1Fill h line e.2 ifetch s
        let s := updHart h (fun x =>
          if ifetch then { x with fmb := x.fmb.filter (fun y => y.1 ≠ line) }
          else { x with mb := x.mb.filter (fun y => y.1 ≠ line) }) s
        hartGo h s)

/-- The deferral window of R62 ends. -/
def execLrDeferExpire (h : Nat) (s : State) : Out := done (hartGo h (updHart h closeWindow s))

/-- VENDOR_CSR_ACCESS (R69 to R72, R75): an access to a CSR, in program order. The CSRs of the ratified specifications that the model
holds are reached by it too. -/
def execVendorCsrAccess (h csr : Nat) (wr : Bool) (v : Word) (s : State) : Out := done (issue h (.vendorCsrAccess h csr wr v) s)

/-- RNBUOYCTL_WRITE (R70, R76). -/
def execRnbuoyctlWrite (h : Nat) (v : Word) (s : State) : Out := done (issue h (.rnbuoyctlWrite h v) s)

/-- BUOY_PERIOD (R537): a period starts and the sampler draws a position in it. -/
def execBuoyPeriod (h : Nat) (s : State) : Out :=
  let x := hart s h
  done (if x.st = .run ∧ x.rnbuoyctl.getLsbD 0 = true ∧ x.buoy.left = 0 then
      let n := 64 * bits x.rnbuoyctl.toNat 8 12
      let r := drawNat s
      updHart h (fun x => { x with buoy := { x.buoy with left := n, pos := r.1 % n, armed := true } }) r.2
    else s)

/-- MHPMEVENT_WRITE (R532). -/
def execMhpmeventWrite (h n : Nat) (v : Word) (s : State) : Out := done (issue h (.mhpmeventWrite h n v) s)

/-- HPM_COUNTER_WRITE (R535). -/
def execHpmCounterWrite (h n : Nat) (v : Word) (s : State) : Out := done (issue h (.hpmCounterWrite h n v) s)

/-- HPM_COUNTER_OVERFLOW (R536): a counter at 2⁶⁴ − 1 that selects an event increments. -/
def execHpmCounterOverflow (h n : Nat) (s : State) : Out :=
  let x := hart s h
  let c := mget x.hpm n
  done (if x.st = .run ∧ 3 ≤ n ∧ n ≤ 10 ∧ c.cnt = BitVec.allOnes 64 ∧ bits c.ev.toNat 0 10 ≠ 0 ∧
        evInhibited c.ev x.priv = false ∧ x.mcountinhibit.getLsbD n = false then
      hartGo h (updHart h (fun x =>
        let c := mget x.hpm n
        { x with hpm := mset x.hpm n { c with cnt := 0, ev := c.ev ||| (1#64 <<< 63) },
                 lcofi := x.lcofi || !(c.ev.getLsbD 63) }) s)
    else s)

/-- INTERRUPT_UPDATE (R349, R485): the core copies the top identity of the file that ADDR names, and the hart wakes. -/
def execInterruptUpdate (f : Flit) (s : State) : Out :=
  let s := take f s
  let h := agHart f.dst
  let file := f.addr / 4096 % 16
  done (if f.net = .req ∧ f.op = oIntMsg ∧ isCore f.dst = true ∧ file < 9 then
      let id := (f.data.toNat >>> (8 * (f.addr % 64))) % 2048
      wakeHart h (updHart h (fun x => { x with topei := mset x.topei file id }) s)
    else s)

end Sys2Proof.Machine
end

