-- ==== Sys2Proof/Machine/Irq.lean ====
section
/-! DEFINITION. The commands of interrupts, pins, the management endpoint and the TAP (chapter 10).
Log entries with the choices and readings made here: 87, 88. -/

namespace Sys2Proof.Machine

/-! ### The TAP (R359) -/

/-- External debug of a hart is open: the debug policy permits it for the hart's partition. -/
def debugOpen (s : State) (h : Nat) : Bool := decide (h < 576) && decide (hartPart s h < 12) && bit ((param s 0x0003).getD 0) (hartPart s h)

/-- The instruction that the TAP performs: outside reset, EXTEST and INTEST are BYPASS. -/
def tapNow (s : State) : TapIr :=
  if s.card.tapIr = .extest ∨ s.card.tapIr = .intest then (if s.pins.pkgRst then .bypass else s.card.tapIr) else s.card.tapIr

/-- A debug halt request for a hart (Table 14.7): the package and the die wake, and the hart halts. -/
def debugHalt (h : Nat) (s : State) : State :=
  let st := (hart s h).st
  if st = .parked ∨ st = .parking ∨ st = .stopped then s
  else
    let d := h / 48
    let s := k3Wake s
    let s := if (die s d).d3 then dieWake d s else if (die s d).d3step ≠ 0 then d3Abort d s else s
    updHart h (fun x => { x with st := .halted }) s

/-- The TAP takes an instruction: its data register captures the identification code, 0, or a value that the debug
specification or the boundary of the dies gives. -/
def tapTake (ir : TapIr) (h : Nat) (s : State) : State :=
  let by_ := (List.range 12).filter (fun d => linkSt s d false = lOFF ∨ linkSt s d false = lHOLD)
  let s := updCard (fun c => { c with tapIr := ir, tapBy := by_ }) s
  let cap := fun (v : Word) (s : State) => updCard (fun c => { c with tapDr := v }) s
  let open_ := fun (s : State) => let r := drawWord s; cap r.1 r.2
  match tapNow s with
  | .idcode => cap 0x20576E53 s
  | .bypass => cap 0 s
  | .extest => open_ s
  | .intest => open_ s
  | .debugHalt => if debugOpen s h then open_ (debugHalt h s) else cap 0 s
  | .debugResume =>
    if debugOpen s h then
      open_ (if (hart s h).st = .halted then hartRun h (updHart h (fun x => { x with st := .run }) s) else s)
    else cap 0 s
  | .debug => if debugOpen s h then open_ s else cap 0 s

/-! ### Commands -/

/-- IMSIC_CLAIM (R349). -/
def execImsicClaim (h file sel : Nat) (wr : Bool) (v : Word) (s : State) : Out := act (fun s => imClaim h file sel wr v.toNat s) s

/-- APLIC_SOURCE (R350). -/
def execAplicSource (p src : Nat) (level : Bool) (s : State) : Out := act (fun s => aplWire p src level s) s

/-- GPIO_INPUT (R358, R562; Table 14.7). -/
def execGpioInput (pin : Nat) (level : Bool) (s : State) : Out := act (fun s => gpioChange pin level (k3Wake s)) s

/-- MGT_BAR0_ACCESS: an access of 8 aligned bytes (R356, R355, Table 10.10; Table 14.7). -/
def execMgtBar0Access (wr : Bool) (off : Nat) (v : Word) (s : State) : Out := act (fun s => (let t := k3Wake s; if off % 8 ≠ 0 ∨ 0x100000 ≤ off then t else if wr then bar0Write off v.toNat t else updCard (fun c => { c with bmcAns := some (BitVec.ofNat 64 (bar0Read t off)) }) t)) s

/-- TAP_INSTRUCTION (R359). -/
def execTapInstruction (ir : TapIr) (hart : Nat) (s : State) : Out := act (fun s => tapTake ir hart s) s

end Sys2Proof.Machine
end

