-- ==== Sys2Proof/Machine/Memory.lean ====
section
/-! DEFINITION. The commands of the memory system: accesses, the slab table, Strata, scrub and retirement (chapter 8).
Log entries with the choices and readings made here: 60, 63, 64, 65, 66. -/

namespace Sys2Proof.Machine

/-- As `act`, for a command that may reach a location that no device holds. -/
def actOut (g : State → Out) (s : State) : Out :=
  if s.pins.pwrok && !s.card.dark then
    match g s with
    | .next t => done (coxGo t)
    | o => o
  else done s

/-- MEMORY_READ (R273, R293 to R297). -/
def execMemoryRead (pa : Nat) (err : CellErr) (s : State) : Out := actOut (memRead pa err) s

/-- MEMORY_WRITE (R273, R294). -/
def execMemoryWrite (pa : Nat) (s : State) : Out := actOut (memWrite pa) s

/-- MEM_SETCMD (R269, R274). -/
def execMemSetcmd (v : Word) (part : Nat) (s : State) : Out := act (fun s => drsWrite part frMem 0x010 8 v.toNat s) s

/-- MEM_SLABENT_WRITE, of the entry that MEM_SLABSEL selects (R269, R274). -/
def execMemSlabentWrite (v : Word) (part : Nat) (s : State) : Out := act (fun s => drsWrite part frMem 0x008 8 v.toNat s) s

/-- SLAB_UPDATE_DONE (R274). -/
def execSlabUpdateDone (s : State) : Out := act (fun s => slabDone s) s

/-- SE_ACCESS (R278 to R282, R285, R289). -/
def execSeAccess (pa : Nat) (tblUc : Bool) (s : State) : Out := act (fun s => seAccess pa tblUc s) s

/-- CNT_DECAY (R281). -/
def execCntDecay (g : Nat) (s : State) : Out := act (fun s => if g < 4 then cntDecay g s else s) s

/-- PROMOTION (R283, R284, R287). -/
def execPromotion (g : Nat) (s : State) : Out := act (fun s => if g < 4 then promotion (retiring s) g s else s) s

/-- MOVE_CHUNK_COPY, of the move of DDR granule `gran` (R284, R285). -/
def execMoveChunkCopy (g gran : Nat) (s : State) : Out := act (fun s => if g < 4 then chunkCopy g gran s else s) s

/-- MOVE_COMPLETE, of the move of DDR granule `gran` (R286). -/
def execMoveComplete (g gran : Nat) (s : State) : Out := act (fun s => if g < 4 then strGo (moveDone g gran s) else s) s

/-- PIN: partition `p` writes STR_CMD for the page of `pa` (R288). -/
def execPin (p pa : Nat) (s : State) : Out := act (fun s => if p < 12 then drsWrite p (frPmem p) 0x200 8 (0 + pa / 4096 % 2 ^ 40 * 4096) s else s) s

/-- UNPIN: partition `p` writes STR_CMD for the page of `pa` (R288). -/
def execUnpin (p pa : Nat) (s : State) : Out := act (fun s => if p < 12 then drsWrite p (frPmem p) 0x200 8 (1 + pa / 4096 % 2 ^ 40 * 4096) s else s) s

/-- PROMOTE: partition `p` writes STR_CMD for the page of `pa` (R288). -/
def execPromote (p pa : Nat) (s : State) : Out := act (fun s => if p < 12 then drsWrite p (frPmem p) 0x200 8 (2 + pa / 4096 % 2 ^ 40 * 4096) s else s) s

/-- RESTORE: partition `p` writes STR_CMD for the page of `pa` (R288). -/
def execRestore (p pa : Nat) (s : State) : Out := act (fun s => if p < 12 then drsWrite p (frPmem p) 0x200 8 (3 + pa / 4096 % 2 ^ 40 * 4096) s else s) s

/-- REMAP_REBUILT (R289). -/
def execRemapRebuilt (g : Nat) (s : State) : Out := act (fun s => if g < 4 then strGo (rebuildDone g s) else s) s

/-- SE_POLICY_WRITE, of SE_CTL (offset 0) or SE_POLICY (8) (R291). -/
def execSePolicyWrite (g off : Nat) (v : Word) (part : Nat) (s : State) : Out := act (fun s => if g < 4 ∧ (off = 0 ∨ off = 8) then drsWrite part (frSe g) off 8 v.toNat s else s) s

/-- SCRUB_READ (R295). -/
def execScrubRead (g tier ma : Nat) (err : CellErr) (s : State) : Out := act (fun s => scrubRead g tier ma err s) s

/-- PAGE_RETIREMENT (R298, Table 8.11). -/
def execPageRetirement (g tier ma : Nat) (s : State) : Out := act (fun s => retireStart g tier ma s) s

/-- RETIREMENT_TIMEOUT (R299). -/
def execRetirementTimeout (s : State) : Out := act (fun s => retireTimeout s) s

/-- CHANNEL_FAIL (R300). -/
def execChannelFail (ddr : Bool) (n : Nat) (s : State) : Out := act (fun s => if n < (if ddr then 16 else 4) then channelFail ddr n s else s) s

/-- SLAB_STEP_TIMEOUT (R302). -/
def execSlabStepTimeout (s : State) : Out := act (fun s => slabStepTimeout s) s

end Sys2Proof.Machine
end

