-- ==== Sys2Proof/Machine/Pair.lean ====
section
/-! DEFINITION. The commands of the pair: frames, epochs, takeover and the manager commands (chapter 12).
Log entries with the choices and readings made here: 157, 158, 160. -/

namespace Sys2Proof.Machine

/-- The Cox takes part in the pair until a UCP is latched: then it serves the fault window and manager reads, and nothing else
(Table 15.10 step 3). -/
def pairAct (g : State → State) (s : State) : Out := act (fun s => if ucp s then s else g s) s

/-- PAIR_HELLO_SEND (R411). -/
def execPairHelloSend (s : State) : Out := pairAct (fun s => helloSend s) s

/-- PAIR_HELLO (R411, R412). -/
def execPairHello (pairId : Word) (descs : List PairDesc) (s : State) : Out := pairAct (fun s => helloTakePair pairId descs s) s

/-- MIRROR (R416). -/
def execMirror (f : PairFrame) (s : State) : Out := pairAct (fun s => frameTake 2 f s) s

/-- BULK (R436, R419). -/
def execBulk (f : PairFrame) (s : State) : Out := pairAct (fun s => frameTake 3 f s) s

/-- HART_FRAME (R421, R410). -/
def execHartFrame (f : PairFrame) (s : State) : Out := pairAct (fun s => frameTake 4 f s) s

/-- CTRL_FRAME (R421, R410). -/
def execCtrlFrame (f : PairFrame) (s : State) : Out := pairAct (fun s => frameTake 5 f s) s

/-- BQE_FRAME (R420, R410). -/
def execBqeFrame (f : PairFrame) (s : State) : Out := pairAct (fun s => frameTake 6 f s) s

/-- BLK_FRAME (R424, R410). -/
def execBlkFrame (f : PairFrame) (s : State) : Out := pairAct (fun s => blkTake f s) s

/-- EPOCH_END (R421, R410). -/
def execEpochEnd (f : PairFrame) (s : State) : Out := pairAct (fun s => endTake f s) s

/-- COMMIT (R421, R423). -/
def execCommit (f : PairFrame) (s : State) : Out := pairAct (fun s => if f.ty = 9 then commitTake f s else s) s

/-- FATAL (R430, R410). -/
def execFatal (f : PairFrame) (s : State) : Out := pairAct (fun s => fatalTake f s) s

/-- HANDOVER (R435, R410). -/
def execHandover (f : PairFrame) (s : State) : Out := pairAct (fun s => handoverTake f s) s

/-- TAKEN (R430, R410). -/
def execTaken (f : PairFrame) (s : State) : Out := pairAct (fun s => takenTake f s) s

/-- PAIR_FRAME_RESERVED (R410). -/
def execPairFrameReserved (f : PairFrame) (s : State) : Out := pairAct (fun s => frameReserved f s) s

/-- EPOCH_CLOSE (R419, R421). -/
def execEpochClose (p : Nat) (s : State) : Out := pairAct (fun s => closeStart p s) s

/-- CKPT (R419, R421). -/
def execCkpt (p target : Nat) (s : State) : Out := pairAct (fun s => ckptTake p target s) s

/-- EPOCH_CLOSE_TIMEOUT (R422). -/
def execEpochCloseTimeout (p : Nat) (s : State) : Out := pairAct (fun s => closeTimeout p s) s

/-- SEND_LOG_FULL (R418). -/
def execSendLogFull (s : State) : Out := pairAct (fun s => logFull s) s

/-- SEND_LOG_DRAINED (R418). -/
def execSendLogDrained (s : State) : Out := pairAct (fun s => logDrained s) s

/-- PAIR_LINK_LOSS (R426). -/
def execPairLinkLoss (s : State) : Out := act (fun s => pairLinkLost s) s

/-- PAIR_LINK_RETURN (R426). -/
def execPairLinkReturn (s : State) : Out := act (fun s => pairLinkBack s) s

/-- AUTOTAKE_TIMEOUT (R428). -/
def execAutotakeTimeout (s : State) : Out := pairAct (fun s => autotake s) s

/-- TAKEOVER_STEP_TIMEOUT (R432). -/
def execTakeoverStepTimeout (p : Nat) (fatal : Bool) (s : State) : Out := pairAct (fun s => takeTimeout p fatal s) s

/-- PAIR_PROTECT (R436, Table 12.6). -/
def execPairProtect (c : MgrCmd) (s : State) : Out := mgrAct 0x40 c s

/-- PAIR_UNPROTECT (R438, Table 12.6). -/
def execPairUnprotect (c : MgrCmd) (s : State) : Out := mgrAct 0x41 c s

/-- PAIR_SWITCH (R435, Table 12.6). -/
def execPairSwitch (c : MgrCmd) (s : State) : Out := mgrAct 0x42 c s

/-- PAIR_TAKEOVER (R428, Table 12.6). -/
def execPairTakeover (c : MgrCmd) (s : State) : Out := mgrAct 0x43 c s

/-- PAIR_RELEASE (R426, Table 12.6). -/
def execPairRelease (c : MgrCmd) (s : State) : Out := mgrAct 0x44 c s

/-- PAIR_QUERY (R438, Table 12.6). -/
def execPairQuery (c : MgrCmd) (s : State) : Out := mgrAct 0x45 c s

/-- CROSSLINK_LOSS (R408). -/
def execCrosslinkLoss (n : Nat) (s : State) : Out := act (fun s => crossLost n s) s

end Sys2Proof.Machine
end

