-- ==== Sys2Proof/Machine/Power.lean ====
section
/-! DEFINITION. The commands of power, clocks, sleep, time and windows (chapters 14 and 16).
Log entries with the choices and readings made here: 121, 135, 138. -/

namespace Sys2Proof.Machine

/-- A wake event that reaches the always-on logic (Table 14.7): 0 a TLP from the BMC, 1 a PME or a link that leaves L1, 2 a GPIO
input, 3 an I3C in-band interrupt: the package only; 16 + d a system packet for die `d`: then the die as well. -/
def wakeFrom (src : Nat) (s : State) : State :=
  if src < 4 then k3Wake s
  else if 16 ≤ src ∧ src < 28 then dieWake (src - 16) (k3Wake s)
  else s

/-- PPA_ALLOCATION (R476). -/
def execPpaAllocation (pIod pHbm pkg : Nat) (s : State) : Out := act (fun s => ppaAllocate pIod pHbm pkg s) s

/-- RAIL_SETTLED (R474). -/
def execRailSettled (d : Nat) (s : State) : Out := act (fun s => railSettled d s) s

/-- AVS_TIMEOUT (R501). -/
def execAvsTimeout (d : Nat) (s : State) : Out := act (fun s => avsTimeout d s) s

/-- POWER_ESTIMATE (R479). -/
def execPowerEstimate (d est avg : Nat) (s : State) : Out := act (fun s => powerEstimate d est avg s) s

/-- THROTTLE_LEVEL_DOWN (R479). -/
def execThrottleLevelDown (d : Nat) (s : State) : Out := act (fun s => throttleDown d s) s

/-- SENSOR_READ (R578). -/
def execSensorRead (sensor : Nat) (temp : Int) (s : State) : Out := act (fun s => sensorRead sensor temp s) s

/-- THERMAL_STEP (R481). -/
def execThermalStep (d : Nat) (s : State) : Out := act (fun s => thermalStep d s) s

/-- THERMAL_PERSIST (R481). -/
def execThermalPersist (d : Nat) (s : State) : Out := act (fun s => thermalPersist d s) s

/-- D3_ENTRY (R486, Table 14.6). -/
def execD3Entry (d : Nat) (s : State) : Out := act (fun s => d3Entry d s) s

/-- D3_ENTRY_ABORT (R487). -/
def execD3EntryAbort (d : Nat) (s : State) : Out := act (fun s => d3Abort d s) s

/-- K3_ENTRY (R489). -/
def execK3Entry (s : State) : Out := act (fun s => k3Entry s) s

/-- K3_WAKE (R490, R492). -/
def execK3Wake (src : Nat) (s : State) : Out := act (fun s => wakeFrom src s) s

/-- TIMER_COMPARE (R491). -/
def execTimerCompare (h : Nat) (s : State) : Out := act (fun s => timerCompare h s) s

/-- REF_LOSS (R471). -/
def execRefLoss (s : State) : Out := act (fun s => refLoss s) s

/-- RAIL_FAIL (R572). -/
def execRailFail (rail : Nat) (s : State) : Out := act (fun s => railFail rail s) s

/-- ALWAYS_ON_RAIL_REMOVED (R558). -/
def execAlwaysOnRailRemoved (s : State) : Out := done (aonOff s)

/-- WINDOW_BOUNDARY (R542). -/
def execWindowBoundary (s : State) : Out := act (fun s => windowBoundary s) s

/-- IOF_WIN_CTL_WRITE (R543). -/
def execIofWinCtlWrite (v : Word) (part : Nat) (s : State) : Out := act (fun s => wrAs part frIof 0x800 v.toNat s) s

end Sys2Proof.Machine
end

