-- ==== Sys2Proof/Machine/RootPort.lean ====
section
/-! DEFINITION. The commands of the root ports: TLPs, CXL messages and slots (chapter 10).
Log entries with the choices and readings made here: 82, 85. -/

namespace Sys2Proof.Machine

/-- A trigger from a link of a root port: it first wakes the package from K3 (Table 14.7). -/
def portAct (rp : Nat) (g : State → State) (s : State) : Out := act (fun s => if rp < 12 then g (k3Wake s) else s) s

/-- DMA_WRITE (R338, R340) -/
def execDmaWrite (t : Tlp) (s : State) : Out := portAct t.rp (dmaWrite t) s

/-- DMA_READ (R338) -/
def execDmaRead (t : Tlp) (s : State) : Out := portAct t.rp (dmaRead t) s

/-- ATOMICOP (R339) -/
def execAtomicop (t : Tlp) (op : AtomOp) (opnd cmp : BitVec 128) (s : State) : Out := portAct t.rp (atomicOp t op opnd.toNat cmp.toNat) s

/-- MSI: a write to an interrupt file becomes IntMsg (R340, R338, R348) -/
def execMsi (t : Tlp) (s : State) : Out := portAct t.rp (dmaWrite t) s

/-- ZERO_LENGTH_READ (R340) -/
def execZeroLengthRead (t : Tlp) (s : State) : Out := portAct t.rp (dmaRead { t with len := 0 }) s

/-- COMPLETION_TLP (R336, R340) -/
def execCompletionTlp (rp tag : Nat) (ok : Bool) (v : Word) (s : State) : Out := portAct rp (outDone rp tag (some (ok, v.toNat))) s

/-- CPL_TIMEOUT (R336) -/
def execCplTimeout (rp tag : Nat) (s : State) : Out := portAct rp (outDone rp tag none) s

/-- CXL_RDCURR (R343) -/
def execCxlRdcurr (rp pa : Nat) (s : State) : Out := portAct rp (cxlTake rp 0 pa 0 false) s

/-- CXL_RDSHARED (R343) -/
def execCxlRdshared (rp pa : Nat) (s : State) : Out := portAct rp (cxlTake rp 1 pa 0 false) s

/-- CXL_RDOWN (R343) -/
def execCxlRdown (rp pa : Nat) (s : State) : Out := portAct rp (cxlTake rp 2 pa 0 false) s

/-- CXL_RDOWNNODATA (R343) -/
def execCxlRdownnodata (rp pa : Nat) (s : State) : Out := portAct rp (cxlTake rp 3 pa 0 false) s

/-- CXL_ITOMWR (R343) -/
def execCxlItomwr (rp pa : Nat) (v : Line) (poison : Bool) (s : State) : Out := portAct rp (cxlTake rp 4 pa v poison) s

/-- CXL_DIRTYEVICT (R343) -/
def execCxlDirtyevict (rp pa : Nat) (v : Line) (poison : Bool) (s : State) : Out := portAct rp (cxlTake rp 5 pa v poison) s

/-- CXL_CLEANEVICT (R343) -/
def execCxlCleanevict (rp pa : Nat) (s : State) : Out := portAct rp (cxlTake rp 6 pa 0 false) s

/-- CXL_SNOOP_TIMEOUT (R345) -/
def execCxlSnoopTimeout (rp pa : Nat) (s : State) : Out := portAct rp (cxlTimeout rp pa) s

/-- CXL_MEM_TIMEOUT (R342) -/
def execCxlMemTimeout (rp pa : Nat) (s : State) : Out := portAct rp (cxlMem rp pa none none 0x07) s

/-- LINK_DOWN_DPC (R352, R353) -/
def execLinkDownDpc (rp link : Nat) (s : State) : Out := portAct rp (linkDown rp link) s

/-- SLOT_CONTROL_WRITE (R351) -/
def execSlotControlWrite (rp link : Nat) (v : Word) (s : State) : Out := portAct rp (slotWrite rp link v.toNat) s

/-- SLOT_PIN_CHANGE (R351) -/
def execSlotPinChange (rp link pin : Nat) (level : Bool) (s : State) : Out := portAct rp (slotPin rp link pin level) s

/-- CXL_SNOOP_ANSWER (R343) -/
def execCxlSnoopAnswer (rp pa : Nat) (dirty : Bool) (v : Line) (poison : Bool) (s : State) : Out := portAct rp (cxlAnswer rp pa dirty v poison) s

/-- CXL_MEM_ANSWER (R342) -/
def execCxlMemAnswer (rp pa : Nat) (wr : Bool) (v : Line) (poison : Bool) (s : State) : Out := portAct rp (cxlMem rp pa (some wr) (some (v, poison)) 0x07) s

/-- PCIE_LINK_UP (R337, R352) -/
def execPcieLinkUp (rp link speed width : Nat) (cxl : Bool) (s : State) : Out := portAct rp (pcieUp rp link speed width cxl) s

/-- ATS_TRANSLATION_REQUEST (R346) -/
def execAtsTranslationRequest (rp rid iova : Nat) (xl : Option Nat) (s : State) : Out := portAct rp (atsRequest rp rid iova xl) s

/-- PAGE_REQUEST_MESSAGE (R346) -/
def execPageRequestMessage (rp rid iova : Nat) (grp : Nat) (s : State) : Out := portAct rp (pageRequest rp rid iova grp) s

end Sys2Proof.Machine
end

