-- ==== Sys2Proof/Machine/Dispatch.lean ====
section
/-! DEFINITION. The arm of every command: one direct call of its meaning. -/

namespace Sys2Proof.Machine

def exec (i : Instr) (s : State) : Host.Outcome State Fault Refusal :=
  match i with
  | .load m nt => Sys2Proof.Machine.execLoad m nt s
  | .store m v => Sys2Proof.Machine.execStore m v s
  | .amo m op v aq rl => Sys2Proof.Machine.execAmo m op v aq rl s
  | .lr m aq rl => Sys2Proof.Machine.execLr m aq rl s
  | .sc m v aq rl => Sys2Proof.Machine.execSc m v aq rl s
  | .amocas m cmp new aq rl => Sys2Proof.Machine.execAmocas m cmp new aq rl s
  | .fence h fs tso => Sys2Proof.Machine.execFence h fs tso s
  | .fenceI h => Sys2Proof.Machine.execFenceI h s
  | .sfenceWInval h => Sys2Proof.Machine.execSfenceWInval h s
  | .sfenceInvalIr h => Sys2Proof.Machine.execSfenceInvalIr h s
  | .wfi h => Sys2Proof.Machine.execWfi h s
  | .cboClean m => Sys2Proof.Machine.execCboClean m s
  | .cboFlush m => Sys2Proof.Machine.execCboFlush m s
  | .cboInval m => Sys2Proof.Machine.execCboInval m s
  | .cboZero m => Sys2Proof.Machine.execCboZero m s
  | .prefetchI m => Sys2Proof.Machine.execPrefetchI m s
  | .prefetchR m => Sys2Proof.Machine.execPrefetchR m s
  | .prefetchW m => Sys2Proof.Machine.execPrefetchW m s
  | .wrsNto h => Sys2Proof.Machine.execWrsNto h s
  | .wrsSto h => Sys2Proof.Machine.execWrsSto h s
  | .wrsStoTimeout h => Sys2Proof.Machine.execWrsStoTimeout h s
  | .storeBufferDrain h timer => Sys2Proof.Machine.execStoreBufferDrain h timer s
  | .l1Fill h line ifetch => Sys2Proof.Machine.execL1Fill h line ifetch s
  | .lrDeferExpire h => Sys2Proof.Machine.execLrDeferExpire h s
  | .vendorCsrAccess h csr wr v => Sys2Proof.Machine.execVendorCsrAccess h csr wr v s
  | .rnbuoyctlWrite h v => Sys2Proof.Machine.execRnbuoyctlWrite h v s
  | .buoyPeriod h => Sys2Proof.Machine.execBuoyPeriod h s
  | .mhpmeventWrite h n v => Sys2Proof.Machine.execMhpmeventWrite h n v s
  | .hpmCounterWrite h n v => Sys2Proof.Machine.execHpmCounterWrite h n v s
  | .hpmCounterOverflow h n => Sys2Proof.Machine.execHpmCounterOverflow h n s
  | .interruptUpdate f => Sys2Proof.Machine.execInterruptUpdate f s
  | .sliceRequest f => Sys2Proof.Machine.execSliceRequest f s
  | .setWaitRelease d sl => Sys2Proof.Machine.execSetWaitRelease d sl s
  | .l3LockCtlWrite d n v part => Sys2Proof.Machine.execL3LockCtlWrite d n v part s
  | .l3LockSweepDone d => Sys2Proof.Machine.execL3LockSweepDone d s
  | .rangeInvalidate d lo hi => Sys2Proof.Machine.execRangeInvalidate d lo hi s
  | .rangeInvalComplete d => Sys2Proof.Machine.execRangeInvalComplete d s
  | .rangeTimeout d => Sys2Proof.Machine.execRangeTimeout d s
  | .rangeNoresp d => Sys2Proof.Machine.execRangeNoresp d s
  | .rdshared f => Sys2Proof.Machine.execRdshared f s
  | .rdown f => Sys2Proof.Machine.execRdown f s
  | .upgrade f => Sys2Proof.Machine.execUpgrade f s
  | .claimown f => Sys2Proof.Machine.execClaimown f s
  | .rdonce f => Sys2Proof.Machine.execRdonce f s
  | .rdrgn f => Sys2Proof.Machine.execRdrgn f s
  | .wrfull f => Sys2Proof.Machine.execWrfull f s
  | .wrbackdirty f => Sys2Proof.Machine.execWrbackdirty f s
  | .evictclean f => Sys2Proof.Machine.execEvictclean f s
  | .rgnrel f => Sys2Proof.Machine.execRgnrel f s
  | .cboclean f => Sys2Proof.Machine.execCboclean f s
  | .cboflush f => Sys2Proof.Machine.execCboflush f s
  | .iord f => Sys2Proof.Machine.execIord f s
  | .iowr f => Sys2Proof.Machine.execIowr f s
  | .cfgrd f => Sys2Proof.Machine.execCfgrd f s
  | .cfgwr f => Sys2Proof.Machine.execCfgwr f s
  | .intmsg f => Sys2Proof.Machine.execIntmsg f s
  | .mail f => Sys2Proof.Machine.execMail f s
  | .reservedOpcode f => Sys2Proof.Machine.execReservedOpcode f s
  | .rsvdId f stop => Sys2Proof.Machine.execRsvdId f stop s
  | .regionSplitDone ha g => Sys2Proof.Machine.execRegionSplitDone ha g s
  | .snpshared f => Sys2Proof.Machine.execSnpshared f s
  | .snpown f => Sys2Proof.Machine.execSnpown f s
  | .snpinv f => Sys2Proof.Machine.execSnpinv f s
  | .snpcur f => Sys2Proof.Machine.execSnpcur f s
  | .snpclean f => Sys2Proof.Machine.execSnpclean f s
  | .backinv f => Sys2Proof.Machine.execBackinv f s
  | .snprgnsplit f => Sys2Proof.Machine.execSnprgnsplit f s
  | .snprgninv f => Sys2Proof.Machine.execSnprgninv f s
  | .comp f => Sys2Proof.Machine.execComp f s
  | .compack f => Sys2Proof.Machine.execCompack f s
  | .snprsp f => Sys2Proof.Machine.execSnprsp f s
  | .evictack f => Sys2Proof.Machine.execEvictack f s
  | .retry f => Sys2Proof.Machine.execRetry f s
  | .creditgrant f => Sys2Proof.Machine.execCreditgrant f s
  | .fault f => Sys2Proof.Machine.execFault f s
  | .iocomp f => Sys2Proof.Machine.execIocomp f s
  | .data f => Sys2Proof.Machine.execData f s
  | .datacopy f => Sys2Proof.Machine.execDatacopy f s
  | .snpdata f => Sys2Proof.Machine.execSnpdata f s
  | .rgnmap f => Sys2Proof.Machine.execRgnmap f s
  | .iodata f => Sys2Proof.Machine.execIodata f s
  | .snpTimeout ha txn agent => Sys2Proof.Machine.execSnpTimeout ha txn agent s
  | .rsvtmo ha src txn => Sys2Proof.Machine.execRsvtmo ha src txn s
  | .teardown ha p => Sys2Proof.Machine.execTeardown ha p s
  | .teardownComplete ha p => Sys2Proof.Machine.execTeardownComplete ha p s
  | .teardownTimeout ha p => Sys2Proof.Machine.execTeardownTimeout ha p s
  | .resume ha p => Sys2Proof.Machine.execResume ha p s
  | .memoryRead pa err => Sys2Proof.Machine.execMemoryRead pa err s
  | .memoryWrite pa => Sys2Proof.Machine.execMemoryWrite pa s
  | .linkFlitSend ap dir f => Sys2Proof.Machine.execLinkFlitSend ap dir f s
  | .linkFlitReceive ap dir q net errs => Sys2Proof.Machine.execLinkFlitReceive ap dir q net errs s
  | .linkcredit ap dir q nreq nsnp nrsp ndat => Sys2Proof.Machine.execLinkcredit ap dir q nreq nsnp nrsp ndat s
  | .rateCallSend d => Sys2Proof.Machine.execRateCallSend d s
  | .rateCall d body => Sys2Proof.Machine.execRateCall d body s
  | .rateCallMiss d => Sys2Proof.Machine.execRateCallMiss d s
  | .demand d body => Sys2Proof.Machine.execDemand d body s
  | .demandMiss d => Sys2Proof.Machine.execDemandMiss d s
  | .hello d body => Sys2Proof.Machine.execHello d body s
  | .helloAck d pos accept => Sys2Proof.Machine.execHelloAck d pos accept s
  | .trainStep d dieEnd step pass finds => Sys2Proof.Machine.execTrainStep d dieEnd step pass finds s
  | .trainFail d => Sys2Proof.Machine.execTrainFail d s
  | .widthBeaconSend d => Sys2Proof.Machine.execWidthBeaconSend d s
  | .widthBeacon d body => Sys2Proof.Machine.execWidthBeacon d body s
  | .widthReport d body => Sys2Proof.Machine.execWidthReport d body s
  | .repair d dieEnd body => Sys2Proof.Machine.execRepair d dieEnd body s
  | .repairAck d dieEnd body => Sys2Proof.Machine.execRepairAck d dieEnd body s
  | .repairSwitch d dieEnd wg => Sys2Proof.Machine.execRepairSwitch d dieEnd wg s
  | .repairWindowEnd d dieEnd => Sys2Proof.Machine.execRepairWindowEnd d dieEnd s
  | .autoRecal d dieEnd wg => Sys2Proof.Machine.execAutoRecal d dieEnd wg s
  | .pwrReq d target => Sys2Proof.Machine.execPwrReq d target s
  | .pwrAck d grant => Sys2Proof.Machine.execPwrAck d grant s
  | .wakePattern d fromDie pat => Sys2Proof.Machine.execWakePattern d fromDie pat s
  | .sidebandBadFrame d dieEnd frame => Sys2Proof.Machine.execSidebandBadFrame d dieEnd frame s
  | .sidebandResend d dieEnd ty => Sys2Proof.Machine.execSidebandResend d dieEnd ty s
  | .sbRstNRelease d => Sys2Proof.Machine.execSbRstNRelease d s
  | .sbRstNAssert d => Sys2Proof.Machine.execSbRstNAssert d s
  | .fclkLoss d q groups => Sys2Proof.Machine.execFclkLoss d q groups s
  | .sbUpClkLoss d => Sys2Proof.Machine.execSbUpClkLoss d s
  | .sbFatalN d => Sys2Proof.Machine.execSbFatalN d s
  | .dieEndClockLoss d => Sys2Proof.Machine.execDieEndClockLoss d s
  | .retrain d part => Sys2Proof.Machine.execRetrain d part s
  | .retrainFull d clr part => Sys2Proof.Machine.execRetrainFull d clr part s
  | .hold d part => Sys2Proof.Machine.execHold d part s
  | .recal d part => Sys2Proof.Machine.execRecal d part s
  | .lnkCutWrite d out v part => Sys2Proof.Machine.execLnkCutWrite d out v part s
  | .lnkErrInjWrite d dieEnd v part => Sys2Proof.Machine.execLnkErrInjWrite d dieEnd v part s
  | .niInject stop f => Sys2Proof.Machine.execNiInject stop f s
  | .disabledStopRefuse stop f => Sys2Proof.Machine.execDisabledStopRefuse stop f s
  | .switch part => Sys2Proof.Machine.execSwitch part s
  | .oldcntDrained => Sys2Proof.Machine.execOldcntDrained s
  | .iofStopCtlWrite stop v part => Sys2Proof.Machine.execIofStopCtlWrite stop v part s
  | .routeEntryWrite stop bank e v part => Sys2Proof.Machine.execRouteEntryWrite stop bank e v part s
  | .apInboundFlit ap f => Sys2Proof.Machine.execApInboundFlit ap f s
  | .softFence port part => Sys2Proof.Machine.execSoftFence port part s
  | .fenced port => Sys2Proof.Machine.execFenced port s
  | .fenceTimeout port => Sys2Proof.Machine.execFenceTimeout port s
  | .hardFence port part => Sys2Proof.Machine.execHardFence port part s
  | .fenceLift port part => Sys2Proof.Machine.execFenceLift port part s
  | .coxcmdFence d => Sys2Proof.Machine.execCoxcmdFence d s
  | .unfence d => Sys2Proof.Machine.execUnfence d s
  | .parkFlit ap f => Sys2Proof.Machine.execParkFlit ap f s
  | .parkfullFall ap => Sys2Proof.Machine.execParkfullFall ap s
  | .parkRelease ap => Sys2Proof.Machine.execParkRelease ap s
  | .probeSelect stop port netc f => Sys2Proof.Machine.execProbeSelect stop port netc f s
  | .prbCntWrite k v part => Sys2Proof.Machine.execPrbCntWrite k v part s
  | .memSetcmd v part => Sys2Proof.Machine.execMemSetcmd v part s
  | .memSlabentWrite v part => Sys2Proof.Machine.execMemSlabentWrite v part s
  | .slabUpdateDone => Sys2Proof.Machine.execSlabUpdateDone s
  | .seAccess pa tblUc => Sys2Proof.Machine.execSeAccess pa tblUc s
  | .cntDecay g => Sys2Proof.Machine.execCntDecay g s
  | .promotion g => Sys2Proof.Machine.execPromotion g s
  | .moveChunkCopy g gran => Sys2Proof.Machine.execMoveChunkCopy g gran s
  | .moveComplete g gran => Sys2Proof.Machine.execMoveComplete g gran s
  | .pin p pa => Sys2Proof.Machine.execPin p pa s
  | .unpin p pa => Sys2Proof.Machine.execUnpin p pa s
  | .promote p pa => Sys2Proof.Machine.execPromote p pa s
  | .restore p pa => Sys2Proof.Machine.execRestore p pa s
  | .remapRebuilt g => Sys2Proof.Machine.execRemapRebuilt g s
  | .sePolicyWrite g off v part => Sys2Proof.Machine.execSePolicyWrite g off v part s
  | .scrubRead g tier ma err => Sys2Proof.Machine.execScrubRead g tier ma err s
  | .pageRetirement g tier ma => Sys2Proof.Machine.execPageRetirement g tier ma s
  | .retirementTimeout => Sys2Proof.Machine.execRetirementTimeout s
  | .channelFail ddr n => Sys2Proof.Machine.execChannelFail ddr n s
  | .slabStepTimeout => Sys2Proof.Machine.execSlabStepTimeout s
  | .partCreate c => Sys2Proof.Machine.execPartCreate c s
  | .partStart c => Sys2Proof.Machine.execPartStart c s
  | .partStop c => Sys2Proof.Machine.execPartStop c s
  | .partReset c => Sys2Proof.Machine.execPartReset c s
  | .partDelete c => Sys2Proof.Machine.execPartDelete c s
  | .dieEvacuate c => Sys2Proof.Machine.execDieEvacuate c s
  | .dieAdd c => Sys2Proof.Machine.execDieAdd c s
  | .slabAssign c => Sys2Proof.Machine.execSlabAssign c s
  | .slabRelease c => Sys2Proof.Machine.execSlabRelease c s
  | .rpAssign c => Sys2Proof.Machine.execRpAssign c s
  | .rpRelease c => Sys2Proof.Machine.execRpRelease c s
  | .partQuery c => Sys2Proof.Machine.execPartQuery c s
  | .mgrCmdReserved c op => Sys2Proof.Machine.execMgrCmdReserved c op s
  | .lifecycleStepTimeout => Sys2Proof.Machine.execLifecycleStepTimeout s
  | .selfrst p => Sys2Proof.Machine.execSelfrst p s
  | .park p h => Sys2Proof.Machine.execPark p h s
  | .start p h => Sys2Proof.Machine.execStart p h s
  | .parkTimeout h => Sys2Proof.Machine.execParkTimeout h s
  | .send p dst => Sys2Proof.Machine.execSend p dst s
  | .mbxRxpop p => Sys2Proof.Machine.execMbxRxpop p s
  | .mbxRxirqWrite p v => Sys2Proof.Machine.execMbxRxirqWrite p v s
  | .dmaWrite t => Sys2Proof.Machine.execDmaWrite t s
  | .dmaRead t => Sys2Proof.Machine.execDmaRead t s
  | .atomicop t op opnd cmp => Sys2Proof.Machine.execAtomicop t op opnd cmp s
  | .msi t => Sys2Proof.Machine.execMsi t s
  | .zeroLengthRead t => Sys2Proof.Machine.execZeroLengthRead t s
  | .completionTlp rp tag ok v => Sys2Proof.Machine.execCompletionTlp rp tag ok v s
  | .cplTimeout rp tag => Sys2Proof.Machine.execCplTimeout rp tag s
  | .cxlRdcurr rp pa => Sys2Proof.Machine.execCxlRdcurr rp pa s
  | .cxlRdshared rp pa => Sys2Proof.Machine.execCxlRdshared rp pa s
  | .cxlRdown rp pa => Sys2Proof.Machine.execCxlRdown rp pa s
  | .cxlRdownnodata rp pa => Sys2Proof.Machine.execCxlRdownnodata rp pa s
  | .cxlItomwr rp pa v poison => Sys2Proof.Machine.execCxlItomwr rp pa v poison s
  | .cxlDirtyevict rp pa v poison => Sys2Proof.Machine.execCxlDirtyevict rp pa v poison s
  | .cxlCleanevict rp pa => Sys2Proof.Machine.execCxlCleanevict rp pa s
  | .cxlSnoopTimeout rp pa => Sys2Proof.Machine.execCxlSnoopTimeout rp pa s
  | .cxlMemTimeout rp pa => Sys2Proof.Machine.execCxlMemTimeout rp pa s
  | .linkDownDpc rp link => Sys2Proof.Machine.execLinkDownDpc rp link s
  | .slotControlWrite rp link v => Sys2Proof.Machine.execSlotControlWrite rp link v s
  | .slotPinChange rp link pin level => Sys2Proof.Machine.execSlotPinChange rp link pin level s
  | .imsicClaim h file sel wr v => Sys2Proof.Machine.execImsicClaim h file sel wr v s
  | .aplicSource p src level => Sys2Proof.Machine.execAplicSource p src level s
  | .gpioInput pin level => Sys2Proof.Machine.execGpioInput pin level s
  | .mgtBar0Access wr off v => Sys2Proof.Machine.execMgtBar0Access wr off v s
  | .tapInstruction ir hart => Sys2Proof.Machine.execTapInstruction ir hart s
  | .sqTailDoorbell part vf y v => Sys2Proof.Machine.execSqTailDoorbell part vf y v s
  | .cqHeadDoorbell part vf y v => Sys2Proof.Machine.execCqHeadDoorbell part vf y v s
  | .ccEnSet part vf cc acq => Sys2Proof.Machine.execCcEnSet part vf cc acq s
  | .controllerReset part vf => Sys2Proof.Machine.execControllerReset part vf s
  | .bqeAdmission vf q e fetchFault => Sys2Proof.Machine.execBqeAdmission vf q e fetchFault s
  | .deleteIoSq vf => Sys2Proof.Machine.execDeleteIoSq vf s
  | .createIoSq vf => Sys2Proof.Machine.execCreateIoSq vf s
  | .getLogPage vf => Sys2Proof.Machine.execGetLogPage vf s
  | .deleteIoCq vf => Sys2Proof.Machine.execDeleteIoCq vf s
  | .createIoCq vf => Sys2Proof.Machine.execCreateIoCq vf s
  | .identify vf => Sys2Proof.Machine.execIdentify vf s
  | .abort vf => Sys2Proof.Machine.execAbort vf s
  | .setFeatures vf => Sys2Proof.Machine.execSetFeatures vf s
  | .getFeatures vf => Sys2Proof.Machine.execGetFeatures vf s
  | .asynchronousEventRequest vf => Sys2Proof.Machine.execAsynchronousEventRequest vf s
  | .nvmeInvalidOpcode vf n => Sys2Proof.Machine.execNvmeInvalidOpcode vf n s
  | .flush n => Sys2Proof.Machine.execFlush n s
  | .write n => Sys2Proof.Machine.execWrite n s
  | .read n => Sys2Proof.Machine.execRead n s
  | .compare n => Sys2Proof.Machine.execCompare n s
  | .writeZeroes n => Sys2Proof.Machine.execWriteZeroes n s
  | .datasetManagement n => Sys2Proof.Machine.execDatasetManagement n s
  | .rangeLockGrant n => Sys2Proof.Machine.execRangeLockGrant n s
  | .backingCompletion n ok => Sys2Proof.Machine.execBackingCompletion n ok s
  | .backingTimeout n => Sys2Proof.Machine.execBackingTimeout n s
  | .mapCommitComplete nsid span ok => Sys2Proof.Machine.execMapCommitComplete nsid span ok s
  | .flr vf => Sys2Proof.Machine.execFlr vf s
  | .ps1Entry vf => Sys2Proof.Machine.execPs1Entry vf s
  | .proxyAccess rp rid page off wr data => Sys2Proof.Machine.execProxyAccess rp rid page off wr data s
  | .driveLost drv => Sys2Proof.Machine.execDriveLost drv s
  | .poolRebuildDone p maps => Sys2Proof.Machine.execPoolRebuildDone p maps s
  | .bhDriveAttach c id => Sys2Proof.Machine.execBhDriveAttach c id s
  | .bhDriveDetach c => Sys2Proof.Machine.execBhDriveDetach c s
  | .bhPoolAdd c => Sys2Proof.Machine.execBhPoolAdd c s
  | .bhPoolRemove c => Sys2Proof.Machine.execBhPoolRemove c s
  | .bhNsCreate c => Sys2Proof.Machine.execBhNsCreate c s
  | .bhNsDelete c => Sys2Proof.Machine.execBhNsDelete c s
  | .bhNsAttach c => Sys2Proof.Machine.execBhNsAttach c s
  | .bhNsDetach c => Sys2Proof.Machine.execBhNsDetach c s
  | .bhVfCreate c => Sys2Proof.Machine.execBhVfCreate c s
  | .bhVfDelete c => Sys2Proof.Machine.execBhVfDelete c s
  | .bhVfShare c => Sys2Proof.Machine.execBhVfShare c s
  | .bhVfFreeze c => Sys2Proof.Machine.execBhVfFreeze c s
  | .vfFreezeTimeout vf => Sys2Proof.Machine.execVfFreezeTimeout vf s
  | .bhVfSave c => Sys2Proof.Machine.execBhVfSave c s
  | .bhVfRestore c => Sys2Proof.Machine.execBhVfRestore c s
  | .bhVfThaw c => Sys2Proof.Machine.execBhVfThaw c s
  | .bhDirtyLog c => Sys2Proof.Machine.execBhDirtyLog c s
  | .bhFwActivate c => Sys2Proof.Machine.execBhFwActivate c s
  | .bhActivationAbandon => Sys2Proof.Machine.execBhActivationAbandon s
  | .pairHelloSend => Sys2Proof.Machine.execPairHelloSend s
  | .pairHello pairId descs => Sys2Proof.Machine.execPairHello pairId descs s
  | .mirror f => Sys2Proof.Machine.execMirror f s
  | .bulk f => Sys2Proof.Machine.execBulk f s
  | .hartFrame f => Sys2Proof.Machine.execHartFrame f s
  | .ctrlFrame f => Sys2Proof.Machine.execCtrlFrame f s
  | .bqeFrame f => Sys2Proof.Machine.execBqeFrame f s
  | .blkFrame f => Sys2Proof.Machine.execBlkFrame f s
  | .epochEnd f => Sys2Proof.Machine.execEpochEnd f s
  | .commit f => Sys2Proof.Machine.execCommit f s
  | .fatal f => Sys2Proof.Machine.execFatal f s
  | .handover f => Sys2Proof.Machine.execHandover f s
  | .taken f => Sys2Proof.Machine.execTaken f s
  | .pairFrameReserved f => Sys2Proof.Machine.execPairFrameReserved f s
  | .epochClose p => Sys2Proof.Machine.execEpochClose p s
  | .ckpt p target => Sys2Proof.Machine.execCkpt p target s
  | .epochCloseTimeout p => Sys2Proof.Machine.execEpochCloseTimeout p s
  | .sendLogFull => Sys2Proof.Machine.execSendLogFull s
  | .sendLogDrained => Sys2Proof.Machine.execSendLogDrained s
  | .pairLinkLoss => Sys2Proof.Machine.execPairLinkLoss s
  | .pairLinkReturn => Sys2Proof.Machine.execPairLinkReturn s
  | .autotakeTimeout => Sys2Proof.Machine.execAutotakeTimeout s
  | .takeoverStepTimeout p fatal => Sys2Proof.Machine.execTakeoverStepTimeout p fatal s
  | .pairProtect c => Sys2Proof.Machine.execPairProtect c s
  | .pairUnprotect c => Sys2Proof.Machine.execPairUnprotect c s
  | .pairSwitch c => Sys2Proof.Machine.execPairSwitch c s
  | .pairTakeover c => Sys2Proof.Machine.execPairTakeover c s
  | .pairRelease c => Sys2Proof.Machine.execPairRelease c s
  | .pairQuery c => Sys2Proof.Machine.execPairQuery c s
  | .pwrokRise hw => Sys2Proof.Machine.execPwrokRise hw s
  | .pkgRstNRise hw => Sys2Proof.Machine.execPkgRstNRise hw s
  | .pkgRstNFall ns => Sys2Proof.Machine.execPkgRstNFall ns s
  | .pwrokFall => Sys2Proof.Machine.execPwrokFall s
  | .startStepFail step => Sys2Proof.Machine.execStartStepFail step s
  | .rcWrite c => Sys2Proof.Machine.execRcWrite c s
  | .rcVerify c => Sys2Proof.Machine.execRcVerify c s
  | .rcDisarm c => Sys2Proof.Machine.execRcDisarm c s
  | .rcRollback c => Sys2Proof.Machine.execRcRollback c s
  | .rcRead c => Sys2Proof.Machine.execRcRead c s
  | .rcSvnRaise c => Sys2Proof.Machine.execRcSvnRaise c s
  | .coxFwActivate c => Sys2Proof.Machine.execCoxFwActivate c s
  | .heartbeatMiss => Sys2Proof.Machine.execHeartbeatMiss s
  | .probationEnd => Sys2Proof.Machine.execProbationEnd s
  | .lockstepMiscompare active => Sys2Proof.Machine.execLockstepMiscompare active s
  | .warmStart c => Sys2Proof.Machine.execWarmStart c s
  | .logRead c => Sys2Proof.Machine.execLogRead c s
  | .dieBist c => Sys2Proof.Machine.execDieBist c s
  | .linkFull c => Sys2Proof.Machine.execLinkFull c s
  | .memTest c => Sys2Proof.Machine.execMemTest c s
  | .rpMargin c => Sys2Proof.Machine.execRpMargin c s
  | .wgRecal c => Sys2Proof.Machine.execWgRecal c s
  | .l3Bank c => Sys2Proof.Machine.execL3Bank c s
  | .selftestComplete result detail pages => Sys2Proof.Machine.execSelftestComplete result detail pages s
  | .errInject c => Sys2Proof.Machine.execErrInject c s
  | .ppaAllocation pIod pHbm pkg => Sys2Proof.Machine.execPpaAllocation pIod pHbm pkg s
  | .railSettled d => Sys2Proof.Machine.execRailSettled d s
  | .avsTimeout d => Sys2Proof.Machine.execAvsTimeout d s
  | .powerEstimate d est avg => Sys2Proof.Machine.execPowerEstimate d est avg s
  | .throttleLevelDown d => Sys2Proof.Machine.execThrottleLevelDown d s
  | .sensorRead sensor temp => Sys2Proof.Machine.execSensorRead sensor temp s
  | .thermalStep d => Sys2Proof.Machine.execThermalStep d s
  | .thermalPersist d => Sys2Proof.Machine.execThermalPersist d s
  | .d3Entry d => Sys2Proof.Machine.execD3Entry d s
  | .d3EntryAbort d => Sys2Proof.Machine.execD3EntryAbort d s
  | .k3Entry => Sys2Proof.Machine.execK3Entry s
  | .k3Wake src => Sys2Proof.Machine.execK3Wake src s
  | .timerCompare h => Sys2Proof.Machine.execTimerCompare h s
  | .refLoss => Sys2Proof.Machine.execRefLoss s
  | .railFail rail => Sys2Proof.Machine.execRailFail rail s
  | .faultRecordService frame => Sys2Proof.Machine.execFaultRecordService frame s
  | .incidentClose => Sys2Proof.Machine.execIncidentClose s
  | .ceRateWindow => Sys2Proof.Machine.execCeRateWindow s
  | .fltPpop p => Sys2Proof.Machine.execFltPpop p s
  | .fltPirqWrite p v => Sys2Proof.Machine.execFltPirqWrite p v s
  | .fltPkgWrite v part => Sys2Proof.Machine.execFltPkgWrite v part s
  | .errInjWrite frame v part => Sys2Proof.Machine.execErrInjWrite frame v part s
  | .injectionFire frame ev => Sys2Proof.Machine.execInjectionFire frame ev s
  | .windowBoundary => Sys2Proof.Machine.execWindowBoundary s
  | .iofWinCtlWrite v part => Sys2Proof.Machine.execIofWinCtlWrite v part s
  | .registerWrite frame off v part => Sys2Proof.Machine.execRegisterWrite frame off v part s
  | .alwaysOnRailRemoved => Sys2Proof.Machine.execAlwaysOnRailRemoved s
  | .epochDrainTimeout => Sys2Proof.Machine.execEpochDrainTimeout s
  | .interruptCoalescingTime vf => Sys2Proof.Machine.execInterruptCoalescingTime vf s
  | .cxlSnoopAnswer rp pa dirty v poison => Sys2Proof.Machine.execCxlSnoopAnswer rp pa dirty v poison s
  | .cxlMemAnswer rp pa wr v poison => Sys2Proof.Machine.execCxlMemAnswer rp pa wr v poison s
  | .pcieLinkUp rp link speed width cxl => Sys2Proof.Machine.execPcieLinkUp rp link speed width cxl s
  | .coxActivationTimeout step => Sys2Proof.Machine.execCoxActivationTimeout step s
  | .crosslinkLoss n => Sys2Proof.Machine.execCrosslinkLoss n s
  | .atsTranslationRequest rp rid iova xl => Sys2Proof.Machine.execAtsTranslationRequest rp rid iova xl s
  | .pageRequestMessage rp rid iova grp => Sys2Proof.Machine.execPageRequestMessage rp rid iova grp s

end Sys2Proof.Machine
end

