-- ==== Sys2Proof/Machine/Tick.lean ====
section
/-! DEFINITION. What one nanosecond of the timebase does when no command waits (R470, R494): the counters that time drives, and the
procedures of the Cox that go on by themselves.
Log entries with the choices and readings made here: 1, 30, 72, 73, 121, 167, 186. -/

namespace Sys2Proof.Machine

/-- Core cycles of a die in the nanosecond that ends at `t`: the root PLL of 12 GHz divided by the level's k (Table 14.2). -/
def coreCycles (s : State) (d t : Nat) : Nat :=
  let k := lvlDiv (fld s (frDie d) 0x208 0 3)
  12 * t / k - 12 * (t - 1) / k

/-- Is an instruction of the window in execution, neither complete nor taken by an exception? -/
def inExec (o : HOp) : Bool := !o.ret && o.res.isNone && o.exc.isNone
/-- Does a load that has missed the L1D wait because all 16 miss buffers are busy with other lines (R42)? -/
def waitsMb (x : Hart) : Bool :=
  decide (16 ≤ x.mb.length) && x.ops.any (fun o => inExec o && o.l1m && ((insAcc o.ins).any (fun m =>
    (accLines m).any (fun l => !(l1dHit x m l) && x.mb.all (fun e => decide (e.1 ≠ l))))))
/-- Does a store wait for an entry of the store buffer (R44)? -/
def waitsSb (x : Hart) : Bool :=
  x.ops.any (fun o => inExec o && (match o.ins with
    | .store m _ => !(sbRoom x (accLines m))
    | _ => false))
/-- Does a fill wait in its miss handler for a write-back buffer (R55)? A fill that is complete waits for nothing else. -/
def waitsWbb (x : Hart) : Bool :=
  decide (16 ≤ x.wb.length) && x.hnd.any (fun e => e.2.gotComp && (e.2.gotData || decide (l2St x e.2.line ≠ .i) || decide (e.2.op = oClaimOwn)) &&
    decide (e.2.op ≠ oCboClean) && decide (e.2.op ≠ oCboFlush))
/-- Does the walker run for an instruction of the window? -/
def walking (x : Hart) : Bool := x.ops.any (fun o => inExec o && !(o.walk.isEmpty && o.ads.isEmpty))

/-- The level events of Table 16.2 that the state of a core shows: code and value. -/
def levelEvents (x : Hart) : List (Nat × Nat) :=
  [(0x001, 1), (0x025, hndBusy x), (0x026, b2n (l2Stalled x)), (0x027, b2n (waitsMb x)), (0x028, b2n (waitsSb x)),
   (0x029, b2n (waitsWbb x)), (0x062, b2n (!x.deferred.isEmpty))]

/-- The events of Table 16.2 that happen inside the pipeline, with their greatest value: the state does not show them. -/
def innerEvents (x : Hart) : List (Nat × Nat) :=
  [(0x022, 1), (0x02E, 3), (0x050, 2), (0x051, 1)] ++ (if walking x then [] else [(0x02F, 1)])

/-- How the six decode slots of a cycle divide (R534, Table 16.2): free values `a` to `d` choose whether the cycle is one of recovery, how
many slots issue, which of the others lack an instruction, and whether the stalled ones wait for a memory operation. -/
def slotEvents (a b c d : Nat) : List (Nat × Nat) :=
  let rec_ := if a % 2 = 0 then 6 else 0
  let iss := b % (7 - rec_)
  let fe := c % (7 - rec_ - iss)
  let be := 6 - rec_ - iss - fe
  [(0x010, iss), (0x011, fe), (0x012, be), (0x013, rec_), (0x014, d % 2 * be)]

/-- Does a counter of the hart select an event? -/
def selects (x : Hart) (code : Nat) : Bool := x.hpm.any (fun e => decide (bits e.2.ev.toNat 0 10 = code))

/-- One core cycle of a hart out of sleep (R34, R533, R535). The pipeline's own events present free values. -/
def coreCycle (h : Nat) (s : State) : State :=
  let s := updHart h (fun x =>
    let y := (levelEvents x ++ (if walking x then [(0x02F, 1)] else [])).foldl (fun (y : Hart) (e : Nat × Nat) => event e.1 e.2 y) x
    { y with mcycle := if y.mcountinhibit.getLsbD 0 then y.mcycle else y.mcycle + 1 }) s
  let s := if (List.range 5).any (fun i => selects (hart s h) (0x010 + i)) then
      let f := fun (i : Nat) => Config.freeNat (s.free + i)
      updHart h (fun x => (slotEvents (f 0) (f 1) (f 2) (f 3)).foldl (fun y e => event e.1 e.2 y) x) { s with free := s.free + 4 }
    else s
  ((innerEvents (hart s h)).filter (fun e => selects (hart s h) e.1)).foldl (fun s e =>
    let q := drawNat s
    updHart h (event e.1 (q.1 % (e.2 + 1))) q.2) s

/-- The core cycles of one nanosecond. -/
def hartsTick (s : State) : State :=
  ((s.harts.filter (fun e => decide (e.2.st = .run))).map (·.1)).foldl (fun s h =>
    (List.range (coreCycles s (h / 48) s.tb)).foldl (fun s _ => coreCycle h s) s) s

/-- A counter adds at most `n` of what the state does not show. -/
def countFree (f i n : Nat) (s : State) : State := let q := drawNat s; count f i (q.1 % (n + 1)) q.2

/-- The reads that a controller holds. -/
def readQueue (s : State) (f : Nat) : Nat := (s.memq.filter (fun q => !q.wr && q.loc.any (fun k => decide (frCtl k = f)))).length

/-- The counters that count fabric cycles, two in a nanosecond (Table 16.3), and the rotating pointer of each home (R159). The
cycles in which a flit waits for a credit, or refresh blocks a controller, are free values. -/
def fabricTick (s : State) : State :=
  let s := s.homes.foldl (fun s e => count (frHa e.1) 10 (2 * min e.2.trk.length 1536) (updHome e.1 (fun x => { x with ptr := (x.ptr + 2) % 4 }) s)) s
  let s := ((List.range 12).filter (fun d => linkSt s d false = lL0)).foldl (fun s d =>
    let s := countFree (frAp d) 8 2 (count (frAp d) 12 2 s)
    if (die s d).d3 then s else countFree (frDie d) 8 2 (count (frDie d) 12 2 s)) s
  ((List.range 4).map frHc ++ (List.range 16).map frDc).foldl (fun s f => countFree f 3 4 (count f 4 (2 * readQueue s f) s)) s

/-- A die's copy of the timebase advances with the die's own root, which stops in D3 and while the die is off (R495). -/
def copyTick (s : State) : State :=
  ((List.range 12).filter (fun d => !(die s d).d3 && decide (linkSt s d false ≠ lOFF))).foldl (fun s d => updDie d (fun x => { x with tbc := x.tbc + 1 }) s) s

/-- One nanosecond of a package that has power. In K3 the timebase counts the edges of the reference (R496). -/
def tick (s : State) : State :=
  if s.pins.pwrok = false ∨ s.card.dark = true then s
  else if s.card.k3 then { s with tb := s.tb + 10 }
  else
    let s := hartsTick (copyTick { s with tb := s.tb + 1 })
    let s := (List.range 12).foldl (fun s d => d3Advance d s) (fabricTick s)
    coxGo (pairTick (fwTick (startGo s)))

end Sys2Proof.Machine
end

