-- ==== Sys2Proof/Machine/Step.lean ====
section
/-! DEFINITION. One step of the block: the command at the front of the queue, or a nanosecond when none waits.
Log entries with the choices and readings made here: 1, 8. -/

namespace Sys2Proof.Machine

/-- Take the command at the front of the queue and run it with the queue's rest; with no command waiting, a nanosecond passes. -/
def step (s : State) : Host.Outcome State Fault Refusal :=
  match s.pending with
  | [] => done (tick s)
  | c :: rest => exec c { s with pending := rest }

/-- A command that a word spells goes to the front of the queue. The table of operations gives no bits to any row, so no word
spells one. -/
def State.withFetchWord (s : State) (nbits w : Nat) : State :=
  match Sys2Proof.decodeTableWord nbits w with
  | some c => { s with pending := c :: s.pending }
  | none => s

end Sys2Proof.Machine
end

