-- ==== Sys2Proof/Safety.lean ====
section
/-! DEFINITION. The terms in which claims speak of the block: when commands act, what a command leaves beside its own operation, and
the invariants. -/

namespace Sys2Proof.Machine

/-- The package has power and no shutdown has ended it: commands act (R569, R572). -/
abbrev Live (s : State) : Prop := s.pins.pwrok = true ∧ s.card.dark = false

/-- A command that the package itself performs, and so only while it has power: not a power pin's, and not a hart's own instruction or
event, which acts where the hart executes. -/
def NeedsPower (c : Instr) : Prop :=
  match c with
  | .load _ _ => False
  | .store _ _ => False
  | .amo _ _ _ _ _ => False
  | .lr _ _ _ => False
  | .sc _ _ _ _ => False
  | .amocas _ _ _ _ _ => False
  | .fence _ _ _ => False
  | .fenceI _ => False
  | .sfenceWInval _ => False
  | .sfenceInvalIr _ => False
  | .wfi _ => False
  | .cboClean _ => False
  | .cboFlush _ => False
  | .cboInval _ => False
  | .cboZero _ => False
  | .prefetchI _ => False
  | .prefetchR _ => False
  | .prefetchW _ => False
  | .wrsNto _ => False
  | .wrsSto _ => False
  | .wrsStoTimeout _ => False
  | .storeBufferDrain _ _ => False
  | .l1Fill _ _ _ => False
  | .lrDeferExpire _ => False
  | .vendorCsrAccess _ _ _ _ => False
  | .rnbuoyctlWrite _ _ => False
  | .buoyPeriod _ => False
  | .mhpmeventWrite _ _ _ => False
  | .hpmCounterWrite _ _ _ => False
  | .hpmCounterOverflow _ _ => False
  | .interruptUpdate _ => False
  | .pwrokRise _ => False
  | .pkgRstNRise _ => False
  | .pkgRstNFall _ => False
  | .pwrokFall => False
  | .alwaysOnRailRemoved => False
  | _ => True

/-- What follows a command's own operation: the work that the Cox can do at once, then the alert pins at the levels that the registers
give them. -/
def after (s : State) : State := settle (coxGo s)

/-- The Cox has nothing under way: no command runs or waits, no procedure runs beside them, and no CoxCmd waits for its engine. -/
abbrev CoxIdle (s : State) : Prop := s.cox.cur = none ∧ s.cox.queue = [] ∧ s.cox.bg = [] ∧ s.cox.cmds = []

/-- The Cox serves commands: it is on, the start has completed, and no package-fatal error is latched. -/
abbrev CoxServes (s : State) : Prop :=
  coxOn s = true ∧ ucp s = false ∧ s.card.stopped = false ∧ s.card.start = none ∧ s.card.up = true

/-- A manager command stands in its source's frame, BUSY, and the Cox runs it (R310). -/
def cmdTaken (pr : Proc) (s : State) : State :=
  let fr := mgrFrame pr.c.src
  let t := setFld fr 0x028 0 1 1 (setReg fr 0x000 pr.c.a0 (setReg fr 0x008 pr.c.a1 s))
  { t with cox := { t.cox with cur := some pr, queue := [] } }

/-- The Cox takes a manager command at once: it is at rest and serves commands, the sender holds the role and is not BUSY, and no
self-test runs on the command's target (R309, R310, R463). -/
abbrev CoxTakes (pr : Proc) (s : State) : Prop :=
  Live s ∧ CoxIdle s ∧ CoxServes s ∧ mgrHas s pr.c.src = true ∧ fbit s (mgrFrame pr.c.src) 0x028 0 = false ∧ pr.step = 0 ∧
  namesTest (cmdTaken pr s) pr = false

/-- What the Cox does after the first step of a command, which it began at rest, and the alert pins. -/
def coxThen (t : State) : State := settle (coxEnd [] (coxRun 62 t))

/-- A hart with nothing open: it executes, no instruction of its own waits, its store buffer and miss handlers are empty, no snoop is
deferred, and the Buoy is off. -/
abbrev Quiet (s : State) (h : Nat) : Prop :=
  running s h = true ∧ (hart s h).ops = [] ∧ (hart s h).sb = [] ∧ (hart s h).hnd = [] ∧ (hart s h).deferred = [] ∧
  (hart s h).rnbuoyctl.getLsbD 0 = false ∧ (hart s h).buoy.tagged = none

/-- An access that raises no exception is issued: it joins the instructions of the hart with the page-table entries that the walker must
read and set for it (R32, R52), and the hart goes on. -/
def issued (i : Instr) (m : MemAcc) (wr : Bool) (s : State) : State :=
  hartGo m.hart (issueOp m.hart { ins := i, walk := walkReads m, ads := walkSets s m wr } s)

/-- An instruction without an access to translate is issued: it joins the instructions of the hart, and the hart goes on. -/
def joined (h : Nat) (i : Instr) (s : State) : State := hartGo h (issueOp h { ins := i } s)

/-- No port and no router on its way refuses a flit (R246, R248, R253, R258). -/
abbrev clearWay (f : Flit) (s : State) : Prop := (portMeets f s).isNone = true ∧ (meshMeets f s).isNone = true

/-- A flit of a kind can be delivered: both agents exist, what was sent before it on its way has arrived, and nothing on its way keeps or
refuses it (R20, R82, R237). -/
abbrev Arrives (n : Net) (op : Nat) (f : Flit) (s : State) : Prop := isMsg n op f = true ∧ mayArrive s f = true ∧ clearWay f s

/-- A partition that sees a frame, or the system, may write it (R553). -/
abbrev MayWrite (s : State) (part f : Nat) : Prop := part = 15 ∨ (part < 12 ∧ seesFrame s part f = true)

/-- The state in which a home judges a request: it has looked at its own copy of the slab table (R274). -/
def judged (f : Flit) (t : State) : State := (slabCheck (agUnit f.dst) f.addr f.part t).2

/-- A home serves a request: its domain is not torn down, and the slab table allows it (R156, R268, R325). -/
abbrev HomeServes (f : Flit) (s : State) : Prop :=
  isHome f.dst = true ∧ domainOff s (agUnit f.dst) f = false ∧ (slabCheck (agUnit f.dst) f.addr f.part s).1 = none

/-- A home takes a new request: it serves it, and neither a directory entry nor a tracker is lacking (R171). -/
abbrev HomeTakes (f : Flit) (s : State) : Prop :=
  HomeServes f s ∧ f.rsv = false ∧ (mustChain (home s (agUnit f.dst)) f = true ∨ setRefused (home s (agUnit f.dst)) f = none) ∧
  trkFree (home s (agUnit f.dst)) = true ∧ (home s (agUnit f.dst)).rq.all rqIsSet = true

/-- A home takes a request that is sent again with RSV: it serves it and keeps `r` for it (R173). -/
abbrev HomeKept (f : Flit) (r : RqEnt) (s : State) : Prop :=
  HomeServes f s ∧ f.rsv = true ∧ (home s (agUnit f.dst)).rsv.find? (fun r => r.src = f.src ∧ r.txn = f.txn) = some r

/-- A slice takes a request: its line is not held, a tracker is free, and its set's queue has room (R100, R104, R112). -/
abbrev SliceTakes (f : Flit) (s : State) (i : Nat) : Prop :=
  isSlice f.dst = true ∧ mustHold s (agDie f.dst) (agUnit f.dst - 64) (lineOf f.addr) = false ∧
  freeTx (slice s (agDie f.dst) (agUnit f.dst - 64)) = some i ∧ (slice s (agDie f.dst) (agUnit f.dst - 64)).setWait.length < 8

/-- The translation of an access raises nothing: no A or D bit is to be set, and the entries that are read lie in main memory (R32, R35). -/
abbrev Translated (s : State) (m : MemAcc) : Prop :=
  m.x.pte = none ∧ m.x2.pte = none ∧ ∀ a, a ∈ m.x.walk ++ m.x2.walk → pma s (hartPart s m.hart) a = .main

/-- The alert outputs agree with the fault window: `ALERT_UC_N` with UCALERT, `ALERT_CE_N` with the count and the threshold, and
`ALERT_FATAL_N` is low once UCP is latched (R522 to R524). They drive nothing before the first PWROK. -/
def AlertsAgree (s : State) : Prop :=
  s.pins.uc = (s.pins.everUp && fbit s frFlt 0 1) ∧
  s.pins.ce = (s.pins.everUp && decide (fld s frFlt 8 16 16 ≠ 0) && decide (fld s frFlt 8 16 16 ≤ fld s frFlt 0 16 32)) ∧
  (s.pins.everUp = true → fbit s frFlt 0 0 = true → s.pins.fatal = true)

/-- The fields of a flit that its bits carry: the others at their defaults (Tables 4.5, 4.6, 4.9, 4.10). -/
def carried (f : Flit) : Flit :=
  let c : Flit := { net := f.net, op := f.op, src := f.src, dst := f.dst, txn := f.txn, part := f.part, epoch := f.epoch, sys := f.sys }
  match f.net with
  | .req => { c with addr := f.addr, datadst := f.datadst, datatxn := f.datatxn, rgnok := f.rgnok, rsv := f.rsv, size := f.size }
  | .snp => { c with addr := f.addr, fwd := f.fwd, ftxn := f.ftxn, fcomp := f.fcomp }
  | .rsp =>
    if f.op = oComp ∨ f.op = oCompAck then { c with st := f.st, rgn := f.rgn }
    else if f.op = oSnpRsp then { c with st := f.st, fwdd := f.fwdd, wb := f.wb, ndata := f.ndata }
    else if f.op = oEvictAck then { c with stale := f.stale }
    else if f.op = oFault then { c with cause := f.cause }
    else if f.op = oIoComp then { c with err := f.err }
    else c
  | .dat => { c with st := f.st, rgn := f.rgn, comp := f.comp, poison := f.poison, idx := f.idx }

end Sys2Proof.Machine
end

