-- ==== Sys2Proof/Certificates/Slice0/Obligations.lean ====
section
/-! DEFINITION. The statements about the block: what a step is, how every command completes, what the block's rules ask of its errors,
registers, memory, routes, partitions and alerts. -/

open Sys2Proof Sys2Proof.Machine

/-- A step takes the command at the front of the queue and runs it with the queue's rest. -/
def Obligations.StepTakesFrontCommand : Prop :=
  ∀ (c : Instr) (rest : List Instr) (s : State), s.pending = c :: rest → step s = exec c { s with pending := rest }

/-- The model's choice (log entry 1): with no command waiting a step is one nanosecond of the package. Without power, or after a shutdown, nothing happens but that the alert outputs follow their registers; in K3 the timebase still counts, by ten (R496). -/
def Obligations.IdleStepPassesANanosecond : Prop :=
  (∀ s : State, s.pending = [] → step s = .next (settle (tick s))) ∧
  (∀ s : State, s.pending = [] → ¬Live s → step s = .next (settle s)) ∧
  (∀ s : State, s.pending = [] → Live s → s.card.k3 = true → step s = .next (settle { s with tb := s.tb + 10 }))

/-- Right after reset no power is good, nothing is in flight, memory lists no byte, every slab is VACANT, every stored register holds the value that its fields' reset column gives (among them `FLT_CTL.CETHR` 0x0100, `CERATE` 10 and `RING_HEAD.NEXT` 1, Table 15.9), the timebase is 0 and the alert outputs drive nothing. That reset is the state before the first PWROK is the model's choice (log entry 2), as is the zero of memory (log entry 5). -/
def Obligations.ResetState : Prop :=
  (State.reset.pins.pwrok = false ∧ State.reset.pins.everUp = false ∧ State.reset.pins.fatal = false ∧ State.reset.pins.uc = false ∧ State.reset.pins.ce = false) ∧
  (State.reset.pending = [] ∧ State.reset.wires = [] ∧ State.reset.memq = [] ∧ State.reset.mem = [] ∧ State.reset.tb = 0) ∧
  (∀ n : Nat, slState (slabEnt State.reset n) = slVACANT) ∧
  (∀ f off : Nat, reg State.reset f off = BitVec.ofNat 64 (resetWord (fieldsAt f off))) ∧
  (fld State.reset frFlt 0x008 16 16 = 0x0100 ∧ fld State.reset frFlt 0x008 32 16 = 10 ∧ fld State.reset frFlt 0x010 0 10 = 1 ∧ reg State.reset frFlt 0x000 = 0#64) ∧
  (∀ p : Nat, mbxOf State.reset p = [])

/-- After reset the alert outputs agree with the fault window: they drive nothing. -/
def Obligations.AlertsAgreeAtReset : Prop :=
  AlertsAgree State.reset

/-- Whatever a step does, the state that it answers has `ALERT_UC_N` low exactly while UCALERT is set, `ALERT_CE_N` low exactly while CECNT is at least CETHR and CETHR is nonzero, and `ALERT_FATAL_N` low once UCP is latched (R522 to R524), provided the package has been powered; and a step from a state that agrees answers one that agrees. -/
def Obligations.AlertsFollowTheRegisters : Prop :=
  ∀ s t : State, step s = .next t → AlertsAgree t

/-- A flit with every field within its width, spelled in the bits of Tables 4.5, 4.6, 4.9 and 4.10 and read back, gives the fields that its network and opcode carry, at every value the widths admit: no bit is dropped. -/
def Obligations.FlitBitsRoundTrip : Prop :=
  ∀ f : Flit, flitWf f = true → readFlit (flitBits f) { net := f.net } = carried f

/-- The SECDED (72,64) code of a lane (R190, Table 6.4): a codeword as sent decodes as no error; a check bit inverted is found and the data used as received; a data bit inverted is found and corrected; any two bits inverted are uncorrectable. -/
def Obligations.LaneCodeDecodes : Prop :=
  (∀ d : Nat, d < 2 ^ 64 → decodeSyn (syndrome d (checkBits d)) = .ok) ∧
  (∀ d j : Nat, d < 2 ^ 64 → j < 8 → decodeSyn (syndrome d (checkBits d ^^^ 2 ^ j)) = .check j) ∧
  (∀ d i : Nat, d < 2 ^ 64 → i < 64 → decodeSyn (syndrome (d ^^^ 2 ^ i) (checkBits d)) = .fixed i ∧ correct (d ^^^ 2 ^ i) (.fixed i) = d) ∧
  (∀ d i j : Nat, d < 2 ^ 64 → i < j → j < 64 → decodeSyn (syndrome (d ^^^ 2 ^ i ^^^ 2 ^ j) (checkBits d)) = .bad) ∧
  (∀ d i j : Nat, d < 2 ^ 64 → i < 64 → j < 8 → decodeSyn (syndrome (d ^^^ 2 ^ i) (checkBits d ^^^ 2 ^ j)) = .bad) ∧
  (∀ d i j : Nat, d < 2 ^ 64 → i < j → j < 8 → decodeSyn (syndrome d (checkBits d ^^^ 2 ^ i ^^^ 2 ^ j)) = .bad)

/-- No command is refused. Each answers a next state in every state, but for the two accesses of a memory controller, which may stop where the line's location holds no cell. -/
def Obligations.EveryCommandAnswers : Prop :=
  (∀ (c : Instr) (s : State), (∀ (pa : Nat) (e : CellErr), c ≠ .memoryRead pa e) → (∀ pa : Nat, c ≠ .memoryWrite pa) → ∃ t, exec c s = .next t) ∧
  (∀ (pa : Nat) (e : CellErr) (s : State), (∃ t, exec (.memoryRead pa e) s = .next t) ∨ exec (.memoryRead pa e) s = .fault .noCell) ∧
  (∀ (pa : Nat) (s : State), (∃ t, exec (.memoryWrite pa) s = .next t) ∨ exec (.memoryWrite pa) s = .fault .noCell)

/-- While PWROK is low, or after a shutdown by THERMTRIP, a command that the package itself would perform has no effect but that the alert outputs follow their registers (R569, R572). A hart's instruction has none where the hart does not execute. -/
def Obligations.NothingActsWithoutPower : Prop :=
  ∀ (c : Instr) (s : State), ¬Live s → NeedsPower c →
      exec c s = .next (settle s)

/-- An access that a running hart executes and that raises no exception joins the hart's instructions, with the page-table entries that the walker must read and set for it, and the hart goes on (R32, R33, R36, R47, R52, R66). Accesses that raise an exception are the subject of `AccessTraps`. -/
def Obligations.HartAccessesIssue : Prop :=
  (∀ (m : MemAcc) (nt : Bool) (s : State),
    running s m.hart = true → accTrap s m false 0 = none →
    exec (.load m nt) s =
      .next (settle (issued (.load m nt) m false s))) ∧
  (∀ (m : MemAcc) (v : Line) (s : State),
    running s m.hart = true → accTrap s m true 1 = none →
    exec (.store m v) s =
      .next (settle (issued (.store m v) m true s))) ∧
  (∀ (m : MemAcc) (op : AmoOp) (v : Word) (aq rl : Bool) (s : State),
    running s m.hart = true → accTrap s m true 3 = none →
    exec (.amo m op v aq rl) s =
      .next (settle (issued (.amo m op v aq rl) m true s))) ∧
  (∀ (m : MemAcc) (aq rl : Bool) (s : State),
    running s m.hart = true → accTrap s m false 2 = none →
    exec (.lr m aq rl) s =
      .next (settle (issued (.lr m aq rl) m false s))) ∧
  (∀ (m : MemAcc) (v : Word) (aq rl : Bool) (s : State),
    running s m.hart = true → accTrap s m true 3 = none →
    exec (.sc m v aq rl) s =
      .next (settle (issued (.sc m v aq rl) m true s))) ∧
  (∀ (m : MemAcc) (cmp new : BitVec 128) (aq rl : Bool) (s : State),
    running s m.hart = true → accTrap s m true 3 = none →
    exec (.amocas m cmp new aq rl) s =
      .next (settle (issued (.amocas m cmp new aq rl) m true s))) ∧
  (∀ (m : MemAcc) (s : State),
    running s m.hart = true → accTrap s { m with size := 1 } false 4 = none →
    exec (.cboClean m) s =
      .next (settle (issued (.cboClean m) { m with size := 1 } false s))) ∧
  (∀ (m : MemAcc) (s : State),
    running s m.hart = true → accTrap s { m with size := 1 } false 4 = none →
    exec (.cboFlush m) s =
      .next (settle (issued (.cboFlush m) { m with size := 1 } false s))) ∧
  (∀ (m : MemAcc) (s : State),
    running s m.hart = true → ((hart s m.hart).cbie = true ∨ (hart s m.hart).priv = .m) → accTrap s { m with size := 1 } false 4 = none →
    exec (.cboInval m) s =
      .next (settle (issued (.cboInval m) { m with size := 1 } false s))) ∧
  (∀ (m : MemAcc) (s : State),
    running s m.hart = true → accTrap s { m with size := 1 } true 4 = none →
    exec (.cboZero m) s =
      .next (settle (issued (.cboZero m) { m with size := 1 } true s)))

/-- A fence, a wait or a prefetch that a running hart executes joins the hart's instructions, and the hart goes on (R34, R51, R63, R65, R66, R67, R583). The end of a `wrs.sto` window and of a deferral window let the hart go on (R34, R62). What the instructions do in their turn is the subject of `HartInstructionsAct`. -/
def Obligations.HartWaitsAndFencesIssue : Prop :=
  (∀ (h : Nat) (fs : FenceSet) (tso : Bool) (s : State),
    running s h = true →
    exec (.fence h fs tso) s =
      .next (settle (joined h (.fence h (if tso then { pr := true, pw := true, sr := true, sw := true } else fs) tso) s))) ∧
  (∀ (h : Nat) (s : State),
    running s h = true →
    exec (.fenceI h) s =
      .next (settle (joined h (.fenceI h) s))) ∧
  (∀ (h : Nat) (s : State),
    running s h = true →
    exec (.sfenceWInval h) s =
      .next (settle (joined h (.sfenceWInval h) s))) ∧
  (∀ (h : Nat) (s : State),
    running s h = true →
    exec (.sfenceInvalIr h) s =
      .next (settle (joined h (.sfenceInvalIr h) s))) ∧
  (∀ (h : Nat) (s : State),
    running s h = true → ((hart s h).tw = false ∨ (hart s h).priv = .m) → ((hart s h).vtw = false ∨ (hart s h).priv ≠ .vs) →
    exec (.wfi h) s =
      .next (settle (joined h (.wfi h) s))) ∧
  (∀ (h : Nat) (s : State),
    running s h = true →
    exec (.wrsNto h) s =
      .next (settle (joined h (.wrsNto h) s))) ∧
  (∀ (h : Nat) (s : State),
    running s h = true →
    exec (.wrsSto h) s =
      .next (settle (joined h (.wrsSto h) s))) ∧
  (∀ (h : Nat) (s : State),
    exec (.wrsStoTimeout h) s =
      .next (settle (hartGo h (updHart h (fun x => { x with ops := x.ops.map wrsOver }) s)))) ∧
  (∀ (h : Nat) (s : State),
    exec (.lrDeferExpire h) s =
      .next (settle (hartGo h (updHart h closeWindow s)))) ∧
  (∀ (m : MemAcc) (s : State),
    running s m.hart = true →
    exec (.prefetchI m) s =
      .next (settle (joined m.hart (.prefetchI m) s))) ∧
  (∀ (m : MemAcc) (s : State),
    running s m.hart = true →
    exec (.prefetchR m) s =
      .next (settle (joined m.hart (.prefetchR m) s))) ∧
  (∀ (m : MemAcc) (s : State),
    running s m.hart = true →
    exec (.prefetchW m) s =
      .next (settle (joined m.hart (.prefetchW m) s)))

/-- The store buffer drains its oldest entry when it is due (R45, R46), an L1 takes a line that the L2 has (R39, R41), a Buoy period starts (R537), and a running hart's accesses to its vendor CSRs, event registers and counters join its instructions (R69 to R72, R532, R535). A counter at its top wraps and marks the overflow (R536), and an interrupt controller's update reaches the hart and wakes it (R349, R485). -/
def Obligations.HartEventsAct : Prop :=
  (∀ (h : Nat) (timer : Bool) (s : State),
    drainDue s h timer = true →
    exec (.storeBufferDrain h timer) s =
      .next (settle (hartGo h (updHart h (fun x => { x with sb := drainHead x.sb }) s)))) ∧
  (∀ (h line : Nat) (ifetch : Bool) (e : Nat × Nat) (s : State),
    (if ifetch then (hart s h).fmb else (hart s h).mb).find? (fun e => decide (e.1 = line)) = some e → l2St (hart s h) line ≠ .i → (hart s h).inq.any (fun q => decide (q.line = line)) = false →
    exec (.l1Fill h line ifetch) s =
      .next (settle (hartGo h (updHart h (fun x => if ifetch then { x with fmb := x.fmb.filter (fun y => y.1 ≠ line) } else { x with mb := x.mb.filter (fun y => y.1 ≠ line) })
      (l1Fill h line e.2 ifetch s))))) ∧
  (∀ (h csr : Nat) (wr : Bool) (v : Word) (s : State),
    running s h = true →
    exec (.vendorCsrAccess h csr wr v) s =
      .next (settle (joined h (.vendorCsrAccess h csr wr v) s))) ∧
  (∀ (h : Nat) (v : Word) (s : State),
    running s h = true →
    exec (.rnbuoyctlWrite h v) s =
      .next (settle (joined h (.rnbuoyctlWrite h v) s))) ∧
  (∀ (h n : Nat) (s : State),
    (hart s h).st = .run → (hart s h).rnbuoyctl.getLsbD 0 = true → (hart s h).buoy.left = 0 → n = 64 * bits (hart s h).rnbuoyctl.toNat 8 12 →
    exec (.buoyPeriod h) s =
      .next (settle (updHart h (fun x => { x with buoy := { x.buoy with left := n, pos := (drawNat s).1 % n, armed := true } }) (drawNat s).2))) ∧
  (∀ (h n : Nat) (v : Word) (s : State),
    running s h = true →
    exec (.mhpmeventWrite h n v) s =
      .next (settle (joined h (.mhpmeventWrite h n v) s))) ∧
  (∀ (h n : Nat) (v : Word) (s : State),
    running s h = true →
    exec (.hpmCounterWrite h n v) s =
      .next (settle (joined h (.hpmCounterWrite h n v) s))) ∧
  (∀ (h n : Nat) (s : State),
    (hart s h).st = .run → 3 ≤ n → n ≤ 10 → (mget (hart s h).hpm n).cnt = BitVec.allOnes 64 → bits (mget (hart s h).hpm n).ev.toNat 0 10 ≠ 0 → evInhibited (mget (hart s h).hpm n).ev (hart s h).priv = false → (hart s h).mcountinhibit.getLsbD n = false →
    exec (.hpmCounterOverflow h n) s =
      .next (settle (hartGo h (updHart h (fun x => { x with
      hpm := mset x.hpm n { mget x.hpm n with cnt := 0, ev := (mget x.hpm n).ev ||| (1#64 <<< 63) }
      lcofi := x.lcofi || !((mget x.hpm n).ev.getLsbD 63) }) s)))) ∧
  (∀ (f : Flit) (s : State),
    f.net = .req → f.op = oIntMsg → isCore f.dst = true → f.addr / 4096 % 16 < 9 →
    exec (.interruptUpdate f) s =
      .next (settle (wakeHart (agHart f.dst) (updHart (agHart f.dst) (fun x =>
      { x with topei := mset x.topei (f.addr / 4096 % 16) ((f.data.toNat >>> (8 * (f.addr % 64))) % 2048) }) (take f s)))))

/-- What an instruction does when the hart attempts it in program order. An AMO on a line that the L2 owns, with the older stores drained, reads and writes it in one step (R59, R60); an LR reserves its address and an SC succeeds only with a reservation on the very address, which it clears (R59, R61, R62); a CSR access reads and writes the CSR (R69 to R72, R532, R535), and so is a claim at an interrupt file (R349). A prefetch completes at once, and one for a line of main memory that the L2 lacks asks for it, in the L1 too when it is to be read (R50, R51, R56, R66, R67). -/
def Obligations.HartInstructionsAct : Prop :=
  (∀ (h : Nat) (older : List HOp) (o : HOp) (m : MemAcc) (s : State), atomicReady (hart s h) older o = true → l2Stalled (hart s h) = false →
      l2Owned (hart s h) (lineOf m.pa) = true → l2Poison (hart s h) (lineOf m.pa) = false →
      (∀ op v aq rl, o.ins = .amo m op v aq rl → attempt wfiTry h older o s =
        fin o (sext m.size (memVal (hart s h) m)) (memPut h m (amoResult op m.size (memVal (hart s h) m) v.toNat) s)) ∧
      (∀ c n aq rl, o.ins = .amocas m c n aq rl → attempt wfiTry h older o s = fin o (sext m.size (memVal (hart s h) m))
        (if memVal (hart s h) m = c.toNat % 2 ^ (8 * m.size) then memPut h m (n.toNat % 2 ^ (8 * m.size)) s else s)) ∧
      (∀ aq rl, o.ins = .lr m aq rl → (hart s h).deferred = [] → attempt wfiTry h older o s =
        fin { o with src := if o.l2m then o.src else 3 } (sext m.size (memVal (hart s h) m)) (updHart h (fun x => { x with resv := some { addr := m.pa, window := true } }) s)) ∧
      (∀ v aq rl w, o.ins = .sc m v aq rl → (hart s h).resv = some { addr := m.pa, window := w } → attempt wfiTry h older o s =
        fin o 0 (memPut h m v.toNat (updHart h (fun x => { x with resv := none }) s))) ∧
      (∀ v aq rl, o.ins = .sc m v aq rl → ((hart s h).resv.all (fun r => decide (r.addr ≠ m.pa))) = true → attempt wfiTry h older o s =
        fin o 1 (updHart h (event 0x061 1) (updHart h (fun x => { x with resv := none }) s)))) ∧
  (∀ (h csr : Nat) (wr : Bool) (v : Word) (o : HOp) (s : State), csrTrap (hart s h) csr wr = none →
      (o.ins = .vendorCsrAccess h csr wr v → attempt wfiTry h [] o s = fin o (csrRead s h csr).toNat (if wr then updHart h (csrWrite csr v) s else s)) ∧
      (o.ins = .rnbuoyctlWrite h v → csr = 0x5C4 → wr = true → attempt wfiTry h [] o s = fin o (csrRead s h csr).toNat (updHart h (csrWrite csr v) s)) ∧
      (∀ n, o.ins = .mhpmeventWrite h n v → csr = 0x320 + n → wr = true → attempt wfiTry h [] o s = fin o (csrRead s h csr).toNat (updHart h (csrWrite csr v) s)) ∧
      (∀ n, o.ins = .hpmCounterWrite h n v → csr = 0xB00 + n → wr = true → attempt wfiTry h [] o s = fin o (csrRead s h csr).toNat (updHart h (csrWrite csr v) s))) ∧
  (∀ (h file sel : Nat) (wr : Bool) (v : Word) (o : HOp) (s : State), o.ins = .imsicClaim h file sel wr v →
      attempt wfiTry h [] o s = fin o (imAccess h file sel wr v.toNat s).1 (imAccess h file sel wr v.toNat s).2) ∧
  (∀ (h : Nat) (older : List HOp) (o : HOp) (m : MemAcc) (s : State), pma s (hartPart s h) m.pa = .main → (m.x.pte.isSome = true → m.x.a = true) →
      l2Find (hart s h) (lineOf m.pa) = none → hndBusy (hart s h) ≤ 56 → l2Stalled (hart s h) = false → lineBusy (hart s h) (lineOf m.pa) = false →
      (o.ins = .prefetchI m → (hart s h).fmb.length ≤ 6 → (hart s h).fmb.any (fun e => decide (e.1 = lineOf m.pa)) = false → attempt wfiTry h older o s =
        fin o 0 (l2Ask h { line := lineOf m.pa, op := oRdShared, by_ := .pf } (updHart h (fun x => { x with fmb := x.fmb ++ [(lineOf m.pa, m.va / 64 % 256)] }) s))) ∧
      (o.ins = .prefetchR m → (hart s h).mb.length ≤ 12 → (hart s h).mb.any (fun e => decide (e.1 = lineOf m.pa)) = false → attempt wfiTry h older o s =
        fin o 0 (l2Ask h { line := lineOf m.pa, op := oRdShared, by_ := .pf } (updHart h (fun x => { x with mb := x.mb ++ [(lineOf m.pa, m.va / 64 % 256)] }) s))) ∧
      (o.ins = .prefetchW m → attempt wfiTry h older o s = fin o 0 (l2Ask h { line := lineOf m.pa, op := oRdOwn, by_ := .pf } s)))

/-- A coherent request that nothing refuses on its way and that its home accepts takes a tracker there, and the home goes on (R148, R149, R160); one that comes again with RSV takes what was kept for it (R173). At a slice it takes a tracker of the slice (R96, R100). A request that another on its way must come before stays where it is (R82, R237), and one for the partner package leaves this one (log entry 9). That a delivery stands for the whole trip is the model's choice (log entry 9). -/
def Obligations.RequestsReachTheirHome : Prop :=
  (∀ (f : Flit) (s : State), Live s → ∀ c ∈ [(Instr.rdshared f, oRdShared), (Instr.rdown f, oRdOwn), (Instr.upgrade f, oUpgrade), (Instr.claimown f, oClaimOwn), (Instr.rdonce f, oRdOnce), (Instr.rdrgn f, oRdRgn), (Instr.wrfull f, oWrFull), (Instr.cboclean f, oCboClean), (Instr.cboflush f, oCboFlush)], Arrives .req c.2 f s →
    (HomeTakes f s →
      exec c.1 s = .next (after (homeRun (agUnit f.dst) (homeOpen (agUnit f.dst) f none (judged f (arrive f s)))))) ∧
    (∀ r, HomeKept f r s →
      exec c.1 s = .next (after (homeRun (agUnit f.dst) (homeOpen (agUnit f.dst) f (rqWay r.cause)
        (updHome (agUnit f.dst) (fun x => { x with rsv := x.rsv.erase r }) (judged f (arrive f s))))))) ∧
    (∀ i, SliceTakes f s i →
      exec c.1 s = .next (after (sliceRun (agDie f.dst) (agUnit f.dst - 64) (sliceOpen (agDie f.dst) (agUnit f.dst - 64) f i (arrive f s)))))) ∧
  (∀ (f : Flit) (s : State), Live s → f.net = .req → isSlice f.dst = true → agDie f.src = agDie f.dst → isCore f.src = true → 1 ≤ f.op → f.op ≤ 12 →
    mayArrive s f = true →
    (f.op ≠ oWrBackDirty → f.op ≠ oEvictClean → ∀ i, SliceTakes f s i →
      exec (.sliceRequest f) s = .next (after (sliceRun (agDie f.dst) (agUnit f.dst - 64) (sliceOpen (agDie f.dst) (agUnit f.dst - 64) f i (arrive f s))))) ∧
    (f.op = oWrBackDirty ∨ f.op = oEvictClean → exec (.sliceRequest f) s = .next (after (sliceEvict (agDie f.dst) (agUnit f.dst - 64) f (arrive f s))))) ∧
  (∀ (f : Flit) (s : State), Live s → ∀ c ∈ [(Instr.rdshared f, oRdShared), (Instr.rdown f, oRdOwn), (Instr.upgrade f, oUpgrade), (Instr.claimown f, oClaimOwn), (Instr.rdonce f, oRdOnce), (Instr.rdrgn f, oRdRgn), (Instr.wrfull f, oWrFull), (Instr.cboclean f, oCboClean), (Instr.cboflush f, oCboFlush)], isMsg .req c.2 f = true →
    (mayArrive s f = false → exec c.1 s = .next (after s)) ∧
    (Arrives .req c.2 f s → agDie f.dst = 13 → exec c.1 s = .next (after (arrive f s))))

/-- An eviction that nothing refuses on its way is processed in one pass at its home or its slice (R130, R164), and so is the release of a region at its home (R169). One that another on its way must come before stays where it is (R82, R237). That a delivery stands for the whole trip is the model's choice (log entry 9). -/
def Obligations.EvictionsReachTheirHome : Prop :=
  (∀ (f : Flit) (s : State), Live s → ∀ c ∈ [(Instr.wrbackdirty f, oWrBackDirty), (Instr.evictclean f, oEvictClean)], Arrives .req c.2 f s →
    (isHome f.dst = true → exec c.1 s = .next (after (homeRun (agUnit f.dst) (homeEvict (agUnit f.dst) f (arrive f s))))) ∧
    (isSlice f.dst = true → exec c.1 s = .next (after (sliceEvict (agDie f.dst) (agUnit f.dst - 64) f (arrive f s))))) ∧
  (∀ (f : Flit) (s : State), Live s → Arrives .req oRgnRel f s → isHome f.dst = true →
    exec (.rgnrel f) s = .next (after (homeRun (agUnit f.dst) (homeRgnRel (agUnit f.dst) f (arrive f s))))) ∧
  (∀ (f : Flit) (s : State), Live s → ∀ c ∈ [(Instr.wrbackdirty f, oWrBackDirty), (Instr.evictclean f, oEvictClean), (Instr.rgnrel f, oRgnRel)], isMsg .req c.2 f = true →
    (mayArrive s f = false → exec c.1 s = .next (after s)) ∧
    (Arrives .req c.2 f s → agDie f.dst = 13 → exec c.1 s = .next (after (arrive f s))))

/-- A register access is served by the block whose frame it names (R549), and is answered with what was read or with the write's completion (R37, R152). An access to a function behind a root port goes to that port, and one to the Boathouse's functions to the Boathouse (R152); an address that names nothing is answered with Fault VACANT, and one at an agent that does not serve it with Fault UNSUPPORTED (R147). That a delivery stands for the whole trip is the model's choice (log entry 9). -/
def Obligations.IoAccessesReachTheirBlock : Prop :=
  (∀ (f : Flit) (s : State) (fr off : Nat), Live s → ioTarget f.addr = .drs fr off → agDie f.dst ≠ 13 →
    (∀ c ∈ [(Instr.iord f, oIoRd), (Instr.cfgrd f, oCfgRd)], Arrives .req c.2 f s →
      exec c.1 s = .next (after (ioAnswer f false (drsRead (arrive f s) f.part fr off (2 ^ f.size)) (arrive f s)))) ∧
    (∀ c ∈ [(Instr.iowr f, oIoWr), (Instr.cfgwr f, oCfgWr)], Arrives .req c.2 f s →
      exec c.1 s = .next (after (ioAnswer f false 0
        (drsWrite f.part fr off (2 ^ f.size) ((f.data.toNat / 256 ^ (f.addr % 64)) % 256 ^ (2 ^ f.size)) (arrive f s)))))) ∧
  (∀ (f : Flit) (s : State), Live s → agDie f.dst ≠ 13 → ∀ c ∈ [(Instr.iord f, oIoRd), (Instr.iowr f, oIoWr), (Instr.cfgrd f, oCfgRd), (Instr.cfgwr f, oCfgWr)], Arrives .req c.2 f s →
    ((∃ a b, ioTarget f.addr = .ecam a b) ∨ (∃ a b e, ioTarget f.addr = .rpMem a b e) →
      exec c.1 s = .next (after (if isRp f.dst then rpIo (agUnit f.dst - 0x30) f (arrive f s) else refuseReq f (arrive f s)))) ∧
    ((∃ a b, ioTarget f.addr = .vfCfg a b) ∨ (∃ a b, ioTarget f.addr = .vfBar a b) →
      exec c.1 s = .next (after (if agDie f.dst = 12 ∧ 0x68 ≤ agUnit f.dst ∧ agUnit f.dst < 0x6C then bhIo f (arrive f s) else refuseReq f (arrive f s)))) ∧
    (ioTarget f.addr = .none → exec c.1 s = .next (after (send (faultRsp f.dst cVACANT f) (arrive f s))))) ∧
  (∀ (f : Flit) (s : State), Live s → ∀ c ∈ [(Instr.iord f, oIoRd), (Instr.iowr f, oIoWr), (Instr.cfgrd f, oCfgRd), (Instr.cfgwr f, oCfgWr)], isMsg .req c.2 f = true →
    (mayArrive s f = false → exec c.1 s = .next (after s)) ∧
    (Arrives .req c.2 f s → agDie f.dst = 13 → exec c.1 s = .next (after (arrive f s))))

/-- An interrupt message that nothing refuses on its way is taken by the interrupt controller that it names, and mail by the Cox (R329, R348); another agent answers either with Fault UNSUPPORTED (R147). That a delivery stands for the whole trip is the model's choice (log entry 9). -/
def Obligations.InterruptsAndMailArrive : Prop :=
  (∀ (f : Flit) (s : State), Live s → Arrives .req oIntMsg f s → agDie f.dst ≠ 13 →
    exec (.intmsg f) s = .next (after (if agDie f.dst = 12 ∧ 0x60 ≤ agUnit f.dst ∧ agUnit f.dst < 0x64 then intMsgTake f (arrive f s) else refuseReq f (arrive f s)))) ∧
  (∀ (f : Flit) (s : State), Live s → Arrives .req oMail f s → agDie f.dst ≠ 13 →
    exec (.mail f) s = .next (after (if f.dst = coxAgent then mailTake f (arrive f s) else refuseReq f (arrive f s)))) ∧
  (∀ (f : Flit) (s : State), Live s → ∀ c ∈ [(Instr.intmsg f, oIntMsg), (Instr.mail f, oMail)], isMsg .req c.2 f = true →
    (mayArrive s f = false → exec c.1 s = .next (after s)) ∧
    (Arrives .req c.2 f s → agDie f.dst = 13 → exec c.1 s = .next (after (arrive f s))))

/-- A flit with a reserved opcode is discarded with a record, and a request with one is answered with Fault (R138); at a home the record is of type 6, and at a block whose table of types lists none its type is free (log entry 31). A flit that names a reserved agent is discarded by the first interface that it meets, with a record that carries its PART (R20, R582): of the stop of the I/O die, or of the compute die. -/
def Obligations.ReservedFlitsAreAnswered : Prop :=
  (∀ (f : Flit) (s : State), Live s → opOk f.net f.op = false → Arrives f.net f.op f s → agDie f.dst ≠ 13 →
    ((agBank f.dst).2 = true → exec (.reservedOpcode f) s = .next (after
      (if f.net = .req then refuseReq f (logErr (flitErr (agBank f.dst).1 6 false f) (arrive f s)) else logErr (flitErr (agBank f.dst).1 6 false f) (arrive f s)))) ∧
    ((agBank f.dst).2 = false → ∀ r, r = drawNat (arrive f s) → exec (.reservedOpcode f) s = .next (after
      (if f.net = .req then refuseReq f (logErr (flitErr (agBank f.dst).1 (r.1 % 65536) false f) r.2) else logErr (flitErr (agBank f.dst).1 (r.1 % 65536) false f) r.2)))) ∧
  (∀ (f : Flit) (stop : Nat) (s : State), Live s → idsOk f = false →
    (stop < 96 → exec (.rsvdId f stop) s = .next (after (logErr (flitErr (frNi stop) 0x07 false f) (scrap f s)))) ∧
    (96 ≤ stop → stop < 108 → exec (.rsvdId f stop) s = .next (after (logErr (flitErr (frDlog (stop - 96)) 0x09 false f) (scrap f s)))))

/-- A snoop that nothing refuses on its way is taken by the L2, the slice, or the I/O-die engine that it names (R143, R144, R157, R162, R167, R168). That a delivery stands for the whole trip is the model's choice (log entry 9). -/
def Obligations.SnoopsReachTheirHolder : Prop :=
  (∀ (f : Flit) (s : State), Live s → ∀ c ∈ [(Instr.snpshared f, oSnpShared), (Instr.snpown f, oSnpOwn), (Instr.snpinv f, oSnpInv), (Instr.snpcur f, oSnpCur), (Instr.snpclean f, oSnpClean), (Instr.backinv f, oBackInv), (Instr.snprgnsplit f, oSnpRgnSplit), (Instr.snprgninv f, oSnpRgnInv)], Arrives .snp c.2 f s →
    (isCore f.dst = true → exec c.1 s = .next (after (afterHart (agHart f.dst) (l2SnpTake (agHart f.dst) f (arrive f s))))) ∧
    (isSlice f.dst = true → exec c.1 s = .next (after (sliceSnoop (agDie f.dst) (agUnit f.dst - 64) f (arrive f s)))) ∧
    (∀ r, isCore f.dst = false → isSlice f.dst = false → engOf f.dst = some r → exec c.1 s = .next (after (rpSnoop r f (arrive f s))))) ∧
  (∀ (f : Flit) (s : State), Live s → ∀ c ∈ [(Instr.snpshared f, oSnpShared), (Instr.snpown f, oSnpOwn), (Instr.snpinv f, oSnpInv), (Instr.snpcur f, oSnpCur), (Instr.snpclean f, oSnpClean), (Instr.backinv f, oBackInv), (Instr.snprgnsplit f, oSnpRgnSplit), (Instr.snprgninv f, oSnpRgnInv)], isMsg .snp c.2 f = true →
    (mayArrive s f = false → exec c.1 s = .next (after s)) ∧
    (Arrives .snp c.2 f s → agDie f.dst = 13 → exec c.1 s = .next (after (arrive f s))))

/-- A response or data flit that nothing refuses on its way is taken by the L2, slice or engine that asked, or by the slice or home that keeps the line (R38, R54, R128, R139, R140, R144, R149, R161, R166, R171, R173, R584). That a delivery stands for the whole trip is the model's choice (log entry 9). -/
def Obligations.AnswersReachTheirRequester : Prop :=
  (∀ (f : Flit) (s : State), Live s → ∀ c ∈ [(Instr.comp f, Net.rsp, oComp, l2Comp, sliceComp, rpComp), (Instr.evictack f, Net.rsp, oEvictAck, l2EvictAck, sliceEvictAck, rpEvictAck),
      (Instr.retry f, Net.rsp, oRetry, takeOnly, sliceRetry, rpRetry), (Instr.creditgrant f, Net.rsp, oCreditGrant, takeOnly, sliceCredit, rpCredit),
      (Instr.fault f, Net.rsp, oFault, l2Fault, sliceFault, engFault), (Instr.iocomp f, Net.rsp, oIoComp, l2Io, takeSlice, rpIoComp),
      (Instr.data f, Net.dat, oData, l2Data, sliceData, rpData), (Instr.datacopy f, Net.dat, oDataCopy, l2Data, sliceData, rpData),
      (Instr.iodata f, Net.dat, oIoData, l2Io, takeSlice, takeOnly)], Arrives c.2.1 c.2.2.1 f s →
    (isCore f.dst = true → exec c.1 s = .next (after (afterHart (agHart f.dst) (c.2.2.2.1 (agHart f.dst) f (arrive f s))))) ∧
    (isCore f.dst = false → isSlice f.dst = true → exec c.1 s = .next (after (c.2.2.2.2.1 (agDie f.dst) (agUnit f.dst - 64) f (arrive f s)))) ∧
    (∀ r, isCore f.dst = false → isSlice f.dst = false → engOf f.dst = some r → exec c.1 s = .next (after (engSync r (c.2.2.2.2.2 r f (arrive f s)))))) ∧
  (∀ (f : Flit) (s : State), Live s → ∀ c ∈ [(Instr.compack f, Net.rsp, oCompAck, sliceCompAck, homeCompAck), (Instr.snprsp f, Net.rsp, oSnpRsp, sliceSnpRsp, homeSnpRsp),
      (Instr.snpdata f, Net.dat, oSnpData, sliceSnpData, homeSnpData), (Instr.rgnmap f, Net.dat, oRgnMap, takeSlice, homeRgnMap)], Arrives c.2.1 c.2.2.1 f s →
    (isSlice f.dst = true → exec c.1 s = .next (after (c.2.2.2.1 (agDie f.dst) (agUnit f.dst - 64) f (arrive f s)))) ∧
    (isSlice f.dst = false → isHome f.dst = true → exec c.1 s = .next (after (c.2.2.2.2 (agUnit f.dst) f (arrive f s))))) ∧
  (∀ (f : Flit) (s : State), Live s → ∀ c ∈ [(Instr.comp f, Net.rsp, oComp, l2Comp, sliceComp, rpComp), (Instr.evictack f, Net.rsp, oEvictAck, l2EvictAck, sliceEvictAck, rpEvictAck),
      (Instr.retry f, Net.rsp, oRetry, takeOnly, sliceRetry, rpRetry), (Instr.creditgrant f, Net.rsp, oCreditGrant, takeOnly, sliceCredit, rpCredit),
      (Instr.fault f, Net.rsp, oFault, l2Fault, sliceFault, engFault), (Instr.iocomp f, Net.rsp, oIoComp, l2Io, takeSlice, rpIoComp),
      (Instr.data f, Net.dat, oData, l2Data, sliceData, rpData), (Instr.datacopy f, Net.dat, oDataCopy, l2Data, sliceData, rpData),
      (Instr.iodata f, Net.dat, oIoData, l2Io, takeSlice, takeOnly)], isMsg c.2.1 c.2.2.1 f = true →
    (mayArrive s f = false → exec c.1 s = .next (after s)) ∧
    (Arrives c.2.1 c.2.2.1 f s → agDie f.dst = 13 → exec c.1 s = .next (after (arrive f s)))) ∧
  (∀ (f : Flit) (s : State), Live s → ∀ c ∈ [(Instr.compack f, Net.rsp, oCompAck, sliceCompAck, homeCompAck), (Instr.snprsp f, Net.rsp, oSnpRsp, sliceSnpRsp, homeSnpRsp),
      (Instr.snpdata f, Net.dat, oSnpData, sliceSnpData, homeSnpData), (Instr.rgnmap f, Net.dat, oRgnMap, takeSlice, homeRgnMap)], isMsg c.2.1 c.2.2.1 f = true →
    (mayArrive s f = false → exec c.1 s = .next (after s)) ∧
    (Arrives c.2.1 c.2.2.1 f s → agDie f.dst = 13 → exec c.1 s = .next (after (arrive f s))))

/-- The conversion of a region goes on at its home (R128, R130); an unanswered snoop and an unused reservation are recorded (R174, R178); and a partition is torn down at a home, reported done, and resumed (R182, R185, R325). -/
def Obligations.HomeEventsAct : Prop :=
  (∀ (ha g : Nat) (s : State),
    Live s → ha < 32 → ((home s ha).split.find? (fun p => decide (p.g = g) && p.ready)).isSome = true →
    exec (.regionSplitDone ha g) s =
      .next (after (splitDone ha g s))) ∧
  (∀ (ha txn ag l : Nat) (s : State),
    Live s → ha < 32 → (12 ≤ agDie ag ∨ parking s (agDie ag) = false) → awaited (home s ha) txn ag = some l →
    exec (.snpTimeout ha txn ag) s =
      .next (after (logErr { frame := frHa ha, ty := 0x04, cls := 2, consq := true, part := linePart s (64 * l), addr := some (64 * l), agent := some ag, fpart := linePart s (64 * l) } s))) ∧
  (∀ (ha src txn : Nat) (r : RqEnt) (s : State),
    Live s → ha < 32 → (home s ha).rsv.find? (fun r => decide (r.src = src) && decide (r.txn = txn)) = some r →
    exec (.rsvtmo ha src txn) s =
      .next (after (homeRun ha (logErr { frame := frHa ha, ty := 0x05, cls := 1, consq := true, part := r.part, agent := some src, fpart := r.part }
      (setBit (frHa ha) 0x040 48 (updHome ha (fun x => { x with rsv := x.rsv.erase r }) s)))))) ∧
  (∀ (ha p : Nat) (s : State),
    Live s → ha < 32 → p < 12 → (part s p).tearing.contains ha = true → (home s ha).tear.contains p = false →
    exec (.teardown ha p) s =
      .next (after (homeRun ha (tearHome ha p s)))) ∧
  (∀ (ha p : Nat) (s : State),
    Live s → (home s ha).tear.contains p = true → s.memq.any (fun q => decide (q.ha = ha) && decide (q.tear = some p)) = false →
    exec (.teardownComplete ha p) s =
      .next (after (updPart p (fun x => { x with tearing := x.tearing.erase ha }) (updHome ha (fun x => { x with tear := x.tear.erase p }) s)))) ∧
  (∀ (ha p : Nat) (s : State),
    Live s → p < 12 → (part s p).tearing.contains ha = true →
    exec (.teardownTimeout ha p) s =
      .next (after (logErr { frame := frHa ha, ty := 0x07, cls := 3, consq := true, part := p } s))) ∧
  (∀ (ha p : Nat) (pr : Proc) (s : State),
    Live s → s.cox.cur = some pr → ha < 32 → p < 12 → (pr.op = 0x03 ∨ pr.op = 0x04) → pr.step = 4 → pr.p = p →
    exec (.resume ha p) s =
      .next (after (updHome ha (fun x => { x with off := putBit x.off p false }) s)))

/-- A request that waits for a full directory set enters when a way and a tracker are free (R100); a way lock takes a legal write and its sweep ends (R107, R108); and a range invalidation runs, completes, and is recorded when a bound is exceeded (R112 to R114). -/
def Obligations.DieOperationsAct : Prop :=
  (∀ (d sl i : Nat) (f : Flit) (s : State),
    Live s → d < 12 → sl < 24 → freeTx (slice s d sl) = some i → (slice s d sl).setWait.find? (fun f => (dirKey (slice s d sl) (lineOf f.addr)).isSome || (dirWay (slice s d sl) (lineOf f.addr)).isSome) = some f →
    exec (.setWaitRelease d sl) s =
      .next (after (sliceRun d sl (acceptReq d sl f (updSlice d sl (fun c => { c with setWait := c.setWait.erase f }) s))))) ∧
  (∀ (d n : Nat) (v : Word) (part : Nat) (s : State),
    Live s → d < 12 → n < 4 → MayWrite s part (frDie d) → lockRefused s d n (bits v.toNat 0 12) (bit v.toNat 16) = false →
    exec (.l3LockCtlWrite d n v part) s =
      .next (after (lockCtl d n v.toNat s))) ∧
  (∀ (d n : Nat) (t : List Nat) (s : State),
    Live s → d < 12 → (die s d).sweep = n :: t →
    exec (.l3LockSweepDone d) s =
      .next (after ((List.range 24).foldl (fun s k => sliceRun d k s) (updDie d (fun x => { x with sweep := x.sweep.drop 1 }) s)))) ∧
  (∀ (d lo hi : Nat) (s : State),
    Live s → d < 12 → lo ≤ hi → (die (arrive (rangeFlit d lo hi) s) d).ri = none →
    exec (.rangeInvalidate d lo hi) s =
      .next (after (dieRun d (updDie d (fun x => { x with ri := some { lo := lo, hi := hi } }) (arrive (rangeFlit d lo hi) s))))) ∧
  (∀ (d : Nat) (s : State),
    Live s → d < 12 → (die s d).ri.isSome = true → (List.range 24).all (fun k => rangeDone s d k) = true →
    exec (.rangeInvalComplete d) s =
      .next (after (rangeComplete d s))) ∧
  (∀ (d : Nat) (s : State),
    Live s → d < 12 → (die s d).ri.isSome = true →
    exec (.rangeTimeout d) s =
      .next (after (logErr { frame := frDlog d, ty := 0x07, cls := 2, consq := true, part := diePart s d, agent := some (agent d 100) } s))) ∧
  (∀ (d : Nat) (s : State),
    Live s → d < 12 → rangeAt s d = true →
    exec (.rangeNoresp d) s =
      .next (after (logErr { frame := frCox, ty := 0x09, cls := 2, consq := true, part := diePart s d, agent := some (agent d 100) } s)))

/-- The slab table takes the system's writes and finishes its updates (R269, R274); the Strata engines locate requests, count, move granules, rebuild their tables and serve the partitions' commands (R278 to R291); and scrubbing, channel failures and page retirement act on the devices (R295, R298 to R300). -/
def Obligations.MemoryCommandsAct : Prop :=
  (∀ (v : Word) (part : Nat) (s : State),
    Live s → part = 15 → slabBusy s = false →
    exec (.memSetcmd v part) s =
      .next (after (setCmd (bits v.toNat 0 14) (bits v.toNat 14 2) (bits v.toNat 16 4) s))) ∧
  (∀ (v : Word) (part : Nat) (s : State),
    Live s → part = 15 → slabBusy s = false → slState (slabEnt s (fld s frMem 0 0 14)) < 2 →
    exec (.memSlabentWrite v part) s =
      .next (after (slabEntWrite (fld s frMem 0 0 14) v.toNat s))) ∧
  (∀ (s : State),
    Live s → s.slabWait = [] →
    exec .slabUpdateDone s =
      .next (after ({ s with slabOld := [], slabSw := [] }))) ∧
  (∀ (pa : Nat) (tblUc : Bool) (q : MemReq) (t s : State),
    Live s → memFirst s pa (fun q => q.loc.isNone) = some q → t = slabLook (seAgent (slGrp (entOf s q.pa))) s →
    exec (.seAccess pa tblUc) s =
      .next (after (memPutBack q (seLocate q tblUc t).1 (seLocate q tblUc t).2))) ∧
  (∀ (g : Nat) (s : State),
    Live s → g < 4 →
    exec (.cntDecay g) s =
      .next (after (cntDecay g s))) ∧
  (∀ (g nom : Nat) (t : List Nat) (s : State),
    Live s → g < 4 → (se s g).pq = nom :: t → fbit s (frSe g) 0 0 = true → (se s g).moves.length < fld s (frSe g) 8 26 2 + 1 →
    exec (.promotion g) s =
      .next (after (promotion (retiring s) g s))) ∧
  (∀ (g gran : Nat) (m : Move) (s : State),
    Live s → g < 4 → moveByD s g gran = some m → m.ptr < 256 → chunkBusy s g m = false →
    exec (.moveChunkCopy g gran) s =
      .next (after (seRelease g (updSe g (fun x => { x with moves := x.moves.map (fun y => if y = m then { y with ptr := y.ptr + 1 } else y) }) (copyChunk g m s))))) ∧
  (∀ (g gran : Nat) (m : Move) (s : State),
    Live s → g < 4 → moveByD s g gran = some m → 256 ≤ m.ptr →
    exec (.moveComplete g gran) s =
      .next (after (strGo (moveDone g gran s)))) ∧
  (∀ (p pa : Nat) (s : State),
    Live s → p < 12 → mget s.strCmd p = none →
    exec (.pin p pa) s =
      .next (after (strStep (retiring s) p { s with strCmd := mset s.strCmd p (some { op := 0, pa := pa / 4096 % 2 ^ 40 * 4096 }) }))) ∧
  (∀ (p pa : Nat) (s : State),
    Live s → p < 12 → mget s.strCmd p = none →
    exec (.unpin p pa) s =
      .next (after (strStep (retiring s) p { s with strCmd := mset s.strCmd p (some { op := 1, pa := pa / 4096 % 2 ^ 40 * 4096 }) }))) ∧
  (∀ (p pa : Nat) (s : State),
    Live s → p < 12 → mget s.strCmd p = none →
    exec (.promote p pa) s =
      .next (after (strStep (retiring s) p { s with strCmd := mset s.strCmd p (some { op := 2, pa := pa / 4096 % 2 ^ 40 * 4096 }) }))) ∧
  (∀ (p pa : Nat) (s : State),
    Live s → p < 12 → mget s.strCmd p = none →
    exec (.restore p pa) s =
      .next (after (strStep (retiring s) p { s with strCmd := mset s.strCmd p (some { op := 3, pa := pa / 4096 % 2 ^ 40 * 4096 }) }))) ∧
  (∀ (g : Nat) (s : State),
    Live s → g < 4 → (se s g).rebuild ≠ [] →
    exec (.remapRebuilt g) s =
      .next (after (strGo (rebuildDone g s)))) ∧
  (∀ (g off : Nat) (v : Word) (part : Nat) (s : State),
    Live s → part = 15 → g < 4 → off = 0 → bits v.toNat 8 8 ≠ 0 →
    exec (.sePolicyWrite g off v part) s =
      .next (after (setFld (frSe g) 0 8 8 (bits v.toNat 8 8) (setFld (frSe g) 0 0 4 (bits v.toNat 0 4) s)))) ∧
  (∀ (g off : Nat) (v : Word) (part : Nat) (s : State),
    Live s → part = 15 → g < 4 → off = 0 → bits v.toNat 8 8 = 0 →
    exec (.sePolicyWrite g off v part) s =
      .next (after (setBit (frSe g) 0x010 30 (setFld (frSe g) 0 0 4 (bits v.toNat 0 4) s)))) ∧
  (∀ (g off : Nat) (v : Word) (part : Nat) (s : State),
    Live s → part = 15 → g < 4 → off = 8 → bits v.toNat 5 5 < bits v.toNat 0 5 →
    exec (.sePolicyWrite g off v part) s =
      .next (after (setFld (frSe g) 8 0 10 (bits v.toNat 0 10) (setFld (frSe g) 8 16 12 (bits v.toNat 16 12) s)))) ∧
  (∀ (g off : Nat) (v : Word) (part : Nat) (s : State),
    Live s → part = 15 → g < 4 → off = 8 → (bits v.toNat 0 5 = 0 ∨ bits v.toNat 0 5 ≤ bits v.toNat 5 5) →
    exec (.sePolicyWrite g off v part) s =
      .next (after (setBit (frSe g) 0x010 30 (setFld (frSe g) 8 16 12 (bits v.toNat 16 12) s)))) ∧
  (∀ (g tier ma k : Nat) (err : CellErr) (s : State),
    Live s → g < 4 → tier < 2 → k = locKey g tier (ma / 64 * 64) → locOk s k = true →
    exec (.scrubRead g tier ma err) s =
      .next (after (cellError k (cellFound s k err) true (damageEnd (frCtl k) (k / 64) s)))) ∧
  (∀ (g tier ma k pa p i : Nat) (s : State),
    Live s → g < 4 → tier < 2 → k = locKey g tier (ma / 4096 * 4096) → locOk s k = true → poisonMap s k ≠ 0 → (retiring s).contains k = false → mfind (se s g).retire (pageKey tier ma) = none → paOfLoc s k = some pa → slabOwner s pa = some p → spareFree s g tier = some i →
    exec (.pageRetirement g tier ma) s =
      .next (after (rangeSend (diesOf s p) pa (pa + 4095) (spareCount g tier false
      { s with cox := { s.cox with bg := s.cox.bg ++ [{ op := 0x1001, step := 2, p := p, d := i, n := k, l := [pa] }] } })))) ∧
  (∀ (pr : Proc) (s : State),
    Live s → s.cox.bg.find? (fun pr => pr.op = 0x1001) = some pr →
    exec .retirementTimeout s =
      .next (after (homeRun (homeOf (regionOf (pr.l.headD 0))) (updHome (homeOf (regionOf (pr.l.headD 0))) (fun x => { x with hold := x.hold.erase (regionOf (pr.l.headD 0)) })
      (spareCount (locGrp pr.n) (locTier pr.n) true (coxErr 1 pr.p false { s with cox := { s.cox with bg := s.cox.bg.erase pr } })))))) ∧
  (∀ (ddr : Bool) (n : Nat) (s : State),
    Live s → n < (if ddr then 16 else 4) →
    exec (.channelFail ddr n) s =
      .next (after (channelFail ddr n s))) ∧
  (∀ (pr : Proc) (s : State),
    Live s → s.cox.cur = some pr → pr.step ≠ 0 → (pr.op = 0x08 ∨ pr.op = 0x09) →
    exec .slabStepTimeout s =
      .next (after (slabStepTimeout s)))

/-- A port sends a flit that it takes for its die on a link in L0, and a die end sends one of its own; the other end receives it, and credits return (R188, R191, R192, R200, R201). The two ends train the link step by step (R207, R215), exchange beacons (R216), steer around failed wires (R211 to R213), and enter and leave low power (R217, R218). Resets and losses take it down (R219 to R221). -/
def Obligations.LinkFlitsAndTrainingAct : Prop :=
  (∀ (ap : Nat) (f : Flit) (s : State),
    Live s → ap < 12 → agDie f.dst = ap → waitsOnWay s f = false → hardFenced s ap = false → apOffline s ap = false → stopState s (unitStop (0x20 + ap)) = 0 → parking s ap = false →
    exec (.linkFlitSend ap 0 f) s =
      .next (after (linkSend ap false f (closeTxn ap f false { s with live := s.live.erase f })))) ∧
  (∀ (ap : Nat) (f : Flit) (s : State),
    Live s → ap < 12 → agDie f.src = ap → agDie f.dst ≠ ap → linkSt s ap true = lL0 →
    exec (.linkFlitSend ap 1 f) s =
      .next (after (linkSend ap true f s))) ∧
  (∀ (ap dir q : Nat) (net : Net) (errs : List LaneErr) (s : State),
    Live s → ap < 12 → dir < 2 → q < 4 → ((lnk s ap).fly.find? (fun x => x.out == decide (dir = 1) && decide (x.q = q) && decide (x.f.net = net))).isSome = true →
    exec (.linkFlitReceive ap dir q net errs) s =
      .next (after (linkReceive ap (dir = 1) q net errs s))) ∧
  (∀ (ap dir : Nat) (q : CreditVia) (nreq nsnp nrsp ndat : Nat) (s : State),
    Live s → ap < 12 → dir < 2 → q.quarter < 4 →
    exec (.linkcredit ap dir q nreq nsnp nrsp ndat) s =
      .next (after (creditTake ap (dir = 1) q.quarter [nreq, nsnp, nrsp, ndat] q.errs s))) ∧
  (∀ (d : Nat) (body : BitVec 48) (t s : State),
    Live s → sbWorks s d = true → t = sbTake d true 0x08 body.toNat s → linkSt t d false = lSBUP → (lnk t d).tstep = 1 → t.dieIds.getD d (0, 0) = (bits body.toNat 0 16, bits body.toNat 16 16) →
    exec (.hello d body) s =
      .next (after (sbSend d false 0x09 (d + 16) t))) ∧
  (∀ (d pos : Nat) (t s : State),
    Live s → sbWorks s d = true → t = answered d true 0x08 (sbTake d false 0x09 (pos + 16) s) → linkSt t d true = lSBUP → (lnk t d).tstep = 1 → (lnk t d).warm = false →
    exec (.helloAck d pos true) s =
      .next (after (clearWgs d (trainStart d lTRAIN 2 t)))) ∧
  (∀ (d : Nat) (dieEnd : Bool) (step : Nat) (pass : Bool) (finds : List WgFind) (s : State),
    Live s → sbWorks s d = true → step ≠ 0 → (lnk s d).tstep = step →
    exec (.trainStep d dieEnd step pass finds) s =
      .next (after (leaveD3 d (trainStep d dieEnd step pass finds s)))) ∧
  (∀ (d : Nat) (s : State),
    Live s → sbWorks s d = true → (lnk s d).tstep ≠ 0 → (lnk s d).waking = false →
    exec (.trainFail d) s =
      .next (after (logErr (linkErr s d false 0x09 (if ucdTarget s (diePart s d) then 2 else 1) 0 false 0x3F) (linkHold d s)))) ∧
  (∀ (d : Nat) (s : State),
    Live s → sbWorks s d = true → (lnk s d).tstep ≠ 0 → (lnk s d).waking = true →
    exec (.trainFail d) s =
      .next (after (updLink d (fun l => { l with waking := false }) (clearWgs d (trainStart d lTRAIN 3 s))))) ∧
  (∀ (d : Nat) (s : State),
    Live s → sbWorks s d = true → linkSt s d false = lL0 →
    exec (.widthBeaconSend d) s =
      .next (after (sendBeacons d s))) ∧
  (∀ (d : Nat) (body : BitVec 48) (t s : State),
    Live s → sbWorks s d = true → t = sbTake d false 0x10 body.toNat s → ((lnk t d).tstep = 8 ∨ linkSt t d true = lL0) →
    exec (.widthBeacon d body) s =
      .next (after (beaconTake d body.toNat t))) ∧
  (∀ (d : Nat) (body : BitVec 48) (t s : State),
    Live s → sbWorks s d = true → t = sbTake d true 0x11 body.toNat s → ((lnk t d).tstep = 6 ∨ (lnk t d).tstep = 8 ∨ linkSt t d false = lL0) →
    exec (.widthReport d body) s =
      .next (after (reportTake d body.toNat t))) ∧
  (∀ (d : Nat) (dieEnd : Bool) (body : BitVec 48) (t s : State),
    Live s → sbWorks s d = true → t = sbTake d (!dieEnd) 0x18 body.toNat s → bits body.toNat 0 7 < 96 → dieEnd = bit body.toNat 7 → bits body.toNat 8 6 ≤ 36 → (bit body.toNat 15 = true ∨ (lnk t d).tstep = 5) → ((lnk t d).tstep = 5 ∨ ahead (bits body.toNat 16 32) (lcc t d) = true) →
    exec (.repair d dieEnd body) s =
      .next (after (sbSend d dieEnd 0x19 body.toNat (updWg d (bits body.toNat 0 7 + 96 * bits body.toNat 7 1) (fun w =>
      { w with mirror := w.mirror.filter (fun m => !(decide (m.sig = bits body.toNat 8 6) && m.spare == bit body.toNat 14)) ++
          [{ sig := bits body.toNat 8 6, spare := bit body.toNat 14, t := bits body.toNat 16 32 }] }) t)))) ∧
  (∀ (d : Nat) (dieEnd : Bool) (body : BitVec 48) (s : State),
    Live s → sbWorks s d = true →
    exec (.repairAck d dieEnd body) s =
      .next (after (repairAck d dieEnd body.toNat (sbTake d (!dieEnd) 0x19 body.toNat s)))) ∧
  (∀ (d : Nat) (dieEnd : Bool) (wg : Nat) (s : State),
    Live s → d < 12 → wg < 96 → ((lnk s d).pend.find? (fun p => p.key = wgKey (!dieEnd) wg)).isSome = true →
    exec (.repairSwitch d dieEnd wg) s =
      .next (after (repairSwitch d (wgKey (!dieEnd) wg) s))) ∧
  (∀ (d : Nat) (dieEnd : Bool) (s : State),
    Live s → d < 12 →
    exec (.repairWindowEnd d dieEnd) s =
      .next (after (updLink d (fun l => { l with cnt := l.cnt.filter (fun e => !(decide (e.1 / 64 < 96) == dieEnd)) }) s))) ∧
  (∀ (d : Nat) (dieEnd : Bool) (wg : Nat) (s : State),
    Live s → d < 12 → wg < 96 → fbit s (frEnd d dieEnd) 0x408 16 = true → fld s (frEnd d dieEnd) 0x408 24 5 ≠ 0 → (drift s d (wgKey (!dieEnd) wg)).all (fun x => decide (16 * fld s (frEnd d dieEnd) 0x408 24 5 ≤ x)) = true →
    exec (.autoRecal d dieEnd wg) s =
      .next (after (startRecal d (wgKey (!dieEnd) wg) s))) ∧
  (∀ (d target : Nat) (s : State),
    Live s → sbWorks s d = true → linkSt s d true = lL0 → target < 2 →
    exec (.pwrReq d target) s =
      .next (after (sbSend d true 0x21 (b2n (decide (target = 1) && hartsPermit s d 120000 3)) (sbTake d false 0x20 target s)))) ∧
  (∀ (d : Nat) (grant : Bool) (s : State),
    Live s → sbWorks s d = true → (lnk s d).pwr = true →
    exec (.pwrAck d grant) s =
      .next (after (pwrAck d grant s))) ∧
  (∀ (d : Nat) (fromDie : Bool) (s : State),
    Live s → sbWorks s d = true → linkSt s d false = lLP →
    exec (.wakePattern d fromDie 0xCA#8) s =
      .next (after (updLink d (fun l => { l with waking := true }) (trainStart d lWAKE 1 s)))) ∧
  (∀ (d : Nat) (fromDie : Bool) (pat : BitVec 8) (s : State),
    Live s → sbWorks s d = true → pat ≠ 0xCA#8 →
    exec (.wakePattern d fromDie pat) s =
      .next (after (updLink d (fun l => if fromDie then { l with wakeIgn := l.wakeIgn + 1 } else { l with wakeIgnD := l.wakeIgnD + 1 }) s))) ∧
  (∀ (d : Nat) (dieEnd : Bool) (frame : BitVec 64) (s : State),
    Live s → sbWorks s d = true → frameGood frame.toNat = false →
    exec (.sidebandBadFrame d dieEnd frame) s =
      .next (after (logErr (linkErr s d dieEnd 0x06 0 0 false 0x3F) s))) ∧
  (∀ (d : Nat) (dieEnd : Bool) (ty : Nat) (s : State),
    Live s → sbWorks s d = true → awaits s d dieEnd ty = true → mget (lnk s d).unans (ty + b2n dieEnd * 256) < 7 →
    exec (.sidebandResend d dieEnd ty) s =
      .next (after (updLink d (fun l => { l with unans := mset l.unans (ty + b2n dieEnd * 256) (mget (lnk s d).unans (ty + b2n dieEnd * 256) + 1) }) s))) ∧
  (∀ (d : Nat) (s : State),
    Live s → d < 12 → linkSt s d false = lOFF →
    exec (.sbRstNRelease d) s =
      .next (after (updLink d (fun l => { l with rstN := true }) (trainStart d lSBUP 1 s)))) ∧
  (∀ (d : Nat) (s : State),
    Live s → d < 12 → dieEvac s d = true →
    exec (.sbRstNAssert d) s =
      .next (after (rstAssert d s))) ∧
  (∀ (d q groups : Nat) (s : State),
    Live s → d < 12 → q < 4 → (linkSt s d false = lL0 ∨ linkSt s d false = lWAKE) → 4 ≤ popcount 24 groups →
    exec (.fclkLoss d q groups) s =
      .next (after (logErr (linkErr s d false 0x08 2 0 false 0x3F) (linkHold d s)))) ∧
  (∀ (d : Nat) (s : State),
    Live s → sbWorks s d = true →
    exec (.sbUpClkLoss d) s =
      .next (after (logErr (linkErr s d false 0x08 2 0 false 0x3F) (linkHold d s)))) ∧
  (∀ (d : Nat) (s : State),
    Live s → sbWorks s d = true →
    exec (.sbFatalN d) s =
      .next (after (logErr (linkErr s d false 0x08 2 0 false 0x3F) (linkHold d s)))) ∧
  (∀ (d : Nat) (s : State),
    Live s → d < 12 → linkSt s d true ≠ lOFF →
    exec (.dieEndClockLoss d) s =
      .next (after (updLink d (fun l => { l with fatal := true, fly := l.fly.filter (fun x => !x.out) }) (setFld (frDie d) 0x400 0 4 lHOLD s))))

/-- The system's commands in `LNK_CTL` retrain, hold or recalibrate a link in a state that takes them (R208, R213, R225), `LNK_CUT` takes a legal cut before LOCK (R197, R226), and an injection is armed (R223, R525). Every command but HOLD stands in `LNK_CTL` with the fields as they are. -/
def Obligations.LinkRegistersAct : Prop :=
  (∀ (d : Nat) (t s : State),
    Live s → d < 12 → linkSt s d false = lL0 → t = genWrite (frAp d) 0x408 (setBits (reg s (frAp d) 0x408).toNat 0 5 1) s →
    exec (.retrain d 15) s =
      .next (after (linkRetrain d t))) ∧
  (∀ (d : Nat) (clr : Bool) (t s : State),
    Live s → d < 12 → (linkSt s d false = lL0 ∨ linkSt s d false = lHOLD) → t = genWrite (frAp d) 0x408 (setBits (reg s (frAp d) 0x408).toNat 0 5 (2 + 16 * b2n clr)) s →
    exec (.retrainFull d clr 15) s =
      .next (after (linkRetrainFull d clr t))) ∧
  (∀ (d : Nat) (t s : State),
    Live s → d < 12 → t = genWrite (frAp d) 0x408 (setBits (reg s (frAp d) 0x408).toNat 0 5 3) s →
    exec (.hold d 15) s =
      .next (after (linkHoldCmd d t))) ∧
  (∀ (d : Nat) (t s : State),
    Live s → d < 12 → fld s (frAp d) 0x420 0 7 < 96 → t = genWrite (frAp d) 0x408 (setBits (reg s (frAp d) 0x408).toNat 0 5 4) s →
    exec (.recal d 15) s =
      .next (after (linkRecal d t))) ∧
  (∀ (d : Nat) (out : Bool) (v : Word) (s : State),
    Live s → d < 12 → s.lockOpen = true →
    exec (.lnkCutWrite d out v 15) s =
      .next (after (cutWrite d out v.toNat s))) ∧
  (∀ (d : Nat) (dieEnd : Bool) (v : Word) (s : State),
    Live s → d < 12 → fbit s frFlt 8 0 = true → injRefused (frEnd d dieEnd) v.toNat = false →
    exec (.lnkErrInjWrite d dieEnd v 15) s =
      .next (after ({ setReg (frEnd d dieEnd) 0x530 (BitVec.ofNat 64 (bits v.toNat 0 7 + bits v.toNat 8 10 * 256 + bits v.toNat 32 16 * 2 ^ 32)) s with
      flt := { s.flt with injAt := mset s.flt.injAt (frEnd d dieEnd) (if bit v.toNat 16 then s.tb else 0) } })))

/-- A network interface lets a flit with a route into the mesh (R240, R247), a disabled stop refuses one (R248), and a switch of the epoch takes the other route bank (R244). Fences close a port, softly or at once, and open it again (R250 to R253); a parked flit is kept and sent later (R254 to R256); and probes count and trace what they select (R260 to R262). -/
def Obligations.FabricCommandsAct : Prop :=
  (∀ (stop : Nat) (f : Flit) (t s : State),
    Live s → idsOk f = true → inOrder s f = true → stop < 96 → waitsOnWay s f = false → f.sys = true → bit (routeEnt s (bank s) stop (dstStop f.dst)) 52 = true → bit (routeEnt s (bank s) stop (dstStop f.dst)) (36 + f.part) = true → t = { s with live := s.live ++ [{ f with epoch := decide (bank s = 1) }], wires := swapFlit f { f with epoch := decide (bank s = 1) } s.wires } → mustHoldNi t stop { f with epoch := decide (bank s = 1) } = false →
    exec (.niInject stop f) s =
      .next (after (t))) ∧
  (∀ (stop : Nat) (f : Flit) (s : State),
    Live s → stop < 96 → stopState s stop = 2 → f.sys = true →
    exec (.disabledStopRefuse stop f) s =
      .next (after (disabledRefuse stop f s))) ∧
  (∀ (s : State),
    Live s → oldCnt s = 0 →
    exec (.switch 15) s =
      .next (after (epochSwitch s))) ∧
  (∀ (s : State),
    Live s → oldCnt s = 0 →
    exec .oldcntDrained s =
      .next (after (niRelease s))) ∧
  (∀ (stop : Nat) (v : Word) (s : State),
    Live s → stop < 96 → v.toNat % 4 ≠ 3 → (v.toNat % 4 ≠ 2 ∨ oldCnt s = 0) →
    exec (.iofStopCtlWrite stop v 15) s =
      .next (after (setFld frIof (0x100 + 8 * stop) 0 2 (v.toNat % 4) s))) ∧
  (∀ (stop bk e : Nat) (v : Word) (s : State),
    Live s → stop < 96 → bk < 2 → e < 97 → bk ≠ bank s → (bit v.toNat 52 = false ∨ routeBad stop e v.toNat = false) →
    exec (.routeEntryWrite stop bk e v 15) s =
      .next (after ({ s with fab := { s.fab with ents := mins s.fab.ents (entKey bk stop e) (BitVec.ofNat 64 (v.toNat % 2 ^ 53)) } }))) ∧
  (∀ (ap : Nat) (f : Flit) (s : State),
    Live s → ap < 12 → agDie f.src = ap → hardFenced s ap = false → admits s ap f = true → (port s ap).fenced = false →
    exec (.apInboundFlit ap f) s =
      .next (after (closeTxn ap f true (if f.net = .req then openTx ap f s else s)))) ∧
  (∀ (pt : Nat) (s : State),
    Live s → portOk pt = true →
    exec (.softFence pt 15) s =
      .next (after (softFence pt (setFld (frPort pt) 0x600 0 2 1 s)))) ∧
  (∀ (pt : Nat) (s : State),
    Live s → 12 ≤ pt → portOk pt = true → (port s pt).soft = true → (port s pt).opentx = [] →
    exec (.fenced pt) s =
      .next (after (updPort pt (fun p => { p with soft := false, fenced := true }) s))) ∧
  (∀ (pt : Nat) (s : State),
    Live s → pt < 12 → (port s pt).soft = true → (port s pt).opentx = [] → (die s pt).gate = true → (lnk s pt).fly.all (fun x => !x.out) = true → leaving s pt = [] →
    exec (.fenced pt) s =
      .next (after (d3Advance pt (updPort pt (fun p => { p with soft := false, fenced := true }) s)))) ∧
  (∀ (pt : Nat) (t s : State),
    Live s → portOk pt = true → (port s pt).soft = true → t = setBit (frPort pt) 0x608 1 (fenceLift pt s) →
    exec (.fenceTimeout pt) s =
      .next (after (logErr { frame := frStop (portUnit pt), ty := 0x05, cls := 1, consq := true, part := if pt < 16 then diePart t pt else rpPart t (pt - 16) } t))) ∧
  (∀ (pt : Nat) (s : State),
    Live s → portOk pt = true →
    exec (.hardFence pt 15) s =
      .next (after (hardFence pt s))) ∧
  (∀ (pt : Nat) (s : State),
    Live s → portOk pt = true → ((port s pt).fenced = true ∨ (port s pt).soft = true) →
    exec (.fenceLift pt 15) s =
      .next (after (fenceLift pt (setFld (frPort pt) 0x600 1 1 (b2n (fbit s (frPort pt) 0x600 1)) s)))) ∧
  (∀ (d : Nat) (s : State),
    Live s → d < 12 →
    exec (.coxcmdFence d) s =
      .next (after (updDie d (fun x => { x with gate := true }) (cmdAnswer d (coxCmdFlit (agent 12 (0x20 + d)) d 1) (arrive (coxCmdFlit (agent 12 (0x20 + d)) d 1) s))))) ∧
  (∀ (d : Nat) (s : State),
    Live s → d < 12 →
    exec (.unfence d) s =
      .next (after (gateOpen d (cmdAnswer d (coxCmdFlit (agent 12 (0x20 + d)) d 2) (arrive (coxCmdFlit (agent 12 (0x20 + d)) d 2) s))))) ∧
  (∀ (ap : Nat) (f : Flit) (s : State),
    Live s → ap < 12 → agDie f.dst = ap → waitsOnWay s f = false → hardFenced s ap = false → apOffline s ap = false → stopState s (unitStop (0x20 + ap)) = 0 → parking s ap = true → parkFull s ap = false → s.wires.contains f = true → linkSt s ap false ≠ lLP →
    exec (.parkFlit ap f) s =
      .next (after (updPort ap (fun p => { p with park := p.park ++ [f] }) s))) ∧
  (∀ (ap : Nat) (s : State),
    Live s → ap < 12 → parkFull s ap = false →
    exec (.parkfullFall ap) s =
      .next (after (parkRefill ap s))) ∧
  (∀ (ap : Nat) (s : State),
    Live s → ap < 12 →
    exec (.parkRelease ap) s =
      .next (after (parkRelease 256 ap s))) ∧
  (∀ (stop pt : Nat) (f : Flit) (s : State),
    Live s → (passInputs s f).contains (ioStop stop, pt) = true →
    exec (.probeSelect stop pt (probeNet f) f) s =
      .next (after ((List.range 16).foldl (fun s k => probeSee stop pt (probeNet f) f k s) s))) ∧
  (∀ (k : Nat) (v : Word) (s : State),
    Live s → k < 16 →
    exec (.prbCntWrite k v 15) s =
      .next (after (genWrite (frPb (k / 4)) (0x118 + 0x40 * (k % 4)) v.toNat s)))

/-- The I/O-die end sends a rate call and the Stroke unit takes it and answers with a DEMAND (R205, R476, R478, R479); the fourth call missed in a row puts the die on its floor budget (R480). The PPA takes a DEMAND (R474, R478), grants the package's power (R476) and raises a settled rail (R474). The estimate of a die's power moves its duty (R479), and temperatures throttle it (R481, R577, R578). -/
def Obligations.PowerCommandsAct : Prop :=
  (∀ (d : Nat) (s : State),
    Live s → hasCalls s d = true →
    exec (.rateCallSend d) s =
      .next (after (sbSend d false 0x01 (rateBody (fld s frPpa (0x100 + 8 * d) 0 12) (fld s frPpa (0x100 + 8 * d) 12 3) (fld s frPpa (0x100 + 8 * d) 15 3)
        ((mget s.card.rcSeq d + 1) % 256)) (updCard (fun c => { c with rcSeq := mset c.rcSeq d ((mget s.card.rcSeq d + 1) % 256) }) s)))) ∧
  (∀ (d : Nat) (body : BitVec 48) (s : State),
    Live s → hasCalls s d = true → bits body.toNat 12 3 ≤ 6 → bits body.toNat 15 3 ≤ 6 →
    exec (.rateCall d body) s =
      .next (after (sendDemand d (stkSettle d (updCard (fun c => { c with strokeSeq := mset c.strokeSeq d (bits body.toNat 18 8) })
      (updLink d (fun l => { l with missed := 0 }) (updDie d (fun x => { x with slow := 0 })
        (setFld (frDie d) 0x208 32 12 (bits body.toNat 0 12) (clrBit (frDie d) 0x208 11
          (setFld (frDie d) 0x208 4 3 (bits body.toNat 12 3) (setFld (frDie d) 0x208 8 3 (bits body.toNat 15 3) (sbTake d false 0x01 body.toNat s)))))))))))) ∧
  (∀ (d : Nat) (s : State),
    Live s → hasCalls s d = true → (lnk s d).missed < 3 →
    exec (.rateCallMiss d) s =
      .next (after (updLink d (fun l => { l with missed := min 4 (l.missed + 1) }) s))) ∧
  (∀ (d : Nat) (s : State),
    Live s → hasCalls s d = true → (lnk s d).missed = 3 →
    exec (.rateCallMiss d) s =
      .next (after (setFld (frDie d) 0x208 32 12 64 (setBit (frDie d) 0x208 11
      (logErr (linkErr s d true 0x0B 1 0 false 0x3F) (updLink d (fun l => { l with missed := 4 }) s)))))) ∧
  (∀ (d : Nat) (s : State),
    Live s → hasCalls s d = true → 4 ≤ (lnk s d).missed →
    exec (.rateCallMiss d) s =
      .next (after (setFld (frDie d) 0x208 32 12 64 (setBit (frDie d) 0x208 11 (updLink d (fun l => { l with missed := 4 }) s))))) ∧
  (∀ (d : Nat) (body : BitVec 48) (t s : State),
    Live s → hasCalls s d = true → bits body.toNat 12 3 ≤ 6 → bits body.toNat 15 3 ≤ 6 → bit body.toNat 26 = false → t = updCard (fun c => { c with dem := mset c.dem d (body.toNat % 2 ^ 48 + 1) }) (setFld frPpa (0x100 + 8 * d) 18 3 (bits body.toNat 15 3)
        (setFld frPpa (0x100 + 8 * d) 24 12 (bits body.toNat 0 12) (setFld frPpa (0x100 + 8 * d) 37 1 0 (sbTake d true 0x02 body.toNat s)))) →
    exec (.demand d body) s =
      .next (after (if fld t frPpa (0x100 + 8 * d) 15 3 < fld t frPpa (0x100 + 8 * d) 12 3 ∧ fld t frPpa (0x100 + 8 * d) 12 3 ≤ bits body.toNat 12 3 then
        setRail d (fld t frPpa (0x100 + 8 * d) 12 3) (setFld frPpa (0x100 + 8 * d) 15 3 (fld t frPpa (0x100 + 8 * d) 12 3) t) else t))) ∧
  (∀ (d : Nat) (s : State),
    Live s → hasCalls s d = true → (die s d).d3 = false → fbit s frPpa (0x100 + 8 * d) 37 = false →
    exec (.demandMiss d) s =
      .next (after (ppaErr 0x05 1 none 15 (setFld frPpa (0x100 + 8 * d) 18 3 6 (setFld frPpa (0x100 + 8 * d) 37 1 1 s))))) ∧
  (∀ (pIod pHbm pkg : Nat) (s : State),
    Live s →
    exec (.ppaAllocation pIod pHbm pkg) s =
      .next (after (ppaAllocate pIod pHbm pkg s))) ∧
  (∀ (d l : Nat) (s : State),
    Live s → mget s.card.railTo d = l + 1 →
    exec (.railSettled d) s =
      .next (after (setRail d l (updCard (fun c => { c with railTo := mset c.railTo d 0 }) (setFld frPpa (0x100 + 8 * d) 15 3 l (setFld frPpa (0x100 + 8 * d) 12 3 l s)))))) ∧
  (∀ (d : Nat) (s : State),
    Live s → mget s.card.railTo d ≠ 0 →
    exec (.avsTimeout d) s =
      .next (after (mgtMsix 3 (ppaErr 0x01 1 none 15 (updCard (fun c => { c with railTo := mset c.railTo d 0 }) s))))) ∧
  (∀ (d est avg : Nat) (t s : State),
    Live s → d < 12 → (die s d).d3 = false → avg < fld s (frDie d) 0x208 32 12 → t = setFld (frDie d) 0x208 16 5 (min 16 (fld s (frDie d) 0x208 16 5 + 1)) s →
    exec (.powerEstimate d est avg) s =
      .next (after (updDie d (fun x => { x with enFrac := ((die t d).enFrac + est) % 8 }) (addWrap (frDie d) 0x210 (((die t d).enFrac + est) / 8) (setFld (frDie d) 0x208 48 12 (min avg 4095) t))))) ∧
  (∀ (d est avg : Nat) (t s : State),
    Live s → d < 12 → (die s d).d3 = false → fld s (frDie d) 0x208 32 12 < avg → t = setFld (frDie d) 0x208 16 5 (max 8 (fld s (frDie d) 0x208 16 5 - 1)) s →
    exec (.powerEstimate d est avg) s =
      .next (after (updDie d (fun x => { x with enFrac := ((die t d).enFrac + est) % 8 }) (addWrap (frDie d) 0x210 (((die t d).enFrac + est) / 8) (setFld (frDie d) 0x208 48 12 (min avg 4095) t))))) ∧
  (∀ (d : Nat) (s : State),
    Live s → d < 12 → fld s (frDie d) 0x208 16 5 = 8 →
    exec (.throttleLevelDown d) s =
      .next (after (stkSettle d (updDie d (fun x => { x with slow := min 6 (fld s (frDie d) 0x208 0 3 + 1) }) s)))) ∧
  (∀ (d i : Nat) (temp now : Int) (s : State),
    Live s → d < 12 → i < 8 → hottest (updCard (fun c => { c with temp := mins c.temp (16 * d + i) (temp + 2 ^ 15).toNat }) s) d = some now → 1600 ≤ now → now < 1840 → (lnk s d).therm = false →
    exec (.sensorRead (16 * d + i) temp) s =
      .next (after (thermOn d (updCard (fun c => { c with temp := mins c.temp (16 * d + i) (temp + 2 ^ 15).toNat }) s)))) ∧
  (∀ (d i : Nat) (temp now : Int) (s : State),
    Live s → d < 12 → i < 8 → hottest (updCard (fun c => { c with temp := mins c.temp (16 * d + i) (temp + 2 ^ 15).toNat }) s) d = some now → now ≤ 1520 → (lnk s d).therm = true →
    exec (.sensorRead (16 * d + i) temp) s =
      .next (after (thermOff d (updCard (fun c => { c with temp := mins c.temp (16 * d + i) (temp + 2 ^ 15).toNat }) s)))) ∧
  (∀ (d : Nat) (s : State),
    Live s → d < 12 → (lnk s d).therm = true → (die s d).d3 = false →
    exec (.thermalStep d) s =
      .next (after (stkSettle d (updDie d (fun x => { x with therm := min 6 (fld s (frDie d) 0x208 0 3 + 1) }) s)))) ∧
  (∀ (d : Nat) (s : State),
    Live s → d < 12 → (lnk s d).therm = true → (die s d).therm = 6 →
    exec (.thermalPersist d) s =
      .next (after (mgtMsix 3 (ppaErr 0x02 (if diePart s d < 12 then 2 else 1) none (diePart s d) s))))

/-- A die begins to enter D3 or gives the entry up (R486, R487), the package enters K3 and leaves it (R489, R490, R492), and a timer compare wakes the package, the die and the hart (R491). Lost clocks and rails are recorded (R471, R572), the always-on rail takes everything with it (R558), and a window's boundary makes the snapshots (R542, R543). -/
def Obligations.SleepAndPowerLossAct : Prop :=
  (∀ (d : Nat) (s : State),
    Live s → d3Ready s d = true →
    exec (.d3Entry d) s =
      .next (after ((List.range 24).foldl (fun u k =>
      sliceRun d k ((((slice u d k).rgn.filter (fun e => e.2.v)).map (·.1)).foldl (fun w key => rgnRelease d k key w)
        ((((slice u d k).l3.filter (fun e => e.2.v && (!(bit (fld s (frDie d) 0x200 4 4) (e.1 % 12 / 3)) || bit (fld s (frDie d) 0x180 16 4) (e.1 % 12 / 3)))).map (·.1)).foldl
          (fun w key => l3Evict d k key w) u)))
    (updDie d (fun x => { x with d3step := 1 }) s)))) ∧
  (∀ (d : Nat) (s : State),
    Live s → ((die s d).d3step = 1 ∨ (die s d).d3step = 2) →
    exec (.d3EntryAbort d) s =
      .next (after (sendDemand d (updCard (fun c => { c with d3wait := mset c.d3wait d (if hartsPermit s d 120000 3 then s.tb + 1000000 else 0) })
      (updDie d (fun x => { x with d3step := 0 }) s))))) ∧
  (∀ (d : Nat) (s : State),
    Live s → 3 ≤ (die s d).d3step →
    exec (.d3EntryAbort d) s =
      .next (after (sendDemand d (updCard (fun c => { c with d3wait := mset c.d3wait d (if hartsPermit s d 120000 3 then s.tb + 1000000 else 0) })
      (fenceLift d (updDie d (fun x => { x with d3step := 0 }) s)))))) ∧
  (∀ (s : State),
    Live s → k3Ready s = true →
    exec .k3Entry s =
      .next (after (k3Entry s))) ∧
  (∀ (src : Nat) (s : State),
    Live s → src < 4 → s.card.k3 = true →
    exec (.k3Wake src) s =
      .next (after (setFld frPpa 0x048 0 1 0 (updCard (fun c => { c with k3 := false }) s)))) ∧
  (∀ (d : Nat) (s : State),
    Live s → d < 12 → (die (k3Wake s) d).d3 = true →
    exec (.k3Wake (16 + d)) s =
      .next (after (wakePattern d true 0xCA (k3Wake s)))) ∧
  (∀ (h : Nat) (t s : State),
    Live s → h < 576 → (hart s h).st ≠ .parked → t = k3Wake (updHart h (fun x => { x with timer := true }) s) → (die t (h / 48)).d3 = false → (die t (h / 48)).d3step = 0 →
    exec (.timerCompare h) s =
      .next (after (wakeHart h t))) ∧
  (∀ (h : Nat) (t s : State),
    Live s → h < 576 → (hart s h).st ≠ .parked → t = k3Wake (updHart h (fun x => { x with timer := true }) s) → (die t (h / 48)).d3 = false → (die t (h / 48)).d3step ≠ 0 →
    exec (.timerCompare h) s =
      .next (after (d3Abort (h / 48) (wakeHart h t)))) ∧
  (∀ (h : Nat) (t s : State),
    Live s → h < 576 → (hart s h).st ≠ .parked → t = k3Wake (updHart h (fun x => { x with timer := true }) s) → (die t (h / 48)).d3 = true →
    exec (.timerCompare h) s =
      .next (after (wakePattern (h / 48) true 0xCA t))) ∧
  (∀ (s : State),
    Live s →
    exec .refLoss s =
      .next (after (ppaErr 0x04 3 none 15 s))) ∧
  (∀ (rail : Nat) (s : State),
    Live s → (rail < 13 ∨ (16 ≤ rail ∧ rail < 19)) →
    exec (.railFail rail) s =
      .next (after (ppaErr 0x06 3 (some rail) 15 (powerOff s)))) ∧
  (∀ (s : State),
    exec .alwaysOnRailRemoved s =
      .next (settle (clrBit frFlt 0 0 (clrBit frPpa 0x048 0 { powerOff s with tb := 0, pins := { aon := false } })))) ∧
  (∀ (s : State),
    Live s → s.card.winLen ≠ 0 → s.card.k3 = false →
    exec .windowBoundary s =
      .next (after (windowBoundary s))) ∧
  (∀ (v : Word) (part : Nat) (s : State),
    Live s → part = 15 → s.card.winLen ≠ 0 →
    exec (.iofWinCtlWrite v part) s =
      .next (after (setFld frIof 0x800 0 16 v.toNat s))) ∧
  (∀ (v : Word) (part : Nat) (s : State),
    Live s → part = 15 → s.card.winLen = 0 →
    exec (.iofWinCtlWrite v part) s =
      .next (after (updCard (fun c => { c with winLen := v.toNat % 65536 }) (setFld frIof 0x800 0 16 v.toNat s))))

/-- When the Cox is at rest and takes a manager command that its layout admits, it does what Tables 9.4, 9.7 to 9.9 and 8.13 say: it writes the layout and the routes of a new partition, starts one, begins to stop, reset or delete one, evacuates or adds a die, moves a slab set, assigns or releases a root port, and answers a query (R309 to R323, R580). What the first step leaves open goes on as the Cox runs. -/
def Obligations.LifecycleCommandsRun : Prop :=
  (∀ (c : MgrCmd) (u : State) (pr : Proc) (s t : State),
    pr = { op := 0x01, c := c } → t = cmdTaken pr s → CoxTakes pr s → argP pr < 12 → argD pr < 12 → (part t (argP pr)).st = .none → dieSpare t (argD pr) = true → drained t = true → u = updPart (argP pr) (fun x => { x with st := .stopped, dies := 2 ^ argD pr }) (updDie (argD pr) (fun x => { x with asg := some (argP pr) }) t) → routesExist (routeSet u (nowVis u)) = true →
    exec (.partCreate c) s =
      .next (coxThen (mgrStep { pr with step := 1, p := argP pr, d := argD pr } (switchRoutes u)))) ∧
  (∀ (c : MgrCmd) (pr : Proc) (s t : State),
    pr = { op := 0x02, c := c } → t = cmdTaken pr s → CoxTakes pr s → argP pr < 12 → (part t (argP pr)).st = .stopped → (part t (argP pr)).dies ≠ 0 → isShadow t (argP pr) = false →
    exec (.partStart c) s =
      .next (coxThen (mgrEnd rDONE 0 (partRun (argP pr) (partUnfence (argP pr) t))))) ∧
  (∀ (c : MgrCmd) (pr : Proc) (s t : State),
    pr = { op := 0x03, c := c } → t = cmdTaken pr s → CoxTakes pr s → argP pr < 12 → (part t (argP pr)).st = .running →
    exec (.partStop c) s =
      .next (coxThen (mgrStep { pr with step := 1, p := argP pr, n := 0 } (rangeSend (diesOf (setPart (argP pr) .changing t) (argP pr)) 0 (2 ^ 44 - 1)
        ((hartsOf (setPart (argP pr) .changing t) (argP pr)).foldl (fun s h => parkHart h s) (setPart (argP pr) .changing t)))))) ∧
  (∀ (c : MgrCmd) (pr : Proc) (s t : State),
    pr = { op := 0x04, c := c } → t = cmdTaken pr s → CoxTakes pr s → argP pr < 12 → (part t (argP pr)).st = .running →
    exec (.partReset c) s =
      .next (coxThen (mgrStep { pr with step := 1, p := argP pr, n := 0 } (rangeSend (diesOf (setPart (argP pr) .changing t) (argP pr)) 0 (2 ^ 44 - 1)
        ((hartsOf (setPart (argP pr) .changing t) (argP pr)).foldl (fun s h => parkHart h s) (setPart (argP pr) .changing t)))))) ∧
  (∀ (c : MgrCmd) (pr : Proc) (s t : State),
    pr = { op := 0x05, c := c } → t = cmdTaken pr s → CoxTakes pr s → argP pr < 12 → (part t (argP pr)).st = .stopped →
    exec (.partDelete c) s =
      .next (coxThen (mgrStep { pr with step := 1, p := argP pr, d := argP pr, l := setsOf t (argP pr) } t))) ∧
  (∀ (c : MgrCmd) (pr : Proc) (s t : State),
    pr = { op := 0x06, c := c } → t = cmdTaken pr s → CoxTakes pr s → argP pr < 12 → argD pr < 12 → (part t (argP pr)).st = .running → 2 ≤ (diesOf t (argP pr)).length → ownsDie t (argP pr) (argD pr) = true → isShadow t (argP pr) = false → (List.range 48).all (fun c => (hart t (48 * argD pr + c)).st = .parked) = true →
    exec (.dieEvacuate c) s =
      .next (coxThen (mgrStep { pr with step := 1, p := argP pr, d := argD pr } (rangeSend [argD pr] 0 (2 ^ 44 - 1) (setPart (argP pr) .changing t))))) ∧
  (∀ (c : MgrCmd) (u : State) (pr : Proc) (s t : State),
    pr = { op := 0x07, c := c } → t = cmdTaken pr s → CoxTakes pr s → argP pr < 12 → argD pr < 12 → (part t (argP pr)).st = .stopped → dieSpare t (argD pr) = true → isShadow t (argP pr) = false → drained t = true → u = updDie (argD pr) (fun x => { x with asg := some (argP pr) }) (updPart (argP pr) (fun x => { x with dies := putBit x.dies (argD pr) true }) t) → routesExist (routeSet u (nowVis u)) = true →
    exec (.dieAdd c) s =
      .next (coxThen (mgrStep { pr with step := 1, p := argP pr, d := argD pr, n := 0, bad := false } (updPart (argP pr) (fun x => { x with dies := putBit x.dies (argD pr) false }) (switchRoutes u))))) ∧
  (∀ (c : MgrCmd) (b : Nat) (pr : Proc) (s t : State),
    pr = { op := 0x08, c := c } → t = cmdTaken pr s → CoxTakes pr s → argP pr < 12 → b = setBase t (argS pr) → (part t (argP pr)).st ≠ .none → setBad t b = false → slState (slabEnt t b) = slFREE → isShadow t (argP pr) = false → (slKind (slabEnt t b) ≠ 2 ∨ ownsRp t (argP pr) (slDslab (slabEnt t b) % 16) = true) →
    exec (.slabAssign c) s =
      .next (coxThen (mgrStep { pr with step := 1, p := argP pr, n := b, d := 15 } t))) ∧
  (∀ (c : MgrCmd) (b : Nat) (pr : Proc) (s t : State),
    pr = { op := 0x09, c := c } → t = cmdTaken pr s → CoxTakes pr s → b = setBase t (argS pr) → setBad t b = false → slState (slabEnt t b) = slOWNED → isShadow t (slOwner (slabEnt t b)) = false →
    exec (.slabRelease c) s =
      .next (coxThen (mgrStep { pr with step := 1, p := 15, n := b, d := slOwner (slabEnt t b) } t))) ∧
  (∀ (c : MgrCmd) (u : State) (pr : Proc) (s t : State),
    pr = { op := 0x0A, c := c } → t = cmdTaken pr s → CoxTakes pr s → argP pr < 12 → argD pr < 12 → (part t (argP pr)).st ≠ .none → rpPart t (argD pr) = 15 → fbit t (frRp (argD pr)) 0 3 = false → bhPort t (argD pr) = false → drained t = true → u = updPart (argP pr) (fun x => { x with rps := putBit x.rps (argD pr) true }) t → routesExist (routeSet u (nowVis u)) = true →
    exec (.rpAssign c) s =
      .next (coxThen (mgrStep { pr with step := 1, p := argP pr, d := argD pr } (switchRoutes u)))) ∧
  (∀ (c : MgrCmd) (pr : Proc) (s t : State),
    pr = { op := 0x0B, c := c } → t = cmdTaken pr s → CoxTakes pr s → argD pr < 12 → rpPart t (argD pr) ≠ 15 →
    exec (.rpRelease c) s =
      .next (coxThen (mgrStep { pr with step := 1, p := rpPart t (argD pr), d := argD pr } (softFence (16 + argD pr) t)))) ∧
  (∀ (c : MgrCmd) (pr : Proc) (s t : State),
    pr = { op := 0x0C, c := c } → t = cmdTaken pr s → CoxTakes pr s → argP pr < 12 →
    exec (.partQuery c) s =
      .next (coxThen (mgrEnd rDONE (pStateCode (part t (argP pr)).st + (part t (argP pr)).dies * 2 ^ 4 + (part t (argP pr)).rps * 2 ^ 16) t))) ∧
  (∀ (c : MgrCmd) (pr : Proc) (s t : State),
    pr = { op := 0x10, c := c } → t = cmdTaken pr s → CoxTakes pr s → fbit t frFlt 8 0 = true → hasErrBank (frameKind (bits (arg0 pr) 0 12)).1 = true → injRefused (bits (arg0 pr) 0 12) (arg1 pr) = false →
    exec (.errInject c) s =
      .next (coxThen (mgrEnd rDONE 0 (injWrite (bits (arg0 pr) 0 12) 15 (arg1 pr) t))))

/-- When the Cox takes a Boathouse command on an initialised Boathouse and its arguments name what exists, the command does what Table 11.9 says: drives and pools come and go, namespaces are made and attached, virtual functions are made, frozen, saved, restored, thawed and logged (R372 to R375, R387, R397 to R405). -/
def Obligations.BoathouseManagerCommandsRun : Prop :=
  (∀ (c : MgrCmd) (id : DriveId) (pr : Proc) (s t : State),
    pr = { op := 0x20, c := c, id := id } → t = cmdTaken pr s → CoxTakes pr s → t.bh.slab.isNone = false → bits (arg1 pr) 0 4 < 12 → (mfind t.drives (bits (arg0 pr) 0 6)).isSome = false → rpPart t (bits (arg1 pr) 0 4) = 15 → rpPair t (bits (arg1 pr) 0 4) = false → bhPort t (bits (arg1 pr) 0 4) = true → id.responds = true → (id.bsize = 4096 ∨ id.bsize = 512 ∧ 7 ≤ id.awupf) → (id.volatileCache = false ∨ id.disables = true) → 8 ≤ id.qpairs →
    exec (.bhDriveAttach c id) s =
      .next (coxThen (mgrEnd rDONE 0 (catUpdate { t with drives := mins t.drives (bits (arg0 pr) 0 6) { rp := bits (arg1 pr) 0 4, rid := bits (arg1 pr) 8 16, blocks := id.blocks } })))) ∧
  (∀ (c : MgrCmd) (dv : Drive) (u : State) (pr : Proc) (s t : State),
    pr = { op := 0x21, c := c } → t = cmdTaken pr s → CoxTakes pr s → t.bh.slab.isNone = false → mfind t.drives (bits (arg0 pr) 0 6) = some dv → t.bh.pools.any (fun e => e.2.drv = bits (arg0 pr) 0 6) = false → u = { t with drives := mdel t.drives (bits (arg0 pr) 0 6), catCopies := mdel t.catCopies (dv.rp * 65536 + dv.rid) } → bhPort u dv.rp = true →
    exec (.bhDriveDetach c) s =
      .next (coxThen (mgrEnd rDONE 0 (catUpdate u)))) ∧
  (∀ (c : MgrCmd) (dv : Drive) (k : Nat) (pr : Proc) (s t : State),
    pr = { op := 0x22, c := c } → t = cmdTaken pr s → CoxTakes pr s → t.bh.slab.isNone = false → bits (arg0 pr) 0 4 < 12 → bits (arg0 pr) 24 40 ≠ 0 → mfind t.drives (bits (arg0 pr) 8 6) = some dv → (part t (bits (arg0 pr) 0 4)).st ≠ .none → 1024 ≤ bits (arg1 pr) 0 40 → bits (arg1 pr) 0 40 + bits (arg0 pr) 24 40 ≤ dv.blocks → t.bh.pools.any (fun e => decide (e.2.drv = bits (arg0 pr) 8 6) && decide (bits (arg1 pr) 0 40 < e.2.first + e.2.count) && decide (e.2.first < bits (arg1 pr) 0 40 + bits (arg0 pr) 24 40)) = false → t.bh.pools.length < 256 → k = ((List.range 256).find? (fun k => (mfind t.bh.pools k).isNone)).getD 0 →
    exec (.bhPoolAdd c) s =
      .next (coxThen (mgrEnd rDONE k (catUpdate (updBh (fun x => { x with pools := mins x.pools k { part := bits (arg0 pr) 0 4, drv := bits (arg0 pr) 8 6, first := bits (arg1 pr) 0 40, count := bits (arg0 pr) 24 40 } }) t))))) ∧
  (∀ (c : MgrCmd) (q : Pool) (pr : Proc) (s t : State),
    pr = { op := 0x23, c := c } → t = cmdTaken pr s → CoxTakes pr s → t.bh.slab.isNone = false → mfind t.bh.pools (bits (arg0 pr) 0 8) = some q → t.bh.alloc.any (fun e => decide (blkKey q.drv q.first ≤ e.1) && decide (e.1 < blkKey q.drv (q.first + q.count))) = false →
    exec (.bhPoolRemove c) s =
      .next (coxThen (mgrEnd rDONE 0 (catUpdate (updBh (fun x => { x with pools := mdel x.pools (bits (arg0 pr) 0 8) }) t))))) ∧
  (∀ (c : MgrCmd) (n nsid : Nat) (got : List Nat) (nd : NsDef) (pr : Proc) (s t : State),
    pr = { op := 0x24, c := c } → t = cmdTaken pr s → CoxTakes pr s → t.bh.slab.isNone = false → bits (arg0 pr) 0 4 < 12 → arg1 pr ≠ 0 → arg1 pr % 512 = 0 → (part t (bits (arg0 pr) 0 4)).st ≠ .none → n = arg1 pr / 512 → got = freeBlocks t (bits (arg0 pr) 0 4) (n + (n + 511) / 512) → t.bh.nss.length < 2048 → n + (n + 511) / 512 ≤ got.length → nsid = (((List.range 2048).map (· + 1)).find? (fun k => (mfind t.bh.nss k).isNone)).getD 1 → nd = { part := bits (arg0 pr) 0 4, fmt4k := bit (arg0 pr) 8, size := arg1 pr, nsuid := t.bh.nsuid + 1, dir := got.drop n, maps := got.take n } →
    exec (.bhNsCreate c) s =
      .next (coxThen (mgrEnd rDONE nsid (catUpdate (allocate nsid got (updBh (fun b => { b with nsuid := t.bh.nsuid + 1, nss := mins b.nss nsid nd }) t)))))) ∧
  (∀ (c : MgrCmd) (nsid : Nat) (pr : Proc) (s t : State),
    pr = { op := 0x25, c := c } → t = cmdTaken pr s → CoxTakes pr s → t.bh.slab.isNone = false → nsid = bits (arg0 pr) 0 12 → nsid ≠ 0 → nsid ≤ 2048 → (mfind t.bh.nss nsid).isNone = false → (nsVfs t nsid).isEmpty = true →
    exec (.bhNsDelete c) s =
      .next (coxThen (mgrEnd rDONE 0 (catUpdate (updBh (fun b => { b with
      nss := mdel b.nss nsid, alloc := b.alloc.filter (fun e => decide (e.2 ≠ nsid + 1)), maps := b.maps.filter (fun e => !(decide (e.1 / 2 ^ 32 = nsid))),
      mapUse := b.mapUse.filter (fun k => !(decide (k / 2 ^ 32 = nsid))), lostSp := b.lostSp.filter (fun k => !(decide (k / 2 ^ 32 = nsid))), unready := b.unready.erase nsid }) t))))) ∧
  (∀ (c : MgrCmd) (nsid v : Nat) (pr : Proc) (s t : State),
    pr = { op := 0x26, c := c } → t = cmdTaken pr s → CoxTakes pr s → t.bh.slab.isNone = false → nsid = bits (arg0 pr) 0 12 → v = bits (arg1 pr) 0 10 → nsid ≠ 0 → nsid ≤ 2048 → (mfind t.bh.nss nsid).isNone = false → vfIs t v = true → (nsOf t nsid).part = (vf t v).owner → (vf t v).ns.contains nsid = false → (vf t v).ns.length < 8 → (nsVfs t nsid).length < 8 →
    exec (.bhNsAttach c) s =
      .next (coxThen (mgrEnd rDONE 0 (nsChanged v nsid (updVf v (fun x => { x with ns := x.ns ++ [nsid] }) t))))) ∧
  (∀ (c : MgrCmd) (nsid v : Nat) (pr : Proc) (s t : State),
    pr = { op := 0x27, c := c } → t = cmdTaken pr s → CoxTakes pr s → t.bh.slab.isNone = false → nsid = bits (arg0 pr) 0 12 → v = bits (arg1 pr) 0 10 → nsid ≠ 0 → nsid ≤ 2048 → vfIs t v = true → (vf t v).ns.contains nsid = true → t.bh.slots.any (fun x => decide (x.vf = v) && decide (x.n < 8192) && decide (x.e.nsid = nsid)) = false →
    exec (.bhNsDetach c) s =
      .next (coxThen (mgrEnd rDONE 0 (nsChanged v nsid (updVf v (fun x => { x with ns := x.ns.erase nsid }) t))))) ∧
  (∀ (c : MgrCmd) (v : Nat) (u : State) (pr : Proc) (s t : State),
    pr = { op := 0x28, c := c } → t = cmdTaken pr s → CoxTakes pr s → t.bh.slab.isNone = false → bits (arg0 pr) 0 4 < 12 → 0 < bits (arg0 pr) 8 8 → bits (arg0 pr) 8 8 ≤ 128 → 0 < bits (arg1 pr) 0 14 → bits (arg1 pr) 0 14 ≤ 8192 → bits (arg1 pr) 16 14 ≤ bits (arg1 pr) 0 14 → (part t (bits (arg0 pr) 0 4)).st ≠ .none → t.bh.vfs.length < 1024 → qpSum t + bits (arg0 pr) 8 8 ≤ 4096 → guarSum t + bits (arg1 pr) 16 14 ≤ 8192 → drained t = true → v = ((List.range 1024).find? (fun v => !(vfIs t v))).getD 0 → u = updBh (fun b => { b with vfs := mins b.vfs v { owner := bits (arg0 pr) 0 4, nqp := bits (arg0 pr) 8 8, share := bits (arg1 pr) 0 14, guar := bits (arg1 pr) 16 14, frozen := bit (arg0 pr) 16 } }) t → routesExist (routeSet u (nowVis u)) = true →
    exec (.bhVfCreate c) s =
      .next (coxThen (mgrEnd rDONE v (vfMsg (bits (arg0 pr) 0 4) 2 v (switchRoutes u))))) ∧
  (∀ (c : MgrCmd) (v : Nat) (pr : Proc) (s t : State),
    pr = { op := 0x29, c := c } → t = cmdTaken pr s → CoxTakes pr s → t.bh.slab.isNone = false → v = bits (arg0 pr) 0 10 → vfIs t v = true → (vf t v).ns.isEmpty = true → drained t = true →
    exec (.bhVfDelete c) s =
      .next (coxThen (mgrEnd rDONE 0 (vfMsg (vf t v).owner 3 v (switchRoutes (updBh (fun b => { b with vfs := mdel b.vfs v }) (flrVf v t))))))) ∧
  (∀ (c : MgrCmd) (v : Nat) (pr : Proc) (s t : State),
    pr = { op := 0x2A, c := c } → t = cmdTaken pr s → CoxTakes pr s → t.bh.slab.isNone = false → v = bits (arg0 pr) 0 10 → 0 < bits (arg1 pr) 0 14 → bits (arg1 pr) 0 14 ≤ 8192 → bits (arg1 pr) 16 14 ≤ bits (arg1 pr) 0 14 → vfIs t v = true → guarSum t - (vf t v).guar + bits (arg1 pr) 16 14 ≤ 8192 →
    exec (.bhVfShare c) s =
      .next (coxThen (mgrEnd rDONE 0 (updVf v (fun x => { x with share := bits (arg1 pr) 0 14, guar := bits (arg1 pr) 16 14 }) t)))) ∧
  (∀ (c : MgrCmd) (v : Nat) (pr : Proc) (s t : State),
    pr = { op := 0x2B, c := c } → t = cmdTaken pr s → CoxTakes pr s → t.bh.slab.isNone = false → v = bits (arg0 pr) 0 10 → vfIs t v = true → (vf t v).frozen = false →
    exec (.bhVfFreeze c) s =
      .next (coxThen (mgrStep { pr with step := 1, n := v } (updVf v (fun x => { x with frozen := true }) t)))) ∧
  (∀ (c : MgrCmd) (v : Nat) (w : Nat × State) (pr : Proc) (s t : State),
    pr = { op := 0x2C, c := c } → t = cmdTaken pr s → CoxTakes pr s → t.bh.slab.isNone = false → v = bits (arg0 pr) 0 10 → vfIs t v = true → (vf t v).frozen = true → imgAddrOk t v (arg1 pr) 16384 = true → w = hostWrite v true (arg1 pr) 16384 (vfImage t v) t →
    exec (.bhVfSave c) s =
      .next (coxThen (mgrStep { pr with step := 1, n := v, d := w.1 } w.2))) ∧
  (∀ (c : MgrCmd) (v : Nat) (pr : Proc) (s t : State),
    pr = { op := 0x2D, c := c } → t = cmdTaken pr s → CoxTakes pr s → t.bh.slab.isNone = false → v = bits (arg0 pr) 0 10 → vfIs t v = true → (vf t v).frozen = true → (vf t v).sqs.any (fun e => e.1 ≠ 0) = false → (vf t v).cqs.any (fun e => e.1 ≠ 0) = false → imgAddrOk t v (arg1 pr) 16384 = true →
    exec (.bhVfRestore c) s =
      .next (coxThen (mgrStep { pr with step := 1, n := v } ((List.range 4).foldl (fun s i => hostRead v (2 ^ 24 + i) (arg1 pr + 4096 * i) 4096 s)
      (updBh (fun b => { b with image := 0, imageLeft := 4, imageBad := false }) t))))) ∧
  (∀ (c : MgrCmd) (v : Nat) (pr : Proc) (s t : State),
    pr = { op := 0x2E, c := c } → t = cmdTaken pr s → CoxTakes pr s → t.bh.slab.isNone = false → v = bits (arg0 pr) 0 10 → vfIs t v = true → (vf t v).frozen = true →
    exec (.bhVfThaw c) s =
      .next (coxThen (mgrEnd rDONE 0 ((onesOf 128 (vf t v).pba).foldl (fun s i => bhMsi v i s) (updVf v (fun x => { x with frozen := false }) t))))) ∧
  (∀ (c : MgrCmd) (v : Nat) (pr : Proc) (s t : State),
    pr = { op := 0x2F, c := c } → t = cmdTaken pr s → CoxTakes pr s → t.bh.slab.isNone = false → v = bits (arg0 pr) 0 10 → vfIs t v = true → bit (arg0 pr) 16 = true → imgAddrOk t v (arg1 pr) 64 = true →
    exec (.bhDirtyLog c) s =
      .next (coxThen (mgrStep { pr with step := 1, n := v } (hostRead v (2 ^ 24) (arg1 pr) 64 (updBh (fun b => { b with image := 0, imageLeft := 1, imageBad := false }) t)))))

/-- The Cox writes, verifies, disarms, rolls back and reads flash slots and raises the SVN floor (R448 to R455, Table 13.13), begins an activation of firmware (R464, Table 13.12), runs the self-tests (R462, Table 13.11), starts the package again (R456) and reads the log area (R444). -/
def Obligations.FirmwareAndTestCommandsRun : Prop :=
  (∀ (c : MgrCmd) (k : Nat) (u : State) (pr : Proc) (s t : State),
    pr = { op := 0x30, c := c } → t = cmdTaken pr s → CoxTakes pr s → arg0 pr % copySize = 0 → arg0 pr < slotSize → copyArgOk t c.src (arg1 pr) = true → writeSlot t = some k → slotRole t.card.cs0 k ≠ roWRITING → arg1 pr = 0 → u = setRoles ((rolesOf t.card.cs0).set k roWRITING) c.src t →
    exec (.rcWrite c) s =
      .next (coxThen (mgrEnd rDONE 0 (slotPut k (arg0 pr) u.card.stage u)))) ∧
  (∀ (c : MgrCmd) (k : Nat) (pr : Proc) (s t : State),
    pr = { op := 0x31, c := c } → t = cmdTaken pr s → CoxTakes pr s → slotOf t.card.cs0 roWRITING = some k →
    exec (.rcVerify c) s =
      .next (coxThen ((match verify t t.card.cs0 (slotBase k) with
    | none => mgrEnd rDONE 0 (setRole k roPENDING t)
    | some e => mgrEnd rFAILED (e.1 + e.2 * 2 ^ 8) (setRole k roFAILED t))))) ∧
  (∀ (c : MgrCmd) (k : Nat) (pr : Proc) (s t : State),
    pr = { op := 0x32, c := c } → t = cmdTaken pr s → CoxTakes pr s → slotOf t.card.cs0 roPENDING = some k →
    exec (.rcDisarm c) s =
      .next (coxThen (mgrEnd rDONE 0 (setRole k roEMPTY t)))) ∧
  (∀ (c : MgrCmd) (k : Nat) (pr : Proc) (s t : State),
    pr = { op := 0x33, c := c } → t = cmdTaken pr s → CoxTakes pr s → slotOf t.card.cs0 roPREVIOUS = some k → slotOf t.card.cs0 roPENDING = none → slotOf t.card.cs0 roWRITING = none → svnFloor t ≤ slotSvn t k →
    exec (.rcRollback c) s =
      .next (coxThen (mgrEnd rDONE 0 (setRole k roPENDING t)))) ∧
  (∀ (c : MgrCmd) (pr : Proc) (s t : State),
    pr = { op := 0x34, c := c } → t = cmdTaken pr s → CoxTakes pr s → bits (arg0 pr) 0 2 ≠ 3 → bits (arg0 pr) 18 14 * copySize < slotSize → copyArgOk t c.src (arg1 pr) = true →
    exec (.rcRead c) s =
      .next (coxThen (copyOut pr (cut t.card.cs0 (slotBase (bits (arg0 pr) 0 2) + bits (arg0 pr) 18 14 * copySize)) t))) ∧
  (∀ (c : MgrCmd) (k : Nat) (pr : Proc) (s t : State),
    pr = { op := 0x35, c := c } → t = cmdTaken pr s → CoxTakes pr s → slotOf t.card.cs0 roCURRENT = some k → svnFloor t < slotSvn t k →
    exec (.rcSvnRaise c) s =
      .next (coxThen (mgrEnd rDONE 0 (setRoles ((rolesOf t.card.cs0).zipIdx.map (fun e => if e.2 ≠ k ∧ e.1 ≠ roEMPTY ∧ e.1 ≠ roWRITING ∧ slotSvn t e.2 < slotSvn t k then roFAILED else e.1))
      (writeOwner t.card.cs0) (updCard (fun x => { x with svn := slotSvn t k }) t))))) ∧
  (∀ (c : MgrCmd) (k cu : Nat) (pr : Proc) (s t : State),
    pr = { op := 0x36, c := { c with a0 := c.a0 ||| 1 } } → t = cmdTaken pr s → CoxTakes pr s → slotOf t.card.cs0 roPENDING = some k → bit (fle t.card.cs0 (slotBase k + 29) 1) 0 = true → slotOf t.card.cs0 roCURRENT = some cu → sectBytes t.card.cs0 (slotBase k) 4 0 = sectBytes t.card.cs0 (slotBase cu) 4 0 → bit (arg0 pr) 0 = true → bit (arg0 pr) 1 = false →
    exec (.coxFwActivate c) s =
      .next (coxThen (mgrStep { pr with step := 3 } { t with cox := { t.cox with swap := true } }))) ∧
  (∀ (c : MgrCmd) (k cu : Nat) (pr : Proc) (s t : State),
    pr = { op := 0x36, c := { c with a0 := c.a0 ||| 2 } } → t = cmdTaken pr s → CoxTakes pr s → slotOf t.card.cs0 roPENDING = some k → bit (fle t.card.cs0 (slotBase k + 29) 1) 0 = true → slotOf t.card.cs0 roCURRENT = some cu → sectBytes t.card.cs0 (slotBase k) 3 0 = sectBytes t.card.cs0 (slotBase cu) 3 0 → bit (arg0 pr) 1 = true →
    exec (.bhFwActivate c) s =
      .next (coxThen (mgrStep { pr with step := 1 } (updBh (fun b => { b with pause := true }) t)))) ∧
  (∀ (c : MgrCmd) (pr : Proc) (s t : State),
    pr = { op := 0x37, c := { c with a0 := 1 } } → t = cmdTaken pr s → CoxTakes pr s → testArgOk 1 (arg1 pr) = true → testBusy t 1 (arg1 pr) = false →
    exec (.dieBist c) s =
      .next (coxThen (mgrEnd rDONE 0 ((testStat 257 (updCard (fun x => { x with test := some (c.src, 1, arg1 pr) }) t)))))) ∧
  (∀ (c : MgrCmd) (pr : Proc) (s t : State),
    pr = { op := 0x37, c := { c with a0 := 2 } } → t = cmdTaken pr s → CoxTakes pr s → testArgOk 2 (arg1 pr) = true → testBusy t 2 (arg1 pr) = false →
    exec (.linkFull c) s =
      .next (coxThen (mgrEnd rDONE 0 ((testStat 513 (updCard (fun x => { x with test := some (c.src, 2, arg1 pr) }) t)))))) ∧
  (∀ (c : MgrCmd) (pr : Proc) (s t : State),
    pr = { op := 0x37, c := { c with a0 := 3 } } → t = cmdTaken pr s → CoxTakes pr s → testArgOk 3 (arg1 pr) = true → testBusy t 3 (arg1 pr) = false →
    exec (.memTest c) s =
      .next (coxThen (mgrEnd rDONE 0 ((testStat 769 (updCard (fun x => { x with test := some (c.src, 3, arg1 pr) }) t)))))) ∧
  (∀ (c : MgrCmd) (pr : Proc) (s t : State),
    pr = { op := 0x37, c := { c with a0 := 4 } } → t = cmdTaken pr s → CoxTakes pr s → testArgOk 4 (arg1 pr) = true → testBusy t 4 (arg1 pr) = false →
    exec (.rpMargin c) s =
      .next (coxThen (mgrEnd rDONE 0 ((testStat 1025 (updCard (fun x => { x with test := some (c.src, 4, arg1 pr) }) t)))))) ∧
  (∀ (c : MgrCmd) (pr : Proc) (s t : State),
    pr = { op := 0x37, c := { c with a0 := 5 } } → t = cmdTaken pr s → CoxTakes pr s → testArgOk 5 (arg1 pr) = true → testBusy t 5 (arg1 pr) = false → (freeSpare (lnk t (bits (arg1 pr) 0 4)) (wgKey (bit (arg1 pr) 11) (bits (arg1 pr) 4 7))).isNone = false →
    exec (.wgRecal c) s =
      .next (coxThen (mgrEnd rDONE 0 (startRecal (bits (arg1 pr) 0 4) (wgKey (bit (arg1 pr) 11) (bits (arg1 pr) 4 7)) (testStat 1281 (updCard (fun x => { x with test := some (c.src, 5, arg1 pr) }) t)))))) ∧
  (∀ (c : MgrCmd) (pr : Proc) (s t : State),
    pr = { op := 0x37, c := { c with a0 := 6 } } → t = cmdTaken pr s → CoxTakes pr s → testArgOk 6 (arg1 pr) = true → testBusy t 6 (arg1 pr) = false →
    exec (.l3Bank c) s =
      .next (coxThen (mgrEnd rDONE 0 (hideBank (bits (arg1 pr) 0 4) (bits (arg1 pr) 4 2) (testStat 1537 (updCard (fun x => { x with test := some (c.src, 6, arg1 pr) }) t)))))) ∧
  (∀ (c : MgrCmd) (pr : Proc) (s t : State),
    pr = { op := 0x38, c := c } → t = cmdTaken pr s → CoxTakes pr s → ucp t = false →
    exec (.warmStart c) s =
      .next (coxThen (warmStart t))) ∧
  (∀ (c : MgrCmd) (pr : Proc) (s t : State),
    pr = { op := 0x39, c := c } → t = cmdTaken pr s → CoxTakes pr s → arg0 pr % copySize = 0 → arg0 pr < 0x3000000 → copyArgOk t c.src (arg1 pr) = true →
    exec (.logRead c) s =
      .next (coxThen (copyOut pr (logBytes (arg0 pr) t).1 (logBytes (arg0 pr) t).2)))

/-- The Cox protects a partition, ends its protection, switches it, takes it over or releases it, and answers a query about its pair (R413, R418, R426 to R438, Table 12.6). -/
def Obligations.PairManagerCommandsRun : Prop :=
  (∀ (c : MgrCmd) (p : Nat) (pr : Proc) (s t : State),
    pr = { op := 0x40, c := c } → t = cmdTaken pr s → CoxTakes pr s → bits (arg0 pr) 0 4 < 12 → p = bits (arg0 pr) 0 4 → (pairSt t p = .off ∨ pairSt t p = .alone) → (pairP t p).matched = true → (part t p).st = .running →
    exec (.pairProtect c) s =
      .next (coxThen (mgrEnd rDONE 0 (updPairP p (fun x => { x with
      bulk := (t.slab.filter (fun e => decide (slState e.2 = slOWNED) && decide (slOwner e.2 = p))).map (·.1), blk := (t.bh.nss.filter (fun e => e.2.part = p)).map (·.1), bulkAt := 0, blkAt := 0 })
      (setPairSt p .syncActive t))))) ∧
  (∀ (c : MgrCmd) (p : Nat) (pr : Proc) (s t : State),
    pr = { op := 0x41, c := c } → t = cmdTaken pr s → CoxTakes pr s → bits (arg0 pr) 0 4 < 12 → p = bits (arg0 pr) 0 4 → pairSt t p = .active →
    exec (.pairUnprotect c) s =
      .next (coxThen (mgrStep { pr with step := 1 } (updPairP p (fun x => { x with unprot := true }) t)))) ∧
  (∀ (c : MgrCmd) (p : Nat) (pr : Proc) (s t : State),
    pr = { op := 0x42, c := c } → t = cmdTaken pr s → CoxTakes pr s → bits (arg0 pr) 0 4 < 12 → p = bits (arg0 pr) 0 4 → pairSt t p = .active →
    exec (.pairSwitch c) s =
      .next (coxThen (mgrStep { pr with step := 1 } (closeStart p (updPairP p (fun x => { x with switching := true }) t))))) ∧
  (∀ (c : MgrCmd) (p : Nat) (pr : Proc) (s t : State),
    pr = { op := 0x43, c := c } → t = cmdTaken pr s → CoxTakes pr s → bits (arg0 pr) 0 4 < 12 → p = bits (arg0 pr) 0 4 → pairSt t p = .shadow →
    exec (.pairTakeover c) s =
      .next (coxThen (mgrStep { pr with step := 1 } (takeStart p t)))) ∧
  (∀ (c : MgrCmd) (p : Nat) (u : State) (pr : Proc) (s t : State),
    pr = { op := 0x44, c := c } → t = cmdTaken pr s → CoxTakes pr s → bits (arg0 pr) 0 4 < 12 → p = bits (arg0 pr) 0 4 → pairSt t p = .held → u = updPairP p (fun x => { x with close := 0, told := [], todo := [], switching := false }) (setPairSt p .alone (pairDrop p t)) →
    exec (.pairRelease c) s =
      .next (coxThen (mgrEnd rDONE 0 (bhSettle (bhRelease p (writersGo p (hartsResume p u))))))) ∧
  (∀ (c : MgrCmd) (p : Nat) (pr : Proc) (s t : State),
    pr = { op := 0x45, c := c } → t = cmdTaken pr s → CoxTakes pr s → bits (arg0 pr) 0 4 < 12 → p = bits (arg0 pr) 0 4 → pairSt t p = .shadow →
    exec (.pairQuery c) s =
      .next (coxThen (mgrEnd rDONE (5 + pairCommit t p % 2 ^ 28 * 16) (setReg (mgrFrame c.src) 0x008 (BitVec.ofNat 64 (pairCommit t p)) t))))

/-- A partition resets itself through the Cox (R319), parks and starts its harts (R317), sends and takes messages and sets where the mailbox's interrupt goes (R328 to R331). A hart that has not parked in time is recorded (R317), as is a route switch that does not drain (R249). -/
def Obligations.PartitionCommandsAct : Prop :=
  (∀ (p : Nat) (s : State),
    Live s → p < 12 → (part s p).st = .running →
    exec (.selfrst p) s =
      .next (after ({ s with cox := { s.cox with queue := s.cox.queue ++ [{ op := 0x04, c := { src := 17, a0 := BitVec.ofNat 64 p } }] } }))) ∧
  (∀ (p h : Nat) (s : State),
    Live s → p < 12 → h < 576 → ownsDie s p (h / 48) = true → (hart s h).st = .run →
    exec (.park p h) s =
      .next (after (hartRun h (updHart h (fun x => { retiredOnly x with st := .parking }) s)))) ∧
  (∀ (p h : Nat) (s : State),
    Live s → p < 12 → h < 576 → ownsDie s p (h / 48) = true → (part s p).st = .running → (port s (h / 48)).fenced = false → (hart s h).st = .parked →
    exec (.start p h) s =
      .next (after (startHart p h s))) ∧
  (∀ (h : Nat) (s : State),
    Live s → h < 576 → (hart s h).st = .parking → s.cox.cur = none →
    exec (.parkTimeout h) s =
      .next (after (logErr { frame := frCox, ty := 0x0B, cls := 1, consq := true, part := hartPart s h, agent := some (hartAgent h) } s))) ∧
  (∀ (p dst : Nat) (s : State),
    Live s → p < 12 → dst < 12 → fbit (genWrite (frMail p) 0x40 (dst + 256) s) (frMail p) 0x048 0 = false → fld (genWrite (frMail p) 0x40 (dst + 256) s) (frMail p) 0x040 0 4 = dst →
    exec (.send p dst) s =
      .next (after (mbxSend p dst (genWrite (frMail p) 0x40 (dst + 256) s)))) ∧
  (∀ (p : Nat) (m : Mbx) (rest : List Mbx) (t s : State),
    Live s → p < 12 → mbxOf s p = m :: rest → t = (if rest.isEmpty then { s with mbx := mset s.mbx p rest } else queueMsi p (frMail p) 0x0D0 false { s with mbx := mset s.mbx p rest }) → t.mbxSys.find? (fun e => e.1 = p) = none →
    exec (.mbxRxpop p) s =
      .next (after (t))) ∧
  (∀ (p : Nat) (v : Word) (s : State),
    Live s → p < 12 →
    exec (.mbxRxirqWrite p v) s =
      .next (after (queueIrqWrite p (frMail p) 0x0D0 v.toNat [] s))) ∧
  (∀ (s : State),
    Live s → drained s = false →
    exec .epochDrainTimeout s =
      .next (after (coxRec 0x0A 1 s))) ∧
  (∀ (pr : Proc) (s : State),
    Live s → s.cox.cur = some pr → pr.op = 0x06 → pr.step = 1 →
    exec .lifecycleStepTimeout s =
      .next (after (coxGo (mgrStep { pr with bad := true } s))))

/-- The Cox reads a latched record and clears VALID (R508, R509, R515), a partition takes a record from its queue and sets its interrupt (R520), the alert and the count of `FLT_PKG` are written (R523), the rate window ends (R515), an incident closes once nothing is latched 10 ms after it opened (R517), and injections are armed and met (R525, R526). -/
def Obligations.FaultCommandsAct : Prop :=
  (∀ (frame : Nat) (s : State),
    Live s → coxUp s = true → hasErrBank (frameKind frame).1 = true → fbit s frame 0x500 0 = true → recClass (bankRec s frame) ≠ 0 →
    exec (.faultRecordService frame) s =
      .next (after (recordAct (bankRec s frame) (recordPut (bankRec s frame) (clrBit frame 0x500 0 (ceWindow s)))))) ∧
  (∀ (s : State),
    Live s → incOpen s = true → s.flt.openAt + 10000000 < s.tb → bankFrames.any (fun f => fbit s f 0x500 0) = false →
    exec .incidentClose s =
      .next (after (incClose s))) ∧
  (∀ (s : State),
    Live s →
    exec .ceRateWindow s =
      .next (after (ceWindow s))) ∧
  (∀ (p : Nat) (r : FltRec) (rest : List FltRec) (s : State),
    Live s → p < 12 → fltQueue s p = r :: rest →
    exec (.fltPpop p) s =
      .next (after ((if rest.isEmpty then updFlt (fun x => { x with queue := mset x.queue p rest }) s else pfltMsi p (updFlt (fun x => { x with queue := mset x.queue p rest }) s))))) ∧
  (∀ (p : Nat) (v : Word) (s : State),
    Live s → p < 12 →
    exec (.fltPirqWrite p v) s =
      .next (after (queueIrqWrite p (frPflt p) 0x050 v.toNat [61, 62] s))) ∧
  (∀ (v : Word) (part : Nat) (s : State),
    Live s → (part = 15 ∨ part = 16 ∧ s.bmcMgr = true) → bit v.toNat 1 = true →
    exec (.fltPkgWrite v part) s =
      .next (after (setFld frFlt 0 16 32 (bits v.toNat 16 32) (clrBit frFlt 0 1 s)))) ∧
  (∀ (frame : Nat) (v : Word) (s : State),
    Live s → frame < 4096 → hasErrBank (frameKind frame).1 = true → fbit s frFlt 8 0 = true → injRefused frame v.toNat = false →
    exec (.errInjWrite frame v 15) s =
      .next (after ({ setReg frame 0x530 (BitVec.ofNat 64 (bits v.toNat 0 7 + bits v.toNat 8 10 * 256 + bits v.toNat 32 16 * 2 ^ 32)) s with
      flt := { s.flt with injAt := mset s.flt.injAt frame (if bit v.toNat 16 then s.tb else 0) } }))) ∧
  (∀ (frame line : Nat) (s : State),
    Live s → ((frameKind frame).1 = 0x10 ∨ (frameKind frame).1 = 0x31 ∨ (frameKind frame).1 = 0x07 ∨ (frameKind frame).1 = 0x04) →
    exec (.injectionFire frame (.write line)) s =
      .next (after (injHit frame line s))) ∧
  (∀ (frame off : Nat) (v : Word) (part : Nat) (s : State),
    Live s → part = 15 → frame < 4096 → off < 65536 → off % 8 = 0 → ((frameKind frame).1 ≠ 0x40 ∧ (frameKind frame).1 ≠ 0x41) →
    exec (.registerWrite frame off v part) s =
      .next (after (regWrite 15 frame off v.toNat s)))

/-- A port that takes a request translates it and makes its flits: writes line by line and interrupts (R338, R340), reads, reads of no bytes (R340), AtomicOps (R339), the messages of a CXL.cache device (R344, Table 10.6), translation and page requests (R346). -/
def Obligations.PortRequestsAct : Prop :=
  (∀ (q : Tlp) (pa : Nat) (v w s : State),
    Live s → q.rp < 12 → w = k3Wake s → rpGate w q.rp q.link (inProxy q.addr) = some none → tlpXl w q = some pa → rpAllMain q.rp (rpPart w q.rp) pa q.data.length w = (true, v) → q.data.length ≠ 0 → q.poison = false →
    exec (.dmaWrite q) s =
      .next (after (tlpAdd q.rp q.link q.tag true ((tlpParts pa q.data.length).map (fun e =>
      { kind := if e.2.1 = 64 then .wfull else .wpart, pa := e.1, size := e.2.1, at_ := e.2.2, mask := (partLine e.1 e.2.1 e.2.2 q.data).1,
        data := (partLine e.1 e.2.1 e.2.2 q.data).2, poison := false, relaxed := q.relaxed })) v))) ∧
  (∀ (q : Tlp) (pa h j : Nat) (v w s : State),
    Live s → q.rp < 12 → w = k3Wake s → rpGate w q.rp q.link (inProxy q.addr) = some none → tlpXl w q = some pa → rpAllMain q.rp (rpPart w q.rp) pa q.data.length w = (false, v) → q.data.length = 4 → imOf pa = some (h, j) → pa % 4 = 0 → hartPart w h = rpPart w q.rp →
    exec (.msi q) s =
      .next (after (tlpAdd q.rp q.link q.tag true [{ kind := .msi, pa := pa, size := 4, data := BitVec.ofNat 512 (leNat q.data * 256 ^ (pa % 64)), relaxed := q.relaxed, dst := h / 144 }] v))) ∧
  (∀ (q : Tlp) (pa : Nat) (v w s : State),
    Live s → q.rp < 12 → w = k3Wake s → rpGate w q.rp q.link (inProxy q.addr) = some none → npRoom w q.rp = true → q.len ≠ 0 → tlpXl w q = some pa → rpAllMain q.rp (rpPart w q.rp) pa q.len w = (true, v) → q.len ≤ 4096 →
    exec (.dmaRead q) s =
      .next (after (tlpAdd q.rp q.link q.tag false ((tlpParts pa q.len).map (fun e => { kind := .read, pa := e.1, size := e.2.1, at_ := e.2.2, relaxed := q.relaxed })) v))) ∧
  (∀ (q : Tlp) (w s : State),
    Live s → q.rp < 12 → w = k3Wake s → rpGate w q.rp q.link (inProxy q.addr) = some none → npRoom w q.rp = true →
    exec (.zeroLengthRead q) s =
      .next (after (tlpAdd q.rp q.link q.tag false [{ kind := .zlr }] w))) ∧
  (∀ (q : Tlp) (op : AtomOp) (opnd cmp : BitVec 128) (pa : Nat) (v w s : State),
    Live s → q.rp < 12 → w = k3Wake s → rpGate w q.rp q.link (inProxy q.addr) = some none → npRoom w q.rp = true → tlpXl w q = some pa → rpMain q.rp (rpPart w q.rp) pa w = (true, v) → (q.len = 4 ∨ q.len = 8 ∨ op = .cas ∧ q.len = 16) → pa % q.len = 0 →
    exec (.atomicop q op opnd cmp) s =
      .next (after (tlpAdd q.rp q.link q.tag false [{ kind := .atom, pa := pa, size := q.len, op := op, opnd := opnd.toNat, cmp := cmp.toNat, relaxed := q.relaxed }] v))) ∧
  (∀ (rp pa : Nat) (v w s : State),
    Live s → rp < 12 → w = k3Wake s → (rpLink (Machine.rp w rp) 0).cxl = true → rpGate w rp 0 false = some none → rpMain rp (rpPart w rp) pa w = (true, v) →
    exec (.cxlRdcurr rp pa) s =
      .next (after (rpRun rp (updRp rp (fun y => { y with cxlReq := y.cxlReq ++ [{ op := 0, pa := 64 * lineOf pa, data := 0, poison := false }] }) v)))) ∧
  (∀ (rp pa : Nat) (v w s : State),
    Live s → rp < 12 → w = k3Wake s → (rpLink (Machine.rp w rp) 0).cxl = true → rpGate w rp 0 false = some none → rpMain rp (rpPart w rp) pa w = (true, v) →
    exec (.cxlRdshared rp pa) s =
      .next (after (rpRun rp (updRp rp (fun y => { y with cxlReq := y.cxlReq ++ [{ op := 1, pa := 64 * lineOf pa, data := 0, poison := false }] }) v)))) ∧
  (∀ (rp pa : Nat) (v w s : State),
    Live s → rp < 12 → w = k3Wake s → (rpLink (Machine.rp w rp) 0).cxl = true → rpGate w rp 0 false = some none → rpMain rp (rpPart w rp) pa w = (true, v) →
    exec (.cxlRdown rp pa) s =
      .next (after (rpRun rp (updRp rp (fun y => { y with cxlReq := y.cxlReq ++ [{ op := 2, pa := 64 * lineOf pa, data := 0, poison := false }] }) v)))) ∧
  (∀ (rp pa : Nat) (v w s : State),
    Live s → rp < 12 → w = k3Wake s → (rpLink (Machine.rp w rp) 0).cxl = true → rpGate w rp 0 false = some none → rpMain rp (rpPart w rp) pa w = (true, v) →
    exec (.cxlRdownnodata rp pa) s =
      .next (after (rpRun rp (updRp rp (fun y => { y with cxlReq := y.cxlReq ++ [{ op := 3, pa := 64 * lineOf pa, data := 0, poison := false }] }) v)))) ∧
  (∀ (rp pa : Nat) (x : Line) (poison : Bool) (v w s : State),
    Live s → rp < 12 → w = k3Wake s → (rpLink (Machine.rp w rp) 0).cxl = true → rpGate w rp 0 false = some none → rpMain rp (rpPart w rp) pa w = (true, v) →
    exec (.cxlItomwr rp pa x poison) s =
      .next (after (rpRun rp (updRp rp (fun y => { y with cxlReq := y.cxlReq ++ [{ op := 4, pa := 64 * lineOf pa, data := x, poison := poison }] }) v)))) ∧
  (∀ (rp pa : Nat) (x : Line) (poison : Bool) (v w s : State),
    Live s → rp < 12 → w = k3Wake s → (rpLink (Machine.rp w rp) 0).cxl = true → rpGate w rp 0 false = some none → rpMain rp (rpPart w rp) pa w = (true, v) →
    exec (.cxlDirtyevict rp pa x poison) s =
      .next (after (rpRun rp (updRp rp (fun y => { y with cxlReq := y.cxlReq ++ [{ op := 5, pa := 64 * lineOf pa, data := x, poison := poison }] }) v)))) ∧
  (∀ (rp pa : Nat) (v w s : State),
    Live s → rp < 12 → w = k3Wake s → (rpLink (Machine.rp w rp) 0).cxl = true → rpGate w rp 0 false = some none → rpMain rp (rpPart w rp) pa w = (true, v) →
    exec (.cxlCleanevict rp pa) s =
      .next (after (rpRun rp (updRp rp (fun y => { y with cxlReq := y.cxlReq ++ [{ op := 6, pa := 64 * lineOf pa, data := 0, poison := false }] }) v)))) ∧
  (∀ (rp rid iova : Nat) (xl : Option Nat) (w s : State),
    Live s → rp < 12 → w = k3Wake s → rpGate w rp 0 false = some none → 2 ≤ ioMode w rp →
    exec (.atsTranslationRequest rp rid iova xl) s =
      .next (after (devSend rp (.ats rid iova xl) w))) ∧
  (∀ (rp rid iova grp : Nat) (w s : State),
    Live s → rp < 12 → w = k3Wake s → rpGate w rp 0 false = some none →
    exec (.pageRequestMessage rp rid iova grp) s =
      .next (after (ioQueue rp false (leBytes 16 (rid * 2 ^ 40 + (4 + grp % 512 * 8 + iova / 4096 * 4096) * 2 ^ 64)) w)))

/-- A completion ends the outbound request that waits for it, and its timeout fails it (R336); the CXL device answers a snoop and a memory access, or does not (R342, R344, R345); a link trains, is lost without warning (R353), and its slot is controlled and watched (R351). -/
def Obligations.PortAnswersAndLinksAct : Prop :=
  (∀ (rp tag : Nat) (ok : Bool) (x : Word) (o : OutReq) (w s : State),
    Live s → rp < 12 → w = k3Wake s → (Machine.rp w rp).out.find? (fun o => o.tag = tag) = some o →
    exec (.completionTlp rp tag ok x) s =
      .next (after (outNext rp (ioAnswer o.f (!ok) x.toNat (updRp rp (fun y => { y with out := y.out.filter (fun z => z.tag ≠ tag) }) w))))) ∧
  (∀ (rp tag : Nat) (o : OutReq) (w s : State),
    Live s → rp < 12 → w = k3Wake s → (Machine.rp w rp).out.find? (fun o => o.tag = tag) = some o →
    exec (.cplTimeout rp tag) s =
      .next (after (outNext rp (outFail rp 0x04 true o.f (updRp rp (fun y => { y with out := y.out.filter (fun z => z.tag ≠ tag) }) w))))) ∧
  (∀ (rp pa : Nat) (dirty : Bool) (v : Line) (poison : Bool) (w s : State),
    Live s → rp < 12 → w = k3Wake s → ((Machine.rp w rp).csnp.any (fun f => lineOf f.addr = lineOf pa) = true ∨ (Machine.rp w rp).recl.contains (lineOf pa) = true) →
    exec (.cxlSnoopAnswer rp pa dirty v poison) s =
      .next (after (cxlAnswer rp pa dirty v poison w))) ∧
  (∀ (rp pa : Nat) (f : Flit) (w s : State),
    Live s → rp < 12 → w = k3Wake s → (Machine.rp w rp).csnp.find? (fun f => lineOf f.addr = lineOf pa) = some f →
    exec (.cxlSnoopTimeout rp pa) s =
      .next (after (linkDown rp 0 (send { rsp oSnpRsp (rpAgent rp) f.src f.txn f with st := .i, wb := true } (snpData (rpAgent rp) f 0 true 0
      (updRp rp (fun y => { y with csnp := y.csnp.erase f, cxl := y.cxl.erase (lineOf pa), recl := y.recl.erase (lineOf pa) })
        (logErr (rpErr w rp 0x07 true (some pa)) w))))))) ∧
  (∀ (rp pa : Nat) (v : Line) (poison : Bool) (q : MemReq) (w s : State),
    Live s → rp < 12 → w = k3Wake s → cxlPort w pa = some rp → memFirst w pa (fun q => q.wr) = some q → ((rpLink (Machine.rp w rp) 0).dpc = false ∧ (rpLink (Machine.rp w rp) 0).dlup = true ∧ hdmCovers w rp pa = true) → q.wr = true →
    exec (.cxlMemAnswer rp pa true v poison) s =
      .next (after (memWriteDone q w))) ∧
  (∀ (rp pa : Nat) (v : Line) (q : MemReq) (w s : State),
    Live s → rp < 12 → w = k3Wake s → cxlPort w pa = some rp → memFirst w pa (fun q => !q.wr) = some q → ((rpLink (Machine.rp w rp) 0).dpc = false ∧ (rpLink (Machine.rp w rp) 0).dlup = true ∧ hdmCovers w rp pa = true) → q.wr = false →
    exec (.cxlMemAnswer rp pa false v false) s =
      .next (after (memReadDone q v false w))) ∧
  (∀ (rp pa : Nat) (q : MemReq) (w s : State),
    Live s → rp < 12 → w = k3Wake s → cxlPort w pa = some rp → memFirst w pa (fun _ => true) = some q → q.wr = false →
    exec (.cxlMemTimeout rp pa) s =
      .next (after (memReadDone q 0 true (logErr { rpErr w rp 0x07 true (some pa) with part := linePart w pa } w)))) ∧
  (∀ (rp link : Nat) (w s : State),
    Live s → rp < 12 → w = k3Wake s → (rpLink (Machine.rp w rp) link).dlup = true →
    exec (.linkDownDpc rp link) s =
      .next (after (linkDown rp link w))) ∧
  (∀ (rp link speed width : Nat) (cxl : Bool) (w s : State),
    Live s → rp < 12 → w = k3Wake s → linkLanes w rp link ≠ 0 → speed ≠ 0 → width ≠ 0 →
    exec (.pcieLinkUp rp link speed width cxl) s =
      .next (after (slotEvent rp link 8 12 (updRpLink rp link (fun x => { x with speed := min speed (fld w (frRp rp) 0 8 3), width := min width (linkLanes w rp link), dlup := true, present := true, dpc := false, cxl := cxl && decide (link = 0) && decide (4 ≤ min width (linkLanes w rp link)) }) w)))) ∧
  (∀ (rp link : Nat) (v : Word) (w s : State),
    Live s → rp < 12 → w = k3Wake s → linkLanes w rp link ≠ 0 → rpPair w rp = false →
    exec (.slotControlWrite rp link v) s =
      .next (after (devSend rp (.slot link (v.toNat % 0x2000)) (updRp rp (fun x => { x with cfg := mset x.cfg (4096 * link + 0x88) (v.toNat % 0x2000) }) w)))) ∧
  (∀ (rp link : Nat) (w s : State),
    Live s → rp < 12 → w = k3Wake s → linkLanes w rp link ≠ 0 → bit (rpLink (Machine.rp w rp) link).pins 0 = false →
    exec (.slotPinChange rp link 0 true) s =
      .next (after (slotEvent rp link 0 0 (updRpLink rp link (fun x => { x with pins := putBit x.pins 0 true }) w))))

/-- A hart's claim of an identity of its interrupt file joins its instructions (R349), a wired source reaches the APLIC of its partition, a GPIO input reaches its partition's APLIC or the Cox (R562), the BMC reads and writes its window (R356), and the test port captures the data register of its instruction (R567, R568). -/
def Obligations.InterruptAndPortPinsAct : Prop :=
  (∀ (h file sel : Nat) (wr : Bool) (v : Word) (s : State),
    Live s → running s h = true → file < 9 →
    exec (.imsicClaim h file sel wr v) s =
      .next (after (joined h (.imsicClaim h file sel wr v) s))) ∧
  (∀ (p src : Nat) (level : Bool) (a a1 : Aplic) (d : Bool) (s : State),
    Live s → p < 12 → src < 256 → aplSrcOwned s p src = true → a = aplic s p → d = aplDelegated a src → a1 = { a with wire := putBit a.wire src level } → aplInput a1 d src = true → aplInput a d src = false →
    exec (.aplicSource p src level) s =
      .next (after (aplRun p d (updAplic p (fun _ => aplPut a1 d { aplDom a1 d with pend := putBit (aplDom a1 d).pend src true }) s)))) ∧
  (∀ (pin : Nat) (level : Bool) (w s : State),
    Live s → pin < 32 → w = k3Wake s → 12 ≤ bits w.gpioOwn (4 * pin) 4 →
    exec (.gpioInput pin level) s =
      .next (after ({ w with gpioIn := putBit w.gpioIn pin level, gpioRep := w.gpioRep ++ [(pin, level)] }))) ∧
  (∀ (pin p : Nat) (level : Bool) (w s : State),
    Live s → pin < 32 → w = k3Wake s → p = bits w.gpioOwn (4 * pin) 4 → p < 12 →
    exec (.gpioInput pin level) s =
      .next (after (aplWire p (193 + pin) level { w with gpioIn := putBit w.gpioIn pin level }))) ∧
  (∀ (off : Nat) (v : Word) (s : State),
    Live s → off % 8 = 0 → off < 0x100000 →
    exec (.mgtBar0Access false off v) s =
      .next (after (updCard (fun c => { c with bmcAns := some (BitVec.ofNat 64 (bar0Read (k3Wake s) off)) }) (k3Wake s)))) ∧
  (∀ (off : Nat) (v : Word) (s : State),
    Live s → off % 8 = 0 → off < 0x100000 →
    exec (.mgtBar0Access true off v) s =
      .next (after (bar0Write off v.toNat (k3Wake s)))) ∧
  (∀ (hart : Nat) (s : State),
    Live s →
    exec (.tapInstruction .idcode hart) s =
      .next (after (updCard (fun c => { c with tapIr := .idcode, tapBy := (List.range 12).filter (fun d => linkSt s d false = lOFF ∨ linkSt s d false = lHOLD), tapDr := 0x20576E53 }) s)))

/-- The owner of a virtual function rings its doorbells (R366), enables its controller and resets it (R367, Table 11.7); the BQE admits the entry at the head of the queue whose turn it is (R385 to R388, R394). Time and events reach it: PS1 (R394), coalesced interrupts (R369), a function-level reset (R392), and the accesses and losses of the drives (R395, R406). -/
def Obligations.ControllerCommandsAct : Prop :=
  (∀ (part v y n : Nat) (q : Sq) (s : State),
    Live s → vfIs s v = true → (vf s v).owner = part → mfind (vf s v).sqs y = some q → n < q.size →
    exec (.sqTailDoorbell part v y n) s =
      .next (after (updVf v (fun x => { x with sqs := mins x.sqs y { q with tail := n } }) s))) ∧
  (∀ (part v y n : Nat) (q : Cq) (s : State),
    Live s → vfIs s v = true → (vf s v).owner = part → mfind (vf s v).cqs y = some q → n < q.size →
    exec (.cqHeadDoorbell part v y n) s =
      .next (after (bhSettle (cqRun ((mget (vf s v).cpls y).length + 1) v y (updVf v (fun x => { x with cqs := mins x.cqs y { q with head := n } }) s))))) ∧
  (∀ (part v : Nat) (cc : BitVec 32) (acq : Option Nat) (s : State),
    Live s → vfIs s v = true → (vf s v).owner = part → bit (vf s v).cc 0 = false → (vf s v).resetting = false → ccBad cc.toNat = false →
    exec (.ccEnSet part v cc acq) s =
      .next (after (updVf v (fun x => { x with rdy := true, sqs := mins x.sqs 0 { base := x.asq, size := bits (vf s v).aqa 0 12 + 1 }, cqs := mins x.cqs 0 { base := x.acq, size := bits (vf s v).aqa 16 12 + 1, pages := [acq] } })
      (updVf v (fun x => { x with cc := putBit cc.toNat 0 true, shst := 0 }) s)))) ∧
  (∀ (part v : Nat) (s : State),
    Live s → vfIs s v = true → (vf s v).owner = part → bit (vf s v).cc 0 = true →
    exec (.controllerReset part v) s =
      .next (after (ctrlReset v s))) ∧
  (∀ (v q : Nat) (e : Sqe) (s : State),
    Live s → nextVf s = some v → nextQueue s v = some q → ioMode s (32 + (vf s v).owner) ≠ 0 →
    exec (.bqeAdmission v q e false) s =
      .next (after (bqeAdmit v q e false s))) ∧
  (∀ (v : Nat) (s : State),
    Live s → vfIs s v = true →
    exec (.flr v) s =
      .next (after (flrVf v s))) ∧
  (∀ (v : Nat) (s : State),
    Live s → vfIs s v = true → (vf s v).ps1Entry = true →
    exec (.ps1Entry v) s =
      .next (after (updVf v (fun x => { x with ps1Entry := false, ps1 := !x.wake, ps := if x.wake then 0 else 1, wake := false }) s))) ∧
  (∀ (v : Nat) (s : State),
    Live s →
    exec (.interruptCoalescingTime v) s =
      .next (after ((vf s v).irqs.foldl (fun s e => bhMsi v e.1 (updVf v (fun x => { x with irqs := mset x.irqs e.1 0 }) s)) s))) ∧
  (∀ (r rid page off : Nat) (data : List (BitVec 8)) (s : State),
    Live s → bhPort s r = true → mfind s.bh.binds page = none →
    exec (.proxyAccess r rid page off true data) s =
      .next (after (logErr { bhErr 0x02 1 15 (some (0x00002D0000000000 + 4096 * page + off)) with agent := some (rpAgent r) } s))) ∧
  (∀ (r rid page off key : Nat) (data : List (BitVec 8)) (b : Bind) (s : State),
    Live s → bhPort s r = true → mfind s.bh.binds page = some b → (b.rp = r ∧ b.rid = rid ∧ b.wr = true) → off + data.length ≤ 4096 → b.dest = .map key →
    exec (.proxyAccess r rid page off true data) s =
      .next (after (updBh (fun x => { x with mapIn := mset x.mapIn key (setBits (mget x.mapIn key) (8 * off) (8 * data.length) (leNat data)) }) s))) ∧
  (∀ (drv : Nat) (dv : Drive) (s : State),
    Live s → mfind s.drives drv = some dv → dv.lost = false →
    exec (.driveLost drv) s =
      .next (after (driveLost drv s))) ∧
  (∀ (p : Nat) (maps : List (Nat × Nat × List (BitVec 8))) (s : State),
    Live s →
    exec (.poolRebuildDone p maps) s =
      .next (after (poolRebuilt p maps s))) ∧
  (∀ (s : State),
    Live s → fwAt s 1 = true →
    exec .bhActivationAbandon s =
      .next (after (fwFail (updBh (fun b => { b with pause := false }) s)))) ∧
  (∀ (v : Nat) (pr : Proc) (s : State),
    Live s → s.cox.cur = some pr → pr.op = 0x2B → pr.step = 1 → pr.n = v →
    exec (.vfFreezeTimeout v) s =
      .next (after (mgrEnd rFAILED 0 s)))

/-- An admin command that stands in a virtual function's admin slot with arguments that Table 11.4 allows does its work: queues are created and deleted (R370, R371, Table 11.7), Identify, Get Log Page and the features are answered (R370, R371, R394), a command is aborted, and an event request is answered or kept (R370, R384). -/
def Obligations.AdminCommandsRun : Prop :=
  (∀ (v q : Nat) (x : Slot) (s : State),
    Live s → admin s v 0x00 = some x → q = x.e.cdw10 % 65536 → q ≠ 0 → q ≤ (vf s v).nqp → (mfind (vf s v).sqs q).isNone = false →
    exec (.deleteIoSq v) s =
      .next (after (bhSettle (updSlot (admSlot v) (fun y => { y with ph := .drain }) (updVf v (fun y => { y with sqs := mupd y.sqs q (fun k => { k with head := k.tail }) })
      ((s.bh.slots.filter (fun y => decide (y.vf = v) && decide (y.q = q) && !y.started && !y.drop)).foldl (fun s y => slotPost y.n 0x08 0 s) s)))))) ∧
  (∀ (v q cq : Nat) (x : Slot) (s : State),
    Live s → admin s v 0x01 = some x → q = x.e.cdw10 % 65536 → cq = x.e.cdw11 / 65536 % 65536 → q ≠ 0 → q ≤ (vf s v).nqp → (mfind (vf s v).sqs q).isSome = false → cq ≠ 0 → (mfind (vf s v).cqs cq).isNone = false → (vf s v).sqs.any (fun e => e.1 ≠ 0 && decide (e.2.cq = cq)) = false → x.e.cdw10 / 65536 % 65536 + 1 ≤ 1024 → 2 ≤ x.e.cdw10 / 65536 % 65536 + 1 → bit x.e.cdw11 0 = true → x.e.prp1 % 4096 = 0 →
    exec (.createIoSq v) s =
      .next (after (adminEnd v 0 0 (updVf v (fun y => { y with sqs := mins y.sqs q { base := x.e.prp1, size := x.e.cdw10 / 65536 % 65536 + 1, cq := cq, pages := x.e.pages.map (·.2) } }) s)))) ∧
  (∀ (v q : Nat) (x : Slot) (s : State),
    Live s → admin s v 0x04 = some x → q = x.e.cdw10 % 65536 → q ≠ 0 → q ≤ (vf s v).nqp → (mfind (vf s v).cqs q).isNone = false → (vf s v).sqs.any (fun e => e.1 ≠ 0 && decide (e.2.cq = q)) = false →
    exec (.deleteIoCq v) s =
      .next (after (adminEnd v 0 0 (updVf v (fun y => { y with cqs := mdel y.cqs q, cpls := mdel y.cpls q }) s)))) ∧
  (∀ (v q : Nat) (x : Slot) (s : State),
    Live s → admin s v 0x05 = some x → q = x.e.cdw10 % 65536 → q ≠ 0 → q ≤ (vf s v).nqp → (mfind (vf s v).cqs q).isSome = false → x.e.cdw10 / 65536 % 65536 + 1 ≤ 1024 → 2 ≤ x.e.cdw10 / 65536 % 65536 + 1 → bit x.e.cdw11 0 = true → x.e.cdw11 / 65536 % 65536 ≤ 127 → x.e.prp1 % 4096 = 0 →
    exec (.createIoCq v) s =
      .next (after (adminEnd v 0 0 (updVf v (fun y => { y with cqs := mins y.cqs q { base := x.e.prp1, size := x.e.cdw10 / 65536 % 65536 + 1, ien := bit x.e.cdw11 1, iv := x.e.cdw11 / 65536 % 65536, pages := x.e.pages.map (·.2) } }) s)))) ∧
  (∀ (v : Nat) (x : Slot) (s : State),
    Live s → admin s v 0x02 = some x → 4 * (x.e.cdw10 / 65536 % 65536 + x.e.cdw11 % 65536 * 65536 + 1) ≤ 2 ^ 21 → x.e.cdw12 % 2 ^ 32 % 4 = 0 → x.e.cdw10 % 256 = 1 →
    exec (.getLogPage v) s =
      .next (after (adminData v (4 * (x.e.cdw10 / 65536 % 65536 + x.e.cdw11 % 65536 * 65536 + 1))
      (atBytes ((vf s v).errs.zipIdx.map (fun e => (64 * e.2, errBytes e.1))) / 256 ^ (x.e.cdw12 % 2 ^ 32)) s))) ∧
  (∀ (v : Nat) (x : Slot) (s : State),
    Live s → admin s v 0x06 = some x → x.e.cdw10 % 256 = 0 → x.e.nsid ≠ 0 → x.e.nsid ≤ 2048 → (vf s v).ns.contains x.e.nsid = true →
    exec (.identify v) s =
      .next (after (adminData v 4096 (idNs s x.e.nsid) s))) ∧
  (∀ (v : Nat) (x : Slot) (q : Nat × State) (s : State),
    Live s → admin s v 0x06 = some x → x.e.cdw10 % 256 = 1 → q = drawNat s →
    exec (.identify v) s =
      .next (after (adminData v 4096 (idCtrl v q.1) q.2))) ∧
  (∀ (v : Nat) (x y : Slot) (s : State),
    Live s → admin s v 0x08 = some x → s.bh.slots.find? (fun y => decide (y.vf = v) && decide (y.q = x.e.cdw10 % 65536) && decide (y.e.cid = x.e.cdw10 / 65536 % 65536) && !y.started && !y.drop && y.ph ≠ .post) = some y →
    exec (.abort v) s =
      .next (after (adminEnd v 0 0 (slotPost y.n 0x07 0 s)))) ∧
  (∀ (v : Nat) (x : Slot) (s : State),
    Live s → admin s v 0x09 = some x → bit x.e.cdw10 31 = false → x.e.cdw10 % 256 = 1 →
    exec (.setFeatures v) s =
      .next (after (adminEnd v 0 0 (updVf v (fun y => { y with arb := x.e.cdw11 % 2 ^ 32 }) s)))) ∧
  (∀ (v : Nat) (x : Slot) (s : State),
    Live s → admin s v 0x0A = some x → [0x01, 0x02, 0x07, 0x08, 0x0B].contains (x.e.cdw10 % 256) = true → x.e.cdw10 / 256 % 8 = 0 →
    exec (.getFeatures v) s =
      .next (after (adminEnd v 0 (featVal (vf s v) (x.e.cdw10 % 256) x.e.cdw11) s))) ∧
  (∀ (v c : Nat) (l : List Nat) (s : State),
    Live s → (vf s v).aerIn = c :: l → (vf s v).aers.length < 4 → (vf s v).events = [] →
    exec (.asynchronousEventRequest v) s =
      .next (after (updVf v (fun x => { x with aers := x.aers ++ [c] }) (updVf v (fun x => { x with aerIn := l }) s))))

/-- An I/O command that begins with arguments that pass the checks reads the map blocks it lacks and goes on (R376 to R381, R390, Table 11.6); an opcode that is not of Table 11.4 fails (R370). Locks are granted (R389), drives answer in time or not (R393, R406), and map blocks are committed (Table 11.6). -/
def Obligations.BlockCommandsRun : Prop :=
  (∀ (n : Nat) (x : Slot) (s : State),
    Live s → atStart s n false 0 = some x → (x.e.nsid = 0xFFFFFFFF ∨ (vf s x.vf).ns.contains x.e.nsid = true) → s.bh.unready.contains x.e.nsid = false →
    exec (.flush n) s =
      .next (after (bhSettle (updSlot n (fun x => { x with ph := .flush }) s)))) ∧
  (∀ (n : Nat) (x : Slot) (s : State),
    Live s → atStart s n false 1 = some x → rwError s x = 0 → (spansOf x.e.nsid (byteBlocks (slotBytes s x))).any (fun k => s.bh.lostSp.contains k) = false →
    exec (.write n) s =
      .next (after (bhSettle (slotMaps n s)))) ∧
  (∀ (n : Nat) (x : Slot) (s : State),
    Live s → atStart s n false 2 = some x → rwError s x = 0 → (spansOf x.e.nsid (byteBlocks (slotBytes s x))).any (fun k => s.bh.lostSp.contains k) = false →
    exec (.read n) s =
      .next (after (bhSettle (slotMaps n s)))) ∧
  (∀ (n : Nat) (x : Slot) (s : State),
    Live s → atStart s n false 5 = some x → rwError s x = 0 → (spansOf x.e.nsid (byteBlocks (slotBytes s x))).any (fun k => s.bh.lostSp.contains k) = false →
    exec (.compare n) s =
      .next (after (bhSettle (slotMaps n s)))) ∧
  (∀ (n : Nat) (x : Slot) (s : State),
    Live s → atStart s n false 8 = some x → rwError s x = 0 → (spansOf x.e.nsid (byteBlocks (slotBytes s x))).any (fun k => s.bh.lostSp.contains k) = false →
    exec (.writeZeroes n) s =
      .next (after (bhSettle (slotMaps n s)))) ∧
  (∀ (n : Nat) (x : Slot) (s : State),
    Live s → atStart s n false 9 = some x → rwError s x = 0 → (spansOf x.e.nsid (byteBlocks (slotBytes s x))).any (fun k => s.bh.lostSp.contains k) = false → bit x.e.cdw11 2 = true → (bhXl s (vf s x.vf).owner (x.e.pages.headD (0, none)).1 (x.e.pages.headD (0, none)).2).isSome = true →
    exec (.datasetManagement n) s =
      .next (after (bhSettle (slotMaps n s)))) ∧
  (∀ (v n : Nat) (x : Slot) (s : State),
    Live s → slot s n = some x → x.vf = v → x.started = true → x.ph = .start → x.q ≠ 0 → [0x00, 0x01, 0x02, 0x05, 0x08, 0x09].contains x.e.op = false →
    exec (.nvmeInvalidOpcode v n) s =
      .next (after (slotStop n 0x01 s))) ∧
  (∀ (n : Nat) (x : Slot) (s : State),
    Live s → slot s n = some x → x.started = false → lockFree s x = true →
    exec (.rangeLockGrant n) s =
      .next (after (bhSettle (updSlot n (fun x => { x with started := true }) s)))) ∧
  (∀ (n : Nat) (x : Slot) (c : Bcmd) (l : List Bcmd) (s : State),
    Live s → slot s n = some x → x.bcs = c :: l → c.map = none →
    exec (.backingCompletion n true) s =
      .next (after (bhSettle (slotRun n (unbind c.pages (updSlot n (fun x => { x with bcs := l }) s)))))) ∧
  (∀ (n : Nat) (x : Slot) (c : Bcmd) (l : List Bcmd) (s : State),
    Live s → slot s n = some x → x.bcs = c :: l → c.map = none →
    exec (.backingTimeout n) s =
      .next (after (bhSettle (slotRun n (slotStatus n 0xFFFF (unbind c.pages (updSlot n (fun x => { x with bcs := l }) s))))))) ∧
  (∀ (nsid span : Nat) (ok : Bool) (s : State),
    Live s → (mget s.bh.commits (spanKey nsid span)).run.isEmpty = false →
    exec (.mapCommitComplete nsid span ok) s =
      .next (after (commitDone (spanKey nsid span) ok s)))

/-- The Cox sends and takes HELLO (R411, R412); a shadow keeps the frames of its partition (R413, R417, R424) and commits at the ends of an epoch (R421, R433); a commit reaches the active package (R423, R425); epochs close (R421, R422) and checkpoints are taken; a FATAL, HANDOVER or TAKEN frame moves a protected partition (R428, R430); the logs fill and drain, and the links of the pair go and return (R408, R426). -/
def Obligations.PairFramesAct : Prop :=
  (∀ (q : Nat × State) (s : State),
    Live s → s.pair.helloOn = true → pairUp s = true → q = drawNat s → ucp s = false →
    exec .pairHelloSend s =
      .next (after (pairNow { ty := 1, part := 15, stream := 32, arg := Config.factory frIof 0, data := (List.range 64).map (fun i => BitVec.ofNat 8 (q.1 / 256 ^ i)) }
      { q.2 with pair := { q.2.pair with hellos := q.2.pair.hellos + 1 } }))) ∧
  (∀ (pairId : Word) (descs mine : List PairDesc) (s u : State),
    Live s → s.pair.helloOn = true → pairUp s = true → pairId = s.pair.id → mine = (myProt s).map (myDesc s) → mine.all (fun d => descs.contains d) = true → descs.all (fun d => mine.contains d) = true → u = { s with pair := { s.pair with helloOn := false } } → ucp s = false →
    exec (.pairHello pairId descs) s =
      .next (after ((myProt u).foldl (fun s p => setReg (frPpair p) 0x008 1 (updPairP p (fun x => { x with matched := true, epoch := 1 }) s)) (setFld frPair 0x008 2 1 1 u)))) ∧
  (∀ (f : PairFrame) (s : State),
    Live s → f.ty = 2 → f.part < 12 → shadowTakes s f.part = true → ucp s = false →
    exec (.mirror f) s =
      .next (after ({ s with pair := { s.pair with recv := s.pair.recv ++ [f] } }))) ∧
  (∀ (f : PairFrame) (s : State),
    Live s → f.ty = 4 → f.part < 12 → shadowTakes s f.part = true → ucp s = false →
    exec (.hartFrame f) s =
      .next (after ({ s with pair := { s.pair with recv := s.pair.recv ++ [f] } }))) ∧
  (∀ (f : PairFrame) (s : State),
    Live s → f.ty = 5 → f.part < 12 → shadowTakes s f.part = true → ucp s = false →
    exec (.ctrlFrame f) s =
      .next (after ({ s with pair := { s.pair with recv := s.pair.recv ++ [f] } }))) ∧
  (∀ (f : PairFrame) (s : State),
    Live s → f.ty = 6 → f.part < 12 → shadowTakes s f.part = true → ucp s = false →
    exec (.bqeFrame f) s =
      .next (after ({ s with pair := { s.pair with recv := s.pair.recv ++ [f] } }))) ∧
  (∀ (f : PairFrame) (s : State),
    Live s → f.ty = 3 → f.part < 12 → pairSt s f.part = .syncShadow → (pairP s f.part).take = 0 → ucp s = false →
    exec (.bulk f) s =
      .next (after (recvPut f (updPairP f.part (fun x => { x with bulkGot := x.bulkGot + 1 }) s)))) ∧
  (∀ (f : PairFrame) (s : State),
    Live s → f.ty = 7 → shadowTakes s f.part = true → s.bh.blkIn = none → ucp s = false →
    exec (.blkFrame f) s =
      .next (after (updBh (fun b => { b with blkIn := some (f.part, f.epoch, bits f.arg.toNat 0 12, bits f.arg.toNat 12 52 * nsBs (nsOf s (bits f.arg.toNat 0 12)), f.data.length, leNat f.data) }) s))) ∧
  (∀ (f : PairFrame) (s : State),
    Live s → f.ty = 8 → f.part < 12 → shadowTakes s f.part = true → f.stream < 32 → ucp s = false →
    exec (.epochEnd f) s =
      .next (after (tryCommit f.part (updPairP f.part (fun x => { x with ended := (f.epoch, f.stream) :: x.ended }) s)))) ∧
  (∀ (f : PairFrame) (s : State),
    Live s → f.ty = 9 → f.part < 12 → mirrored s f.part = true → pairCommit s f.part < f.epoch → ucp s = false →
    exec (.commit f) s =
      .next (after (commitTake f s))) ∧
  (∀ (f : PairFrame) (s : State),
    Live s → f.ty = 10 → ucp s = false →
    exec (.fatal f) s =
      .next (after (fatalTake f s))) ∧
  (∀ (f : PairFrame) (s : State),
    Live s → f.ty = 11 → f.part < 12 → pairSt s f.part = .shadow → (pairP s f.part).take = 0 → ucp s = false →
    exec (.handover f) s =
      .next (after (takeStart f.part s))) ∧
  (∀ (f : PairFrame) (s : State),
    Live s → f.ty = 12 → (pairSt s f.part = .active ∨ pairSt s f.part = .held) → ucp s = false →
    exec (.taken f) s =
      .next (after (teardownStart f.part (setPairSt f.part .gone (pairDrop f.part s))))) ∧
  (∀ (f : PairFrame) (s : State),
    Live s → (f.ty = 0 ∨ 12 < f.ty) → ucp s = false →
    exec (.pairFrameReserved f) s =
      .next (after (coxErr 1 15 false s))) ∧
  (∀ (p : Nat) (ts : List Nat) (s : State),
    Live s → mirrored s p = true → (pairP s p).close = 0 → ts = ckptTargets s p → ucp s = false →
    exec (.epochClose p) s =
      .next (after (ts.foldl (fun s t => coxCommand (ckptFlit t) s) (updPairP p (fun x => { x with close := 1, told := ts, todo := ts }) s)))) ∧
  (∀ (p target : Nat) (s : State),
    Live s → (pairP s p).told.contains target = true → (16 ≤ target ∧ target < 32) → ucp s = false →
    exec (.ckpt p target) s =
      .next (after (updPairP p (fun x => { x with close := 2, told := x.told.erase target }) (take (ckptFlit target) s)))) ∧
  (∀ (p target : Nat) (s : State),
    Live s → (pairP s p).told.contains target = true → target < 16 → ucp s = false →
    exec (.ckpt p target) s =
      .next (after ((List.range 48).foldl (fun s c => hartRun (48 * target + c)
        (if (hart s (48 * target + c)).st = .run ∨ (hart s (48 * target + c)).st = .wrs then updHart (48 * target + c) (fun x => { x with st := .stopped, drain := true }) s else s))
      (updPairP p (fun x => { x with close := 2, told := x.told.erase target }) (cmdAnswer target (ckptFlit target) (take (ckptFlit target) s)))))) ∧
  (∀ (p : Nat) (s : State),
    Live s → (pairP s p).close ≠ 0 → ucp s = false →
    exec (.epochCloseTimeout p) s =
      .next (after (coxErr 2 p true s))) ∧
  (∀ (s : State),
    Live s → ucp s = false →
    exec .sendLogFull s =
      .next (after (((List.range 12).filter (fun p => mirrored s p)).foldl (fun s p => closeStart p s) { s with pair := { s.pair with full := true } }))) ∧
  (∀ (s : State),
    Live s → ucp s = false →
    exec .sendLogDrained s =
      .next (after ((List.range 12).foldl (fun s p => if (pairP s p).switching then s else writersGo p s) { s with pair := { s.pair with full := false } }))) ∧
  (∀ (s : State),
    Live s →
    exec .pairLinkLoss s =
      .next (after ((List.range 12).foldl (fun s p => if pairSt s p = .active then setPairSt p .held s else s) (setFld frPair 0x008 0 2 0 { s with pair := { s.pair with lost := true } })))) ∧
  (∀ (s : State),
    Live s → (fbit s (frRp 10) 0 3 = true ∨ fbit s (frRp 11) 0 3 = true) →
    exec .pairLinkReturn s =
      .next (after (setFld frPair 0x008 0 2 3 { s with pair := { s.pair with lost := false, send := s.pair.sent ++ s.pair.send, sent := [] } }))) ∧
  (∀ (n : Nat) (s : State),
    Live s → n < 2 →
    exec (.crosslinkLoss n) s =
      .next (after (setFld frPair 0x008 n 1 0 s))) ∧
  (∀ (s : State),
    Live s → fbit s frPair 0 8 = true → s.pair.lost = true → ucp s = false →
    exec .autotakeTimeout s =
      .next (after ((List.range 12).foldl (fun s p => takeStart p s) s))) ∧
  (∀ (p : Nat) (s : State),
    Live s → (pairP s p).take ≠ 0 → ucp s = false →
    exec (.takeoverStepTimeout p false) s =
      .next (after (coxErr 1 p true s))) ∧
  (∀ (p : Nat) (s : State),
    Live s → (pairP s p).take ≠ 0 → ucp s = false →
    exec (.takeoverStepTimeout p true) s =
      .next (after (coxErr 2 p false (updPairP p (fun x => { x with take := 0 }) s))))

/-- The power pins act whatever the package does: PWROK and PKG_RST_N start it cold or warm and take its power away (R456, R569, R570). A step of a start fails (R458, R459), a self-test ends (R462, R463), an activation of firmware is given up or completes (R465, R466), and a lockstep pair miscompares (Table 15.3). -/
def Obligations.PowerPinsAndStartsAct : Prop :=
  (∀ (hw : Hw) (s u v : State),
    s.pins.pwrok = false → u = (if s.card.known then s else updCard (fun c => { c with known := true, cs0 := flashOf hw.cs0, cs1 := hw.cs1.map flashOf }) s) → v = updCard (fun c => { c with rail := (railBoot.zipIdx).foldl (fun m e => mset m e.2 e.1) [] }) { u with pins := { u.pins with pwrok := true, aon := true, everUp := true } } →
    exec (.pwrokRise hw) s =
      .next (after ((if v.pins.pkgRst then coldStart hw v else v)))) ∧
  (∀ (hw : Hw) (s : State),
    s.pins.pwrok = true → s.card.rstHeld = false → begun s = false →
    exec (.pkgRstNRise hw) s =
      .next (after (coldStart hw { s with pins := { s.pins with pkgRst := true } }))) ∧
  (∀ (ns : Nat) (s u : State),
    s.pins.pwrok = true → begun s = true → s.card.held = false → 1000 ≤ ns → s.card.start = none → u = { s with pins := { s.pins with pkgRst := false } } →
    exec (.pkgRstNFall ns) s =
      .next (after (updCard (fun c => { c with rstHeld := true }) (warmStart u)))) ∧
  (∀ (s : State),
    s.pins.pwrok = true →
    exec .pwrokFall s =
      .next (after (powerOff s))) ∧
  (∀ (step : Nat) (x : Start) (q : Nat × State) (s : State),
    Live s → s.card.start = some x → step = x.step + 1 → (1 ≤ step ∧ step ≤ 9 ∨ step = 15 ∨ step = 16) → q = drawNat s →
    exec (.startStepFail step) s =
      .next (after (startFail step q.1 q.2))) ∧
  (∀ (s : State),
    Live s → fwAt s 5 = true →
    exec .heartbeatMiss s =
      .next (after (fwFail s))) ∧
  (∀ (s : State),
    Live s → fwAt s 5 = true →
    exec .probationEnd s =
      .next (after (fwDone s))) ∧
  (∀ (step : Nat) (s : State),
    Live s → (step = 1 ∨ step = 2) → fwAt s (step + 2) = true →
    exec (.coxActivationTimeout step) s =
      .next (after (fwFail s))) ∧
  (∀ (s : State),
    Live s → s.cox.dead = false →
    exec (.lockstepMiscompare false) s =
      .next (after (coxRec 0x04 1 { s with cox := { s.cox with standbyBad := true } }))) ∧
  (∀ (s : State),
    Live s → s.cox.dead = false → fwAt s 5 = false → s.cox.standbyBad = false →
    exec (.lockstepMiscompare true) s =
      .next (after (coxRec 0x05 1 { s with cox := { s.cox with standbyBad := true } }))) ∧
  (∀ (s : State),
    Live s → s.cox.dead = false → fwAt s 5 = false → s.cox.standbyBad = true →
    exec (.lockstepMiscompare true) s =
      .next (after (coxRec 0x06 3 { s with cox := { s.cox with dead := true } }))) ∧
  (∀ (result detail src a : Nat) (pages : List (Nat × Nat)) (s : State),
    Live s → s.card.test = some (src, 4, a) → src = 16 → result < 3 →
    exec (.selftestComplete result detail pages) s =
      .next (after (mgtMsix 0 (testStat (4 * 2 ^ 8 + result * 2 ^ 16 + detail % 2 ^ 32 * 2 ^ 32) (updCard (fun c => { c with test := none }) s)))))

/-- A manager command of a sender that holds the role and is not BUSY puts its arguments into the sender's frame, sets BUSY there, and joins the Cox's queue (R309, R310). One of a sender without the role, or that is BUSY, is ignored: it changes nothing of its own (log entry 160). -/
def Obligations.ManagerCommandsQueue : Prop :=
  (∀ (c : MgrCmd) (s : State), Live s →
    ∀ x ∈ ([(.partCreate c, 0x01, c), (.partStart c, 0x02, c), (.partStop c, 0x03, c), (.partReset c, 0x04, c), (.partDelete c, 0x05, c),
      (.dieEvacuate c, 0x06, c), (.dieAdd c, 0x07, c), (.slabAssign c, 0x08, c), (.slabRelease c, 0x09, c), (.rpAssign c, 0x0A, c), (.rpRelease c, 0x0B, c),
      (.partQuery c, 0x0C, c), (.errInject c, 0x10, c), (.bhDriveDetach c, 0x21, c), (.bhPoolAdd c, 0x22, c), (.bhPoolRemove c, 0x23, c),
      (.bhNsCreate c, 0x24, c), (.bhNsDelete c, 0x25, c), (.bhNsAttach c, 0x26, c), (.bhNsDetach c, 0x27, c), (.bhVfCreate c, 0x28, c),
      (.bhVfDelete c, 0x29, c), (.bhVfShare c, 0x2A, c), (.bhVfFreeze c, 0x2B, c), (.bhVfSave c, 0x2C, c), (.bhVfRestore c, 0x2D, c), (.bhVfThaw c, 0x2E, c),
      (.bhDirtyLog c, 0x2F, c), (.rcWrite c, 0x30, c), (.rcVerify c, 0x31, c), (.rcDisarm c, 0x32, c), (.rcRollback c, 0x33, c), (.rcRead c, 0x34, c),
      (.rcSvnRaise c, 0x35, c), (.warmStart c, 0x38, c), (.logRead c, 0x39, c), (.pairProtect c, 0x40, c), (.pairUnprotect c, 0x41, c),
      (.pairSwitch c, 0x42, c), (.pairTakeover c, 0x43, c), (.pairRelease c, 0x44, c), (.pairQuery c, 0x45, c),
      (.coxFwActivate c, 0x36, { c with a0 := c.a0 ||| 1 }), (.bhFwActivate c, 0x36, { c with a0 := c.a0 ||| 2 }), (.dieBist c, 0x37, { c with a0 := 1 }),
      (.linkFull c, 0x37, { c with a0 := 2 }), (.memTest c, 0x37, { c with a0 := 3 }), (.rpMargin c, 0x37, { c with a0 := 4 }),
      (.wgRecal c, 0x37, { c with a0 := 5 }), (.l3Bank c, 0x37, { c with a0 := 6 })] : List (Instr × Nat × MgrCmd)),
      (mgrHas s c.src = true → fbit s (mgrFrame c.src) 0x028 0 = false → exec x.1 s = .next (after (mgrPut x.2.1 x.2.2 {} s))) ∧
      (mgrHas s c.src = false ∨ fbit s (mgrFrame c.src) 0x028 0 = true → exec x.1 s = .next (after s))) ∧
  (∀ (op : Nat) (c : MgrCmd) (id : DriveId) (s t : State),
    mgrHas s c.src = true → fbit s (mgrFrame c.src) 0x028 0 = false → t = mgrPut op c id s →
    t.cox.queue = s.cox.queue ++ [{ op := op, c := c, id := id }] ∧ t.cox.cur = s.cox.cur ∧
    fbit t (mgrFrame c.src) 0x028 0 = true ∧ reg t (mgrFrame c.src) 0x000 = c.a0 ∧ reg t (mgrFrame c.src) 0x008 = c.a1) ∧
  (∀ (c : MgrCmd) (op : Nat) (pr : Proc) (s : State), pr = { op := op % 256, c := c } → CoxTakes pr s →
    0x0C < op % 256 ∧ op % 256 < 0x10 ∨ 0x10 < op % 256 ∧ op % 256 < 0x20 ∨ 0x39 < op % 256 ∧ op % 256 < 0x40 ∨ 0x45 < op % 256 ∨ op % 256 = 0 →
    exec (.mgrCmdReserved c op) s = .next (coxThen (mgrEnd rINVALID 0 (cmdTaken pr s))))

/-- The controller of a line reads or writes it for the oldest request of that line, once the Strata engine has located it (R273, R278, R293, R294); while the request is not located, the access locates it. The line that the entry of its slab does not place in memory stops the command as `noCell`. -/
def Obligations.MemoryAccessesAct : Prop :=
  (∀ (pa k : Nat) (err : CellErr) (q r : MemReq) (s t u : State), Live s → memFirst s pa (fun _ => true) = some q → q.wr = false → (cxlPort s pa).isSome = false →
    reqLoc q s = some (k, t) → locOk t k = true → u = cellError k (cellFound t k err) false (damageEnd (frCtl k) (k / 64) t) →
    memFirst u pa (fun _ => true) = some r →
    exec (.memoryRead pa err) s = .next (after (settle (memReadDone r (rdLine u k) (mget u.poison (k / 64)) (count (frCtl k) 0 1 u))))) ∧
  (∀ (pa k : Nat) (q r : MemReq) (s t : State), Live s → memFirst s pa (fun _ => true) = some q → q.wr = true → (cxlPort s pa).isSome = false →
    reqLoc q s = some (k, t) → locOk t k = true → memFirst t pa (fun _ => true) = some r →
    exec (.memoryWrite pa) s = .next (after (settle (memWriteDone r (memHit k (wrLine k r.data r.poison (count (frCtl k) 1 1 t))))))) ∧
  (∀ (pa : Nat) (err : CellErr) (q : MemReq) (s : State), Live s → memFirst s pa (fun _ => true) = some q → (cxlPort s pa).isSome = false → reqLoc q s = none →
    (q.wr = false → exec (.memoryRead pa err) s = .next (after (settle (seAccess pa false s)))) ∧
    (q.wr = true → exec (.memoryWrite pa) s = .next (after (settle (seAccess pa false s))))) ∧
  (∀ (pa k : Nat) (err : CellErr) (q : MemReq) (s t : State), Live s → memFirst s pa (fun _ => true) = some q → (cxlPort s pa).isSome = false → reqLoc q s = some (k, t) →
    locOk t k = false → (q.wr = false → exec (.memoryRead pa err) s = .fault .noCell) ∧ (q.wr = true → exec (.memoryWrite pa) s = .fault .noCell))

/-- A line stored at a location reads back, with its POISON; every byte outside its 64 keeps its value, and memory keeps its canonical form: addresses rising, no byte listed that reads as an unlisted one. -/
def Obligations.LinesReadAsWritten : Prop :=
  (∀ (k : Nat) (d : Line) (p : Bool) (s : State), rdLine (wrLine k d p s) k = d) ∧
  (∀ (k j : Nat) (d : Line) (p : Bool) (s : State), j < k ∨ k + 64 ≤ j → rdByte (wrLine k d p s).mem j = rdByte s.mem j) ∧
  (∀ (k : Nat) (d : Line) (p : Bool) (s : State), Memory.wf s.mem = true → Memory.wf (wrLine k d p s).mem = true) ∧
  (∀ (g t n v : Nat) (s : State), Memory.wf s.mem = true → Memory.wf (setGranEnt g t n v s).mem = true ∧
      ∀ j, j < entAddr g t n ∨ entAddr g t n + 4 ≤ j → rdByte (setGranEnt g t n v s).mem j = rdByte s.mem j) ∧
  (Memory.wf State.reset.mem = true)

/-- A software write of a register: an RW field takes a value that is not reserved; an RWL field does so only while the lock is released (R554); a W1C field loses the bits written 1, a W1S field gains them; RO and WO fields keep what they hold (Table 0.2, R12). Other registers keep their values. -/
def Obligations.FieldsWriteByAccess : Prop :=
  (∀ (f off v : Nat) (x : Fld) (s : State), x ∈ fieldsAt f off →
      fld (genWrite f off v s) f off x.lo x.w =
        match x.acc with
        | .rw => if legalFld (keyKind f) off x (bits v x.lo x.w) then bits v x.lo x.w else fld s f off x.lo x.w
        | .rwl => if s.lockOpen ∧ legalFld (keyKind f) off x (bits v x.lo x.w) = true then bits v x.lo x.w else fld s f off x.lo x.w
        | .w1c => fld s f off x.lo x.w - (fld s f off x.lo x.w &&& bits v x.lo x.w)
        | .w1s => fld s f off x.lo x.w ||| bits v x.lo x.w
        | .ro => fld s f off x.lo x.w
        | .wo => fld s f off x.lo x.w) ∧
  (∀ (f off v g a : Nat) (s : State), off < 65536 → a < 65536 → (g, a) ≠ (f, off) → reg (genWrite f off v s) g a = reg s g a)

/-- An error that a block detects adds 1 to its class's count in the block's bank, saturating, and leaves the other counts; an error of class UCP has no count (R506). The class is the one recorded: a UCD against no running partition counts as UCR (R503). -/
def Obligations.ErrorsAreCounted : Prop :=
  (∀ (e : Err) (s : State), e.cls < 4 → errClass s e < 3 →
      fld (logErr e s) e.frame 0x528 (16 * errClass s e) 16 = min (fld s e.frame 0x528 (16 * errClass s e) 16 + 1) 0xFFFF ∧
      ∀ c, c < 3 → c ≠ errClass s e → fld (logErr e s) e.frame 0x528 (16 * c) 16 = fld s e.frame 0x528 (16 * c) 16) ∧
  (∀ (e : Err) (s : State) (c : Nat), e.cls = 3 → c < 3 → fld (logErr e s) e.frame 0x528 (16 * c) 16 = fld s e.frame 0x528 (16 * c) 16)

/-- A bank with VALID 0 latches an error in full; one with VALID 1 is replaced by an error that outranks its record, with OVF set, and otherwise keeps its record and sets OVF (R507). Rank is by class, then a record with CONSQ clear before one with it set. A latch raises GEN by one modulo 16 and takes the timebase, in a die's own banks the die's copy of it (Table 15.2, R495). A UCR, UCD or UCP latch sets UCALERT (R523). The error here is below UCP; R529 is a statement of its own. -/
def Obligations.ErrorsAreLatched : Prop :=
  (∀ (e : Err) (s t : State), e.cls < 3 → t = logErr e s →
      (fbit s e.frame 0x500 0 = false ∨ outranks s e.frame (errClass s e) e.consq = true) →
      fbit t e.frame 0x500 0 = true ∧ fld t e.frame 0x500 1 2 = errClass s e ∧ fbit t e.frame 0x500 3 = e.consq ∧
      fbit t e.frame 0x500 4 = (fbit s e.frame 0x500 0 || fbit s e.frame 0x500 4) ∧ fbit t e.frame 0x500 5 = e.addr.isSome ∧
      fbit t e.frame 0x500 6 = e.agent.isSome ∧ fld t e.frame 0x500 8 4 = e.part % 16 ∧
      fld t e.frame 0x500 12 4 = (fld s e.frame 0x500 12 4 + 1) % 16 ∧ reg t e.frame 0x508 = BitVec.ofNat 64 (e.addr.getD 0) ∧
      reg t e.frame 0x520 = BitVec.ofNat 64 (errTime s e.frame) ∧ (1 ≤ errClass s e → fbit t frFlt 0 1 = true)) ∧
  (∀ (e : Err) (s t : State), e.cls < 3 → t = logErr e s → fbit s e.frame 0x500 0 = true → outranks s e.frame (errClass s e) e.consq = false →
      fbit t e.frame 0x500 4 = true ∧ (∀ i, i < 64 → i ≠ 4 → fbit t e.frame 0x500 i = fbit s e.frame 0x500 i) ∧
      reg t e.frame 0x508 = reg s e.frame 0x508 ∧ reg t e.frame 0x510 = reg s e.frame 0x510 ∧
      reg t e.frame 0x518 = reg s e.frame 0x518 ∧ reg t e.frame 0x520 = reg s e.frame 0x520) ∧
  (∀ (f c : Nat) (consq : Bool) (s : State), outranks s f c consq = true ↔
      fld s f 0x500 1 2 < c ∨ (fld s f 0x500 1 2 = c ∧ fbit s f 0x500 3 = true ∧ consq = false)) ∧
  (∀ (e : Err) (s : State), e.cls < 3 → logErr e s = { s with regs := (logErr e s).regs })

/-- A UCP latch sets `FLT_PKG.UCP`, fences every Agdel port and every root port outside the pair role hard, and stops every hart that is not parked (R529, step 1 of Table 15.10); memory and the queue of commands stay as they are, and `ALERT_FATAL_N` is low after the command. -/
def Obligations.PackageFatalStops : Prop :=
  (∀ (e : Err) (s t : State), e.cls = 3 → t = logErr e s → fbit t frFlt 0 0 = true ∧ t.mem = s.mem ∧ t.pending = s.pending ∧
      (∀ d, d < 12 → (port t d).fenced = true) ∧ (∀ r, r < 12 → fbit s (frRp r) 0 3 = false → (port t (16 + r)).fenced = true)) ∧
  (∀ (e : Err) (s t : State) (h : Nat), e.cls = 3 → t = logErr e s →
      (hart t h).st = if (hart s h).st = .parked then .parked else .stopped) ∧
  (∀ s : State, s.pins.everUp = true → fbit s frFlt 0 0 = true → (settle s).pins.fatal = true)

/-- A home answers a coherent request by its slab table before anything else (R268): VACANT for an address in a VACANT slab or above the top, for every PART; served for PART 15 or the owner (R156); PARTITION for any other PART. The refusal is a Fault and a UCR record, and sends no snoop; memory and the home's region and line tables are unchanged. The entries here are ones whose update is not in flight (R274). -/
def Obligations.HomeRefusesForeignRequests : Prop :=
  (∀ (n pa part : Nat) (s : State), memTop ≤ pa → slabCheck n pa part s = (some cVACANT, s)) ∧
  (∀ (n pa part : Nat) (s : State), pa < memTop → s.slabOld = [] → slState (slabEnt s (slabOf pa)) = slVACANT → slabCheck n pa part s = (some cVACANT, s)) ∧
  (∀ (n pa part : Nat) (s : State), pa < memTop → s.slabOld = [] → slState (slabEnt s (slabOf pa)) ≠ slVACANT →
      colBad s (slabEnt s (colSlab pa (slLw (slabEnt s (slabOf pa))))) = true → slabCheck n pa part s = (some cVACANT, s)) ∧
  (∀ (n pa part : Nat) (s : State), pa < memTop → s.slabOld = [] → slState (slabEnt s (slabOf pa)) ≠ slVACANT →
      colBad s (slabEnt s (colSlab pa (slLw (slabEnt s (slabOf pa))))) = false →
      slabCheck n pa part s = (if part = 15 ∨ (slState (slabEnt s (slabOf pa)) = slOWNED ∧ slOwner (slabEnt s (slabOf pa)) = part) then none
        else some cPARTITION, s)) ∧
  (∀ (n cause : Nat) (f : Flit) (s t : State), domainOff s n f = false → slabCheck n f.addr f.part s = (some cause, s) → t = homeTake n f s →
      t.wires = s.wires ++ [faultRsp (haAgent n) cause f] ∧ t.mem = s.mem ∧ t.homes = s.homes ∧
      fld t (frHa n) 0x528 16 16 = min (fld s (frHa n) 0x528 16 16 + 1) 0xFFFF ∧ fbit t (frHa n) 0x500 0 = true)

/-- A slice that receives a snoop whose PART is not its die's partition answers SnpRsp with I and FWD clear, makes a UCR record, and leaves its caches, and memory, unchanged (R157). -/
def Obligations.SliceRefusesForeignSnoops : Prop :=
  (∀ (d k : Nat) (f : Flit) (s : State), (die s d).asg ≠ some f.part → sliceSnoop d k f s = sliceRun d k (snpTake d k f s)) ∧
  (∀ (d k : Nat) (f : Flit) (s t : State), (die s d).asg ≠ some f.part → t = snpTake d k f s →
      t.wires = s.wires ++ [{ rsp oSnpRsp (sliceAgent d k) f.src f.txn f with st := .i, fwdd := false, wb := false }] ∧
      fld t (frDlog d) 0x528 16 16 = min (fld s (frDlog d) 0x528 16 16 + 1) 0xFFFF ∧ fbit t (frDlog d) 0x500 0 = true ∧
      t.slices = s.slices ∧ t.harts = s.harts ∧ t.mem = s.mem)

/-- The Cox's write of SWITCH changes the bank in force of every interface at once; while flits of the old epoch are left on the I/O die the write is refused and changes nothing but REFUSED (R244, R245). A write of DISABLED is refused in the same way (R246). -/
def Obligations.RoutesSwitchWhenDrained : Prop :=
  (∀ s : State, Live s → oldCnt s ≠ 0 → exec (.switch 15) s = .next (after (setFld frIof 0x008 1 1 1 s))) ∧
  (∀ s t : State, Live s → CoxIdle s → oldCnt s = 0 → exec (.switch 15) s = .next t → bank t = 1 - bank s ∧ t.mem = s.mem ∧ t.fab = s.fab ∧ t.wires = s.wires ∧ t.live = s.live) ∧
  (∀ s : State, Live s → CoxIdle s → oldCnt s = 0 → ∃ t, exec (.switch 15) s = .next t) ∧
  (∀ (stop : Nat) (s : State), Live s → stop < 96 → oldCnt s ≠ 0 → exec (.iofStopCtlWrite stop 2#64 15) s = .next (after (setFld frIof 0x008 1 1 1 s))) ∧
  (∀ (p : Nat) (s : State), Live s → p < 12 → exec (.switch p) s = .next (after s))

/-- A partition's write to a frame that it does not see has no effect, and its read of one gives 0 (R546, R549, R553); of a frame that it sees, the error bank, a root port's fence and decoders and `DIE_TOFS` take a write only with PART 15 (R553). -/
def Obligations.FramesNotSeenAreClosed : Prop :=
  (∀ (f off p : Nat) (v : Word) (s : State), Live s → p < 12 → seesFrame s p f = false → exec (.registerWrite f off v p) s = .next (after s)) ∧
  (∀ (f off p n : Nat) (s : State), p < 15 → seesFrame s p f = false → drsRead s p f off n = 0) ∧
  (∀ (f off p : Nat) (v : Word) (s : State), Live s → p < 12 → (frameKind f).1 < 0x40 → f ≠ frBmc → only15 (frameKind f).1 off = true →
      exec (.registerWrite f off v p) s = .next (after s)) ∧
  (∀ k : Nat, hasErrBank k = true → only15 k 0x500 = true ∧ only15 k 0x528 = true ∧ only15 k 0x530 = true) ∧
  (∀ off : Nat, off = 0x600 ∨ (0x200 ≤ off ∧ off < 0x280) → only15 0x12 off = true) ∧
  (only15 0x30 0x700 = true)

/-- A write of `FLT_PKG` by the BMC takes effect only while it holds the manager role; one with PART 15 always does; a partition's never does (R531). The write clears UCALERT where it writes 1 and stores CECNT; UCP keeps its value (Table 15.9). Memory and every other register stay as they are. The BMC is writer 16 (log entry 129). -/
def Obligations.FaultWindowWriters : Prop :=
  (∀ (v : Word) (s : State), Live s → s.bmcMgr = false → exec (.fltPkgWrite v 16) s = .next (after s)) ∧
  (∀ (v : Word) (p : Nat) (s : State), Live s → p < 12 → exec (.fltPkgWrite v p) s = .next (after s)) ∧
  (∀ (v : Word) (p : Nat) (s : State), Live s → CoxIdle s → p = 15 ∨ (p = 16 ∧ s.bmcMgr = true) → ∃ t, exec (.fltPkgWrite v p) s = .next t ∧
      fbit t frFlt 0 0 = fbit s frFlt 0 0 ∧ fbit t frFlt 0 1 = (fbit s frFlt 0 1 && !(bit v.toNat 1)) ∧
      fld t frFlt 0 16 32 = bits v.toNat 16 32 ∧ (∀ g a, a < 65536 → (g, a) ≠ (frFlt, 0) → reg t g a = reg s g a) ∧
      t = { s with regs := t.regs, pins := t.pins })

/-- Every region has a home among the 32 and a slice among the 24 of a die (R89, R124); of 32 regions that differ only in their lowest five bits, no two share a home. -/
def Obligations.HomesShareTheRegions : Prop :=
  (∀ g : Nat, homeOf g < 32 ∧ sliceOf g < 24) ∧
  (∀ g j : Nat, g / 32 = j / 32 → homeOf g = homeOf j → g = j)

/-- A message that the mail matrix does not allow is DENIED, one to a partition that is not RUNNING is DOWN, one to a full queue is FULL (R329); a refused message is not queued, and a delivered one joins the end of the receiver's queue. The sender's `MBX_TXSTAT` takes the result and BUSY falls. That the checks are made in this order is the model's reading of R329's list (log entry 92). -/
def Obligations.MailIsRefusedInOrder : Prop :=
  ∀ (f : Flit) (s t : State), f.part < 12 → t = mailTake f s →
      fbit t (frMail f.part) 0x048 0 = false ∧ t.mem = s.mem ∧ t.parts = s.parts ∧
      (12 ≤ f.addr % 16 ∨ bit (s.mailMx.getD f.part 0) (f.addr % 16) = false → fld t (frMail f.part) 0x048 1 3 = 1 ∧ t.mbx = s.mbx) ∧
      (f.addr % 16 < 12 → bit (s.mailMx.getD f.part 0) (f.addr % 16) = true → (part s (f.addr % 16)).st ≠ .running →
        fld t (frMail f.part) 0x048 1 3 = 2 ∧ t.mbx = s.mbx) ∧
      (f.addr % 16 < 12 → bit (s.mailMx.getD f.part 0) (f.addr % 16) = true → (part s (f.addr % 16)).st = .running → 32 ≤ (mbxOf s (f.addr % 16)).length →
        fld t (frMail f.part) 0x048 1 3 = 3 ∧ t.mbx = s.mbx) ∧
      (f.addr % 16 < 12 → bit (s.mailMx.getD f.part 0) (f.addr % 16) = true → (part s (f.addr % 16)).st = .running → (mbxOf s (f.addr % 16)).length < 32 →
        fld t (frMail f.part) 0x048 1 3 = 0 ∧ mbxOf t (f.addr % 16) = mbxOf s (f.addr % 16) ++ [{ src := f.part, data := f.data }])

/-- A request of a device behind a root port whose link is up and that no partition owns, and that is no Boathouse or pair port, reaches no home: a read is completed as an Unsupported Request and a write is dropped, with a UCR record of the port (R338, R352). Memory is unchanged. That an unowned port answers before its fence is looked at is the model's reading (log entry 45). -/
def Obligations.UnownedPortsRefuse : Prop :=
  (∀ (t : Tlp) (s : State), Live s → t.rp < 12 → s.card.k3 = false → linkUp s t.rp t.link = true → rpPair s t.rp = false → bhPort s t.rp = false → rpPart s t.rp = 15 →
      exec (.dmaRead t) s = .next (after (devSend t.rp (.cpl t.link t.tag false false 0)
        (logErr { rpErr s t.rp 0x05 false (some t.addr) with part := 15, fpart := 15 } s))) ∧
      exec (.dmaWrite t) s = .next (after (logErr { rpErr s t.rp 0x05 false (some t.addr) with part := 15, fpart := 15 } s))) ∧
  (∀ (t : Tlp) (s u : State), Live s → CoxIdle s → t.rp < 12 → s.card.k3 = false → linkUp s t.rp t.link = true → rpPair s t.rp = false → bhPort s t.rp = false →
      rpPart s t.rp = 15 → exec (.dmaRead t) s = .next u ∨ exec (.dmaWrite t) s = .next u →
      u.mem = s.mem ∧ u.wires = s.wires ∧ u.homes = s.homes ∧ fbit u (frRp t.rp) 0x500 0 = true)

/-- An access that may not be made traps before it is attempted (R32, R33, R35, R36, R66): an address that is neither the partition's main memory nor an I/O window it sees raises an access fault, 5 for a load and 7 for a store or atomic; a page-table entry outside main memory raises one too; a misaligned LR raises 4, and a misaligned SC or AMO 6; an atomic or a vector access to I/O space, or one of a width that the window does not take, raises an access fault. The instruction then traps; it does not access memory. Which of two exceptions of one access comes first is the model's choice (log entry 170). -/
def Obligations.AccessesTrap : Prop :=
  (∀ (i : Instr) (m : MemAcc) (wr : Bool) (kind c v : Nat) (s : State), running s m.hart = true → accTrap s m wr kind = some (c, v) →
      issueAcc i m wr kind s = issueTrap m.hart i c v s) ∧
  (∀ (m : MemAcc) (wr : Bool) (kind : Nat) (s : State), (∃ a, (a ∈ m.x.walk ∨ m.x.pte = some a) ∧ pma s (hartPart s m.hart) a ≠ .main) →
      accTrap s m wr kind = some (if kind = 0 ∨ kind = 2 then 5 else 7, m.va)) ∧
  (∀ (m : MemAcc) (wr : Bool) (kind : Nat) (s : State), Translated s m → (kind = 2 ∨ kind = 3) → misaligned m = true →
      accTrap s m wr kind = some (if kind = 2 then 4 else 6, m.va)) ∧
  (∀ (m : MemAcc) (wr : Bool) (kind : Nat) (s : State), Translated s m → (kind ≠ 2 ∧ kind ≠ 3 ∨ misaligned m = false) →
      pma s (hartPart s m.hart) m.pa = .vacant → accTrap s m wr kind = some (if kind = 0 ∨ kind = 2 then 5 else 7, m.va)) ∧
  (∀ (m : MemAcc) (wr : Bool) (kind : Nat) (tg : IoTarget) (s : State), Translated s m → (kind ≠ 2 ∧ kind ≠ 3 ∨ misaligned m = false) →
      pma s (hartPart s m.hart) m.pa = .io tg → (2 ≤ kind ∨ m.vec = true ∨ ioSizeOk tg m.pa m.size = false) → accTrap s m wr kind = some (if kind = 0 ∨ kind = 2 then 5 else 7, m.va)) ∧
  (∀ (m : MemAcc) (wr : Bool) (kind : Nat) (s : State), Translated s m → (kind ≠ 2 ∧ kind ≠ 3 ∨ misaligned m = false) →
      pma s (hartPart s m.hart) m.pa = .main → (m.va + m.size - 1) / 4096 ≠ m.va / 4096 → pma s (hartPart s m.hart) m.pa2 ≠ .main →
      accTrap s m wr kind = some (if kind = 0 ∨ kind = 2 then 5 else 7, (m.va / 4096 + 1) * 4096)) ∧
  (∀ (m : MemAcc) (wr : Bool) (kind : Nat) (s : State), Translated s m → (kind ≠ 2 ∧ kind ≠ 3 ∨ misaligned m = false) →
      pma s (hartPart s m.hart) m.pa = .main → ((m.va + m.size - 1) / 4096 = m.va / 4096 ∨ pma s (hartPart s m.hart) m.pa2 = .main) → accTrap s m wr kind = none) ∧
  (∀ (p pa : Nat) (s : State), pma s p pa = .main ↔ slabOwner s pa = some p) ∧
  (∀ (pa : Nat) (s : State), memTop ≤ pa → slabOwner s pa = none)

/-- In its turn, a write of an event selector or a counter of a hart changes that hart's event and counter fields, and nothing else: not the harts beside it, not memory, not a device register; where it traps it changes nothing but the model's own draw of free values (R532, R535). A counter takes the value written, and its selector stays; a selector takes a code of Table 16.2, and 0 for any other (R532). -/
def Obligations.HartRegisterWritesStayInTheHart : Prop :=
  (∀ (h n : Nat) (v : Word) (o : HOp) (s t : State), 3 ≤ n → n < 32 → o.ins = .mhpmeventWrite h n v ∨ o.ins = .hpmCounterWrite h n v → t = (attempt wfiTry h [] o s).1 →
      t = { s with harts := t.harts, free := t.free } ∧ (∀ j, j ≠ h → hart t j = hart s j) ∧ hart t h = { hart s h with hpm := (hart t h).hpm }) ∧
  (∀ (h n : Nat) (v : Word) (o : HOp) (s : State), o.ins = .hpmCounterWrite h n v → csrTrap (hart s h) (0xB00 + n) true = none → 3 ≤ n → n ≤ 10 →
      ∃ w t, attempt wfiTry h [] o s = fin o w t ∧ (mget (hart t h).hpm n).cnt = v ∧ (mget (hart t h).hpm n).ev = (mget (hart s h).hpm n).ev) ∧
  (∀ (h n : Nat) (v : Word) (o : HOp) (s : State), o.ins = .mhpmeventWrite h n v → csrTrap (hart s h) (0x320 + n) true = none → 3 ≤ n → n ≤ 10 →
      ∃ w t, attempt wfiTry h [] o s = fin o w t ∧ (mget (hart t h).hpm n).cnt = (mget (hart s h).hpm n).cnt ∧
        bits (mget (hart t h).hpm n).ev.toNat 0 10 = if eventCode (bits v.toNat 0 10) then bits v.toNat 0 10 else 0) ∧
  (∀ (h : Nat) (v : Word) (o : HOp) (s : State),
      (o.ins = .hpmCounterWrite h 0 v → csrTrap (hart s h) 0xB00 true = none → ∃ w, attempt wfiTry h [] o s = fin o w (updHart h (fun x => { x with mcycle := v }) s)) ∧
      (o.ins = .hpmCounterWrite h 2 v → csrTrap (hart s h) 0xB02 true = none → ∃ w, attempt wfiTry h [] o s = fin o w (updHart h (fun x => { x with minstret := v }) s)))

/-- With the Cox at rest, a write of a stop's state, of a partition's mailbox or fault-queue interrupt, of an error injection or a clear of the package fault registers leaves every hart, slice, home, memory byte, wire, partition and queue as it was (R246, R331, R520, R525, R531): for the injection, the fault log's own record of when it was armed may change. -/
def Obligations.RegisterOnlyCommandsFrame : Prop :=
  ∀ (c : Instr) (s t : State), CoxIdle s → (∃ (n p : Nat) (v : Word), c = .iofStopCtlWrite n v p ∨ c = .mbxRxirqWrite p v ∨ c = .fltPirqWrite p v ∨ c = .errInjWrite n v p ∨
        c = .fltPkgWrite v p) → exec c s = .next t → t = { s with regs := t.regs, pins := t.pins, flt := t.flt }
end

