-- ==== Sys2Proof/Laws/Map.lean ====
section
/-! SUPPORT. Sparse tables: a read after a write, and that writing keeps the canonical form. -/

namespace Sys2Proof.Machine

section
variable {α : Type}

@[simp] theorem mfind_mins_self (m : Map α) (k : Nat) (v : α) : mfind (mins m k v) k = some v := by
  induction m with
  | nil => simp [mins, mfind]
  | cons e t ih => simp only [mins]; repeat' split
                   all_goals simp_all [mfind]

theorem mfind_mins_ne (m : Map α) {k j : Nat} (v : α) (h : j ≠ k) : mfind (mins m k v) j = mfind m j := by
  induction m with
  | nil => simp [mins, mfind, Ne.symm h]
  | cons e t ih =>
    simp only [mins]; repeat' split
    · subst_vars; simp [mfind, Ne.symm h]
    · simp [mfind, Ne.symm h]
    · simp only [mfind, ih]

@[simp] theorem mfind_mdel_self (m : Map α) (k : Nat) : mfind (mdel m k) k = none := by
  induction m with
  | nil => rfl
  | cons e t ih => simp only [mdel]; split <;> simp_all [mfind]

theorem mfind_mdel_ne (m : Map α) {k j : Nat} (h : j ≠ k) : mfind (mdel m k) j = mfind m j := by
  induction m with
  | nil => rfl
  | cons e t ih =>
    simp only [mdel]; split
    · subst_vars; simp [mfind, ih, Ne.symm h]
    · simp only [mfind, ih]

theorem msorted_le {m : Map α} {a b : Nat} (h : msorted b m = true) (hab : a ≤ b) : msorted a m = true := by
  cases m with
  | nil => rfl
  | cons e t =>
    simp only [msorted, Bool.and_eq_true, decide_eq_true_eq] at h ⊢
    exact ⟨by omega, h.2⟩

theorem msorted_mins {m : Map α} {b k : Nat} (v : α) (h : msorted b m = true) (hk : b ≤ k) : msorted b (mins m k v) = true := by
  induction m generalizing b with
  | nil => simp [mins, msorted, hk]
  | cons e t ih =>
    obtain ⟨j, w⟩ := e
    simp only [msorted, Bool.and_eq_true, decide_eq_true_eq] at h
    simp only [mins]
    split
    · subst_vars; simp [msorted, h.2, hk]
    · split
      · simp [msorted, hk, h.2]; omega
      · simp only [msorted, Bool.and_eq_true, decide_eq_true_eq]; exact ⟨h.1, ih h.2 (by omega)⟩

theorem msorted_mdel {m : Map α} {b : Nat} (k : Nat) (h : msorted b m = true) : msorted b (mdel m k) = true := by
  induction m generalizing b with
  | nil => rfl
  | cons e t ih =>
    obtain ⟨j, w⟩ := e
    simp only [msorted, Bool.and_eq_true, decide_eq_true_eq] at h
    simp only [mdel]
    split
    · exact msorted_le (ih h.2) (by omega)
    · simp only [msorted, Bool.and_eq_true, decide_eq_true_eq]; exact ⟨h.1, ih h.2⟩

theorem mem_mins {m : Map α} {k : Nat} {v : α} {e : Nat × α} (h : e ∈ mins m k v) : e = (k, v) ∨ e ∈ m := by
  induction m with
  | nil => simpa [mins] using h
  | cons x t ih =>
    simp only [mins] at h
    repeat' split at h
    · exact (List.mem_cons.mp h).imp id (List.mem_cons_of_mem _)
    · exact List.mem_cons.mp h
    · rcases List.mem_cons.mp h with h | h
      · exact .inr (h ▸ List.mem_cons_self)
      · exact (ih h).imp id (List.mem_cons_of_mem _)

theorem mem_mdel {m : Map α} {k : Nat} {e : Nat × α} (h : e ∈ mdel m k) : e ∈ m := by
  induction m with
  | nil => simp [mdel] at h
  | cons x t ih =>
    simp only [mdel] at h
    split at h
    · exact List.mem_cons_of_mem _ (ih h)
    · rcases List.mem_cons.mp h with h | h
      · exact h ▸ List.mem_cons_self
      · exact List.mem_cons_of_mem _ (ih h)

end

section
variable {α : Type} [Inhabited α] [DecidableEq α]

/-- A read after a write of the same key. -/
@[simp] theorem mget_mset_self (m : Map α) (k : Nat) (v : α) : mget (mset m k v) k = v := by
  unfold mset mget
  split <;> simp [*]

/-- A read after a write of another key. -/
theorem mget_mset_ne (m : Map α) {k j : Nat} (v : α) (hj : j ≠ k) : mget (mset m k v) j = mget m j := by
  unfold mset mget
  split
  · rw [mfind_mdel_ne m hj]
  · rw [mfind_mins_ne m v hj]

@[simp] theorem mget_mupd_self (m : Map α) (k : Nat) (g : α → α) : mget (mupd m k g) k = g (mget m k) := mget_mset_self m k _

theorem mget_mupd_ne (m : Map α) {k j : Nat} (g : α → α) (hj : j ≠ k) : mget (mupd m k g) j = mget m j := mget_mset_ne m _ hj

/-- Writing keeps the canonical form. -/
theorem mwf_mset {m : Map α} (k : Nat) (v : α) (h : mwf m = true) : mwf (mset m k v) = true := by
  simp only [mwf, Bool.and_eq_true, List.all_eq_true, decide_eq_true_eq] at h ⊢
  unfold mset
  split
  · exact ⟨msorted_mdel k h.1, fun e he => h.2 e (mem_mdel he)⟩
  · refine ⟨msorted_mins v h.1 (Nat.zero_le k), fun e he => ?_⟩
    rcases mem_mins he with rfl | he
    · assumption
    · exact h.2 e he

/-- Changing one key keeps the canonical form. -/
theorem mwf_mupd {m : Map α} (k : Nat) (g : α → α) (h : mwf m = true) : mwf (mupd m k g) = true := mwf_mset k _ h

end

end Sys2Proof.Machine
end

