-- ==== Sys2Proof/Laws/Regs.lean ====
section
/-! SUPPORT. Bit fields and stored registers: a read after a write, and what a write leaves. -/

namespace Sys2Proof.Machine

/-! ### Bit fields -/

theorem testBit_bits (n lo w i : Nat) : (bits n lo w).testBit i = (decide (i < w) && n.testBit (lo + i)) := by
  simp [bits, Nat.testBit_mod_two_pow, Nat.testBit_shiftRight]

theorem bits_lt (n lo w : Nat) : bits n lo w < 2 ^ w := Nat.mod_lt _ (Nat.two_pow_pos w)

/-- A number in three parts around a field. -/
theorem split_field (n lo w : Nat) : n = 2 ^ lo * (2 ^ w * (n / 2 ^ (lo + w)) + bits n lo w) + n % 2 ^ lo := by
  have h1 := Nat.div_add_mod n (2 ^ lo)
  have h2 := Nat.div_add_mod (n / 2 ^ lo) (2 ^ w)
  rw [Nat.div_div_eq_div_mul, ← Nat.pow_add] at h2
  simp only [bits, Nat.shiftRight_eq_div_pow]
  rw [h2]
  exact h1.symm

/-- The same number with the field replaced. -/
theorem setBits_eq (n lo w v : Nat) :
    setBits n lo w v = 2 ^ lo * (2 ^ w * (n / 2 ^ (lo + w)) + v % 2 ^ w) + n % 2 ^ lo := by
  have h := split_field n lo w
  simp only [setBits, Nat.shiftLeft_eq]
  rw [Nat.mul_add] at h ⊢
  rw [Nat.mul_comm (bits n lo w), Nat.mul_comm (v % 2 ^ w)]
  omega

theorem testBit_setBits (n lo w v i : Nat) :
    (setBits n lo w v).testBit i = if lo ≤ i ∧ i < lo + w then v.testBit (i - lo) else n.testBit i := by
  have hm : n % 2 ^ lo < 2 ^ lo := Nat.mod_lt _ (Nat.two_pow_pos lo)
  have hv : v % 2 ^ w < 2 ^ w := Nat.mod_lt _ (Nat.two_pow_pos w)
  rw [setBits_eq, Nat.testBit_two_pow_mul_add _ hm]
  by_cases h1 : i < lo
  · rw [if_pos h1, if_neg (by omega), Nat.testBit_mod_two_pow, decide_eq_true h1, Bool.true_and]
  · rw [if_neg h1, Nat.testBit_two_pow_mul_add _ hv]
    by_cases h2 : i - lo < w
    · rw [if_pos h2, if_pos (by omega), Nat.testBit_mod_two_pow, decide_eq_true h2, Bool.true_and]
    · rw [if_neg h2, if_neg (by omega), Nat.testBit_div_two_pow]
      congr 1; omega

/-- A field reads as it was written. -/
theorem bits_setBits_self (n lo w v : Nat) : bits (setBits n lo w v) lo w = v % 2 ^ w := by
  apply Nat.eq_of_testBit_eq
  intro i
  rw [testBit_bits, testBit_setBits, Nat.testBit_mod_two_pow]
  by_cases h : i < w
  · simp [h]
  · simp [h]

/-- A field apart from the one written keeps its value. -/
theorem bits_setBits_ne (n lo w v a b : Nat) (h : a + b ≤ lo ∨ lo + w ≤ a) : bits (setBits n lo w v) a b = bits n a b := by
  apply Nat.eq_of_testBit_eq
  intro i
  rw [testBit_bits, testBit_bits, testBit_setBits]
  by_cases hi : i < b
  · rw [if_neg (by omega)]
  · simp [hi]

/-- A part of the field that was written. -/
theorem bits_setBits_sub (n lo w v a b : Nat) (h : lo ≤ a ∧ a + b ≤ lo + w) : bits (setBits n lo w v) a b = bits v (a - lo) b := by
  apply Nat.eq_of_testBit_eq
  intro i
  rw [testBit_bits, testBit_bits, testBit_setBits]
  by_cases hi : i < b
  · rw [if_pos (by omega)]; congr 2; omega
  · simp [hi]

theorem bit_eq (n i : Nat) : bit n i = n.testBit i := rfl

/-- A bit of the field that was written. -/
theorem bit_setBits (n lo w v i : Nat) (h : lo ≤ i ∧ i < lo + w) : bit (setBits n lo w v) i = bit v (i - lo) := by
  rw [bit_eq, bit_eq, testBit_setBits, if_pos h]

theorem setBits_lt {n lo w v k : Nat} (hn : n < 2 ^ k) (h : lo + w ≤ k) : setBits n lo w v < 2 ^ k := by
  apply Nat.lt_pow_two_of_testBit
  intro i hi
  rw [testBit_setBits, if_neg (by omega)]
  exact Nat.testBit_lt_two_pow (Nat.lt_of_lt_of_le hn (Nat.pow_le_pow_right (by omega) hi))

/-! ### Stored registers -/

theorem regKey_inj {f g a b : Nat} (ha : a < 65536) (hb : b < 65536) (h : regKey f a = regKey g b) : f = g ∧ a = b := by
  unfold regKey at h; omega

/-- A register reads as it was stored. -/
@[simp] theorem reg_setReg_self (s : State) (f off : Nat) (v : Word) : reg (setReg f off v s) f off = v := by
  simp only [reg, setReg]
  split
  · next hv => rw [mfind_mdel_self, hv]; rfl
  · rw [mfind_mins_self]; rfl

/-- Storing one register leaves the others. -/
theorem reg_setReg_ne (s : State) {f off g a : Nat} (v : Word) (hk : regKey g a ≠ regKey f off) : reg (setReg f off v s) g a = reg s g a := by
  simp only [reg, setReg]
  split
  · rw [mfind_mdel_ne _ hk]
  · rw [mfind_mins_ne _ _ hk]

/-- The word that a field write stores. -/
theorem reg_setFld_self (s : State) (f off lo w v : Nat) :
    reg (setFld f off lo w v s) f off = BitVec.ofNat 64 (setBits (reg s f off).toNat lo w v) :=
  reg_setReg_self _ _ _ _

theorem reg_setFld_ne (s : State) {f off g a : Nat} (lo w v : Nat) (hk : regKey g a ≠ regKey f off) :
    reg (setFld f off lo w v s) g a = reg s g a :=
  reg_setReg_ne s _ hk

/-- A field of a stored register reads as it was written. -/
theorem fld_setFld_self (s : State) (f off : Nat) {lo w v : Nat} (hw : lo + w ≤ 64) : fld (setFld f off lo w v s) f off lo w = v % 2 ^ w := by
  unfold fld
  rw [reg_setFld_self, BitVec.toNat_ofNat, Nat.mod_eq_of_lt (setBits_lt (reg s f off).isLt hw), bits_setBits_self]

/-- A field apart from the one written keeps its value. -/
theorem fld_setFld_ne (s : State) (f off : Nat) {lo w v a b : Nat} (hw : lo + w ≤ 64) (hd : a + b ≤ lo ∨ lo + w ≤ a) :
    fld (setFld f off lo w v s) f off a b = fld s f off a b := by
  unfold fld
  rw [reg_setFld_self, BitVec.toNat_ofNat, Nat.mod_eq_of_lt (setBits_lt (reg s f off).isLt hw), bits_setBits_ne _ _ _ _ _ _ hd]

/-- A field of another register keeps its value. -/
theorem fld_setFld_other (s : State) {f off g a : Nat} (lo w v c d : Nat) (hk : regKey g a ≠ regKey f off) :
    fld (setFld f off lo w v s) g a c d = fld s g a c d := by
  unfold fld
  rw [reg_setFld_ne s lo w v hk]

/-- A bit of a stored register after a field write. -/
theorem fbit_setFld (s : State) (f off i : Nat) {lo w v : Nat} (hw : lo + w ≤ 64) :
    fbit (setFld f off lo w v s) f off i = if lo ≤ i ∧ i < lo + w then v.testBit (i - lo) else fbit s f off i := by
  show (reg _ f off).toNat.testBit i = if _ then _ else (reg s f off).toNat.testBit i
  rw [reg_setFld_self, BitVec.toNat_ofNat, Nat.mod_eq_of_lt (setBits_lt (reg s f off).isLt hw), testBit_setBits]

end Sys2Proof.Machine
end

