-- ==== Sys2Proof/Laws/Exec.lean ====
section
/-! SUPPORT. How a command acts: what stands around each command's own operation. -/

namespace Sys2Proof.Machine

/-- A command that acts does its own operation and what follows it. -/
theorem act_live {g : State → State} {s : State} (h : Live s) : act g s = .next (after (g s)) := by
  simp only [act, h.1, h.2]; rfl

/-- On a package without power, or shut down, a command does nothing but let the alert pins follow. -/
theorem act_dead {g : State → State} {s : State} (h : ¬Live s) : act g s = .next (settle s) := by
  unfold act
  split
  · next hc => simp only [Bool.and_eq_true, Bool.not_eq_true'] at hc; exact absurd ⟨hc.1, hc.2⟩ h
  · rfl

/-- A command always answers a next state. -/
theorem act_next (g : State → State) (s : State) : ∃ t, act g s = .next t := by
  by_cases h : Live s
  · exact ⟨_, act_live h⟩
  · exact ⟨_, act_dead h⟩

theorem done_eq (s : State) : done s = .next (settle s) := rfl

theorem pinAct_eq (g : State → State) (s : State) : pinAct g s = .next (after (g s)) := rfl

theorem vfAct_live {part v : Nat} {g : State → State} {s : State} (h : Live s) :
    vfAct part v g s = .next (after (if (vfGate part v s).1 then g (vfGate part v s).2 else (vfGate part v s).2)) := act_live h

theorem portAct_live {rp : Nat} {g : State → State} {s : State} (h : Live s) (hr : rp < 12) : portAct rp g s = .next (after (g (k3Wake s))) := by
  unfold portAct; rw [act_live h]; simp [hr]

/-- A flit whose turn it is and that nothing refuses reaches its agent; the partner package's agents are outside the model. -/
theorem deliver_arrives {n : Net} {op : Nat} {g : Flit → State → State} {f : Flit} {s : State} (h : Arrives n op f s) :
    deliver n op g f s = if agDie f.dst = 13 then arrive f s else g f (arrive f s) := by
  obtain ⟨hm, ha, hp, hq⟩ := h
  simp only [isMsg, Bool.and_eq_true, decide_eq_true_eq] at hm
  have h1 : portMeets f s = none := by simpa using hp
  have h2 : meshMeets f s = none := by simpa using hq
  simp [deliver, hm.1.1, hm.1.2, hm.2, ha, h1, h2]

theorem act_deliver {n : Net} {op : Nat} {g : Flit → State → State} {f : Flit} {s : State} (h : Live s) (ha : Arrives n op f s)
    (hd : agDie f.dst ≠ 13) : act (deliver n op g f) s = .next (after (g f (arrive f s))) := by
  rw [act_live h, deliver_arrives ha, if_neg hd]

/-- What is sent to the partner package leaves this one. -/
theorem act_deliver_out {n : Net} {op : Nat} {g : Flit → State → State} {f : Flit} {s : State} (h : Live s) (ha : Arrives n op f s)
    (hd : agDie f.dst = 13) : act (deliver n op g f) s = .next (after (arrive f s)) := by
  rw [act_live h, deliver_arrives ha, if_pos hd]

/-- A flit that arrives changes the wires and the counts of the ports that it passed, and nothing else. -/
theorem arrive_eq (f : Flit) (s : State) : ∃ w l p, arrive f s = { s with wires := w, live := l, ports := p } := by
  unfold arrive
  by_cases hs : agDie f.src = agDie f.dst <;> by_cases ha : agDie f.src < 12 <;> by_cases hb : agDie f.dst < 12 <;>
    by_cases hn : f.net = .req <;> simp only [hs, ha, hb, hn, if_true, if_false] <;> exact ⟨_, _, _, rfl⟩

/-- A write that a partition or the system may make. -/
theorem wrAs_may {p f off v : Nat} {s : State} (h : MayWrite s p f) : wrAs p f off v s = drsWrite p f off 8 v s := by
  unfold wrAs; rw [if_pos]; rcases h with h | h <;> simp [h]

theorem after_pending (s : State) : (settle s).pending = s.pending := rfl

end Sys2Proof.Machine
end

