-- ==== Sys2Proof/Laws/State.lean ====
section
/-! SUPPORT. What each update of the state leaves: one lemma for each field and each update. -/

namespace Sys2Proof.Machine

@[simp] theorem updHart_pending (h : Nat) (g : Hart → Hart) (s : State) : (updHart h g s).pending = s.pending := rfl
@[simp] theorem updHart_free (h : Nat) (g : Hart → Hart) (s : State) : (updHart h g s).free = s.free := rfl
@[simp] theorem updHart_wires (h : Nat) (g : Hart → Hart) (s : State) : (updHart h g s).wires = s.wires := rfl
@[simp] theorem updHart_regs (h : Nat) (g : Hart → Hart) (s : State) : (updHart h g s).regs = s.regs := rfl
@[simp] theorem updHart_lockOpen (h : Nat) (g : Hart → Hart) (s : State) : (updHart h g s).lockOpen = s.lockOpen := rfl
@[simp] theorem updHart_harts (h : Nat) (g : Hart → Hart) (s : State) : (updHart h g s).harts = mupd s.harts h g := rfl
@[simp] theorem updHart_slices (h : Nat) (g : Hart → Hart) (s : State) : (updHart h g s).slices = s.slices := rfl
@[simp] theorem updHart_dies (h : Nat) (g : Hart → Hart) (s : State) : (updHart h g s).dies = s.dies := rfl
@[simp] theorem updHart_homes (h : Nat) (g : Hart → Hart) (s : State) : (updHart h g s).homes = s.homes := rfl
@[simp] theorem updHart_memq (h : Nat) (g : Hart → Hart) (s : State) : (updHart h g s).memq = s.memq := rfl
@[simp] theorem updHart_mem (h : Nat) (g : Hart → Hart) (s : State) : (updHart h g s).mem = s.mem := rfl
@[simp] theorem updHart_poison (h : Nat) (g : Hart → Hart) (s : State) : (updHart h g s).poison = s.poison := rfl
@[simp] theorem updHart_slab (h : Nat) (g : Hart → Hart) (s : State) : (updHart h g s).slab = s.slab := rfl
@[simp] theorem updHart_slabOld (h : Nat) (g : Hart → Hart) (s : State) : (updHart h g s).slabOld = s.slabOld := rfl
@[simp] theorem updHart_slabSw (h : Nat) (g : Hart → Hart) (s : State) : (updHart h g s).slabSw = s.slabSw := rfl
@[simp] theorem updHart_parts (h : Nat) (g : Hart → Hart) (s : State) : (updHart h g s).parts = s.parts := rfl
@[simp] theorem updHart_flt (h : Nat) (g : Hart → Hart) (s : State) : (updHart h g s).flt = s.flt := rfl
@[simp] theorem updHart_pins (h : Nat) (g : Hart → Hart) (s : State) : (updHart h g s).pins = s.pins := rfl
@[simp] theorem updHart_tb (h : Nat) (g : Hart → Hart) (s : State) : (updHart h g s).tb = s.tb := rfl
@[simp] theorem updHart_ports (h : Nat) (g : Hart → Hart) (s : State) : (updHart h g s).ports = s.ports := rfl
@[simp] theorem updHart_vis (h : Nat) (g : Hart → Hart) (s : State) : (updHart h g s).vis = s.vis := rfl
@[simp] theorem updHart_ddrSlabs (h : Nat) (g : Hart → Hart) (s : State) : (updHart h g s).ddrSlabs = s.ddrSlabs := rfl
@[simp] theorem updHart_ddrOff (h : Nat) (g : Hart → Hart) (s : State) : (updHart h g s).ddrOff = s.ddrOff := rfl
@[simp] theorem updHart_pairSt (h : Nat) (g : Hart → Hart) (s : State) : (updHart h g s).pairSt = s.pairSt := rfl
@[simp] theorem updHart_strata (h : Nat) (g : Hart → Hart) (s : State) : (updHart h g s).strata = s.strata := rfl
@[simp] theorem updHart_strCmd (h : Nat) (g : Hart → Hart) (s : State) : (updHart h g s).strCmd = s.strCmd := rfl
@[simp] theorem updHart_slabWait (h : Nat) (g : Hart → Hart) (s : State) : (updHart h g s).slabWait = s.slabWait := rfl
@[simp] theorem updHart_rowCe (h : Nat) (g : Hart → Hart) (s : State) : (updHart h g s).rowCe = s.rowCe := rfl
@[simp] theorem updHart_pprq (h : Nat) (g : Hart → Hart) (s : State) : (updHart h g s).pprq = s.pprq := rfl
@[simp] theorem updHart_mbx (h : Nat) (g : Hart → Hart) (s : State) : (updHart h g s).mbx = s.mbx := rfl
@[simp] theorem updHart_mbxSys (h : Nat) (g : Hart → Hart) (s : State) : (updHart h g s).mbxSys = s.mbxSys := rfl
@[simp] theorem updHart_links (h : Nat) (g : Hart → Hart) (s : State) : (updHart h g s).links = s.links := rfl
@[simp] theorem updHart_fab (h : Nat) (g : Hart → Hart) (s : State) : (updHart h g s).fab = s.fab := rfl
@[simp] theorem updHart_live (h : Nat) (g : Hart → Hart) (s : State) : (updHart h g s).live = s.live := rfl
@[simp] theorem updHart_trace (h : Nat) (g : Hart → Hart) (s : State) : (updHart h g s).trace = s.trace := rfl
@[simp] theorem updHart_dieIds (h : Nat) (g : Hart → Hart) (s : State) : (updHart h g s).dieIds = s.dieIds := rfl
@[simp] theorem updHart_uart1 (h : Nat) (g : Hart → Hart) (s : State) : (updHart h g s).uart1 = s.uart1 := rfl
@[simp] theorem updHart_gpioOwn (h : Nat) (g : Hart → Hart) (s : State) : (updHart h g s).gpioOwn = s.gpioOwn := rfl
@[simp] theorem updHart_mailMx (h : Nat) (g : Hart → Hart) (s : State) : (updHart h g s).mailMx = s.mailMx := rfl
@[simp] theorem updHart_bmcMgr (h : Nat) (g : Hart → Hart) (s : State) : (updHart h g s).bmcMgr = s.bmcMgr := rfl
@[simp] theorem updHart_imsic (h : Nat) (g : Hart → Hart) (s : State) : (updHart h g s).imsic = s.imsic := rfl
@[simp] theorem updHart_aplic (h : Nat) (g : Hart → Hart) (s : State) : (updHart h g s).aplic = s.aplic := rfl
@[simp] theorem updHart_uart (h : Nat) (g : Hart → Hart) (s : State) : (updHart h g s).uart = s.uart := rfl
@[simp] theorem updHart_gpioIn (h : Nat) (g : Hart → Hart) (s : State) : (updHart h g s).gpioIn = s.gpioIn := rfl
@[simp] theorem updHart_gpioRep (h : Nat) (g : Hart → Hart) (s : State) : (updHart h g s).gpioRep = s.gpioRep := rfl
@[simp] theorem updHart_msix (h : Nat) (g : Hart → Hart) (s : State) : (updHart h g s).msix = s.msix := rfl
@[simp] theorem updHart_reports (h : Nat) (g : Hart → Hart) (s : State) : (updHart h g s).reports = s.reports := rfl
@[simp] theorem updHart_rps (h : Nat) (g : Hart → Hart) (s : State) : (updHart h g s).rps = s.rps := rfl
@[simp] theorem updHart_pairP (h : Nat) (g : Hart → Hart) (s : State) : (updHart h g s).pairP = s.pairP := rfl
@[simp] theorem updHart_pair (h : Nat) (g : Hart → Hart) (s : State) : (updHart h g s).pair = s.pair := rfl
@[simp] theorem updHart_cox (h : Nat) (g : Hart → Hart) (s : State) : (updHart h g s).cox = s.cox := rfl
@[simp] theorem updHart_drives (h : Nat) (g : Hart → Hart) (s : State) : (updHart h g s).drives = s.drives := rfl
@[simp] theorem updHart_bh (h : Nat) (g : Hart → Hart) (s : State) : (updHart h g s).bh = s.bh := rfl
@[simp] theorem updHart_catCopies (h : Nat) (g : Hart → Hart) (s : State) : (updHart h g s).catCopies = s.catCopies := rfl
@[simp] theorem updHart_card (h : Nat) (g : Hart → Hart) (s : State) : (updHart h g s).card = s.card := rfl

@[simp] theorem updSlice_pending (d k : Nat) (g : Slice → Slice) (s : State) : (updSlice d k g s).pending = s.pending := rfl
@[simp] theorem updSlice_free (d k : Nat) (g : Slice → Slice) (s : State) : (updSlice d k g s).free = s.free := rfl
@[simp] theorem updSlice_wires (d k : Nat) (g : Slice → Slice) (s : State) : (updSlice d k g s).wires = s.wires := rfl
@[simp] theorem updSlice_regs (d k : Nat) (g : Slice → Slice) (s : State) : (updSlice d k g s).regs = s.regs := rfl
@[simp] theorem updSlice_lockOpen (d k : Nat) (g : Slice → Slice) (s : State) : (updSlice d k g s).lockOpen = s.lockOpen := rfl
@[simp] theorem updSlice_harts (d k : Nat) (g : Slice → Slice) (s : State) : (updSlice d k g s).harts = s.harts := rfl
@[simp] theorem updSlice_slices (d k : Nat) (g : Slice → Slice) (s : State) : (updSlice d k g s).slices = mupd s.slices (24 * d + k) g := rfl
@[simp] theorem updSlice_dies (d k : Nat) (g : Slice → Slice) (s : State) : (updSlice d k g s).dies = s.dies := rfl
@[simp] theorem updSlice_homes (d k : Nat) (g : Slice → Slice) (s : State) : (updSlice d k g s).homes = s.homes := rfl
@[simp] theorem updSlice_memq (d k : Nat) (g : Slice → Slice) (s : State) : (updSlice d k g s).memq = s.memq := rfl
@[simp] theorem updSlice_mem (d k : Nat) (g : Slice → Slice) (s : State) : (updSlice d k g s).mem = s.mem := rfl
@[simp] theorem updSlice_poison (d k : Nat) (g : Slice → Slice) (s : State) : (updSlice d k g s).poison = s.poison := rfl
@[simp] theorem updSlice_slab (d k : Nat) (g : Slice → Slice) (s : State) : (updSlice d k g s).slab = s.slab := rfl
@[simp] theorem updSlice_slabOld (d k : Nat) (g : Slice → Slice) (s : State) : (updSlice d k g s).slabOld = s.slabOld := rfl
@[simp] theorem updSlice_slabSw (d k : Nat) (g : Slice → Slice) (s : State) : (updSlice d k g s).slabSw = s.slabSw := rfl
@[simp] theorem updSlice_parts (d k : Nat) (g : Slice → Slice) (s : State) : (updSlice d k g s).parts = s.parts := rfl
@[simp] theorem updSlice_flt (d k : Nat) (g : Slice → Slice) (s : State) : (updSlice d k g s).flt = s.flt := rfl
@[simp] theorem updSlice_pins (d k : Nat) (g : Slice → Slice) (s : State) : (updSlice d k g s).pins = s.pins := rfl
@[simp] theorem updSlice_tb (d k : Nat) (g : Slice → Slice) (s : State) : (updSlice d k g s).tb = s.tb := rfl
@[simp] theorem updSlice_ports (d k : Nat) (g : Slice → Slice) (s : State) : (updSlice d k g s).ports = s.ports := rfl
@[simp] theorem updSlice_vis (d k : Nat) (g : Slice → Slice) (s : State) : (updSlice d k g s).vis = s.vis := rfl
@[simp] theorem updSlice_ddrSlabs (d k : Nat) (g : Slice → Slice) (s : State) : (updSlice d k g s).ddrSlabs = s.ddrSlabs := rfl
@[simp] theorem updSlice_ddrOff (d k : Nat) (g : Slice → Slice) (s : State) : (updSlice d k g s).ddrOff = s.ddrOff := rfl
@[simp] theorem updSlice_pairSt (d k : Nat) (g : Slice → Slice) (s : State) : (updSlice d k g s).pairSt = s.pairSt := rfl
@[simp] theorem updSlice_strata (d k : Nat) (g : Slice → Slice) (s : State) : (updSlice d k g s).strata = s.strata := rfl
@[simp] theorem updSlice_strCmd (d k : Nat) (g : Slice → Slice) (s : State) : (updSlice d k g s).strCmd = s.strCmd := rfl
@[simp] theorem updSlice_slabWait (d k : Nat) (g : Slice → Slice) (s : State) : (updSlice d k g s).slabWait = s.slabWait := rfl
@[simp] theorem updSlice_rowCe (d k : Nat) (g : Slice → Slice) (s : State) : (updSlice d k g s).rowCe = s.rowCe := rfl
@[simp] theorem updSlice_pprq (d k : Nat) (g : Slice → Slice) (s : State) : (updSlice d k g s).pprq = s.pprq := rfl
@[simp] theorem updSlice_mbx (d k : Nat) (g : Slice → Slice) (s : State) : (updSlice d k g s).mbx = s.mbx := rfl
@[simp] theorem updSlice_mbxSys (d k : Nat) (g : Slice → Slice) (s : State) : (updSlice d k g s).mbxSys = s.mbxSys := rfl
@[simp] theorem updSlice_links (d k : Nat) (g : Slice → Slice) (s : State) : (updSlice d k g s).links = s.links := rfl
@[simp] theorem updSlice_fab (d k : Nat) (g : Slice → Slice) (s : State) : (updSlice d k g s).fab = s.fab := rfl
@[simp] theorem updSlice_live (d k : Nat) (g : Slice → Slice) (s : State) : (updSlice d k g s).live = s.live := rfl
@[simp] theorem updSlice_trace (d k : Nat) (g : Slice → Slice) (s : State) : (updSlice d k g s).trace = s.trace := rfl
@[simp] theorem updSlice_dieIds (d k : Nat) (g : Slice → Slice) (s : State) : (updSlice d k g s).dieIds = s.dieIds := rfl
@[simp] theorem updSlice_uart1 (d k : Nat) (g : Slice → Slice) (s : State) : (updSlice d k g s).uart1 = s.uart1 := rfl
@[simp] theorem updSlice_gpioOwn (d k : Nat) (g : Slice → Slice) (s : State) : (updSlice d k g s).gpioOwn = s.gpioOwn := rfl
@[simp] theorem updSlice_mailMx (d k : Nat) (g : Slice → Slice) (s : State) : (updSlice d k g s).mailMx = s.mailMx := rfl
@[simp] theorem updSlice_bmcMgr (d k : Nat) (g : Slice → Slice) (s : State) : (updSlice d k g s).bmcMgr = s.bmcMgr := rfl
@[simp] theorem updSlice_imsic (d k : Nat) (g : Slice → Slice) (s : State) : (updSlice d k g s).imsic = s.imsic := rfl
@[simp] theorem updSlice_aplic (d k : Nat) (g : Slice → Slice) (s : State) : (updSlice d k g s).aplic = s.aplic := rfl
@[simp] theorem updSlice_uart (d k : Nat) (g : Slice → Slice) (s : State) : (updSlice d k g s).uart = s.uart := rfl
@[simp] theorem updSlice_gpioIn (d k : Nat) (g : Slice → Slice) (s : State) : (updSlice d k g s).gpioIn = s.gpioIn := rfl
@[simp] theorem updSlice_gpioRep (d k : Nat) (g : Slice → Slice) (s : State) : (updSlice d k g s).gpioRep = s.gpioRep := rfl
@[simp] theorem updSlice_msix (d k : Nat) (g : Slice → Slice) (s : State) : (updSlice d k g s).msix = s.msix := rfl
@[simp] theorem updSlice_reports (d k : Nat) (g : Slice → Slice) (s : State) : (updSlice d k g s).reports = s.reports := rfl
@[simp] theorem updSlice_rps (d k : Nat) (g : Slice → Slice) (s : State) : (updSlice d k g s).rps = s.rps := rfl
@[simp] theorem updSlice_pairP (d k : Nat) (g : Slice → Slice) (s : State) : (updSlice d k g s).pairP = s.pairP := rfl
@[simp] theorem updSlice_pair (d k : Nat) (g : Slice → Slice) (s : State) : (updSlice d k g s).pair = s.pair := rfl
@[simp] theorem updSlice_cox (d k : Nat) (g : Slice → Slice) (s : State) : (updSlice d k g s).cox = s.cox := rfl
@[simp] theorem updSlice_drives (d k : Nat) (g : Slice → Slice) (s : State) : (updSlice d k g s).drives = s.drives := rfl
@[simp] theorem updSlice_bh (d k : Nat) (g : Slice → Slice) (s : State) : (updSlice d k g s).bh = s.bh := rfl
@[simp] theorem updSlice_catCopies (d k : Nat) (g : Slice → Slice) (s : State) : (updSlice d k g s).catCopies = s.catCopies := rfl
@[simp] theorem updSlice_card (d k : Nat) (g : Slice → Slice) (s : State) : (updSlice d k g s).card = s.card := rfl

@[simp] theorem updDie_pending (d : Nat) (g : Die → Die) (s : State) : (updDie d g s).pending = s.pending := rfl
@[simp] theorem updDie_free (d : Nat) (g : Die → Die) (s : State) : (updDie d g s).free = s.free := rfl
@[simp] theorem updDie_wires (d : Nat) (g : Die → Die) (s : State) : (updDie d g s).wires = s.wires := rfl
@[simp] theorem updDie_regs (d : Nat) (g : Die → Die) (s : State) : (updDie d g s).regs = s.regs := rfl
@[simp] theorem updDie_lockOpen (d : Nat) (g : Die → Die) (s : State) : (updDie d g s).lockOpen = s.lockOpen := rfl
@[simp] theorem updDie_harts (d : Nat) (g : Die → Die) (s : State) : (updDie d g s).harts = s.harts := rfl
@[simp] theorem updDie_slices (d : Nat) (g : Die → Die) (s : State) : (updDie d g s).slices = s.slices := rfl
@[simp] theorem updDie_dies (d : Nat) (g : Die → Die) (s : State) : (updDie d g s).dies = mupd s.dies d g := rfl
@[simp] theorem updDie_homes (d : Nat) (g : Die → Die) (s : State) : (updDie d g s).homes = s.homes := rfl
@[simp] theorem updDie_memq (d : Nat) (g : Die → Die) (s : State) : (updDie d g s).memq = s.memq := rfl
@[simp] theorem updDie_mem (d : Nat) (g : Die → Die) (s : State) : (updDie d g s).mem = s.mem := rfl
@[simp] theorem updDie_poison (d : Nat) (g : Die → Die) (s : State) : (updDie d g s).poison = s.poison := rfl
@[simp] theorem updDie_slab (d : Nat) (g : Die → Die) (s : State) : (updDie d g s).slab = s.slab := rfl
@[simp] theorem updDie_slabOld (d : Nat) (g : Die → Die) (s : State) : (updDie d g s).slabOld = s.slabOld := rfl
@[simp] theorem updDie_slabSw (d : Nat) (g : Die → Die) (s : State) : (updDie d g s).slabSw = s.slabSw := rfl
@[simp] theorem updDie_parts (d : Nat) (g : Die → Die) (s : State) : (updDie d g s).parts = s.parts := rfl
@[simp] theorem updDie_flt (d : Nat) (g : Die → Die) (s : State) : (updDie d g s).flt = s.flt := rfl
@[simp] theorem updDie_pins (d : Nat) (g : Die → Die) (s : State) : (updDie d g s).pins = s.pins := rfl
@[simp] theorem updDie_tb (d : Nat) (g : Die → Die) (s : State) : (updDie d g s).tb = s.tb := rfl
@[simp] theorem updDie_ports (d : Nat) (g : Die → Die) (s : State) : (updDie d g s).ports = s.ports := rfl
@[simp] theorem updDie_vis (d : Nat) (g : Die → Die) (s : State) : (updDie d g s).vis = s.vis := rfl
@[simp] theorem updDie_ddrSlabs (d : Nat) (g : Die → Die) (s : State) : (updDie d g s).ddrSlabs = s.ddrSlabs := rfl
@[simp] theorem updDie_ddrOff (d : Nat) (g : Die → Die) (s : State) : (updDie d g s).ddrOff = s.ddrOff := rfl
@[simp] theorem updDie_pairSt (d : Nat) (g : Die → Die) (s : State) : (updDie d g s).pairSt = s.pairSt := rfl
@[simp] theorem updDie_strata (d : Nat) (g : Die → Die) (s : State) : (updDie d g s).strata = s.strata := rfl
@[simp] theorem updDie_strCmd (d : Nat) (g : Die → Die) (s : State) : (updDie d g s).strCmd = s.strCmd := rfl
@[simp] theorem updDie_slabWait (d : Nat) (g : Die → Die) (s : State) : (updDie d g s).slabWait = s.slabWait := rfl
@[simp] theorem updDie_rowCe (d : Nat) (g : Die → Die) (s : State) : (updDie d g s).rowCe = s.rowCe := rfl
@[simp] theorem updDie_pprq (d : Nat) (g : Die → Die) (s : State) : (updDie d g s).pprq = s.pprq := rfl
@[simp] theorem updDie_mbx (d : Nat) (g : Die → Die) (s : State) : (updDie d g s).mbx = s.mbx := rfl
@[simp] theorem updDie_mbxSys (d : Nat) (g : Die → Die) (s : State) : (updDie d g s).mbxSys = s.mbxSys := rfl
@[simp] theorem updDie_links (d : Nat) (g : Die → Die) (s : State) : (updDie d g s).links = s.links := rfl
@[simp] theorem updDie_fab (d : Nat) (g : Die → Die) (s : State) : (updDie d g s).fab = s.fab := rfl
@[simp] theorem updDie_live (d : Nat) (g : Die → Die) (s : State) : (updDie d g s).live = s.live := rfl
@[simp] theorem updDie_trace (d : Nat) (g : Die → Die) (s : State) : (updDie d g s).trace = s.trace := rfl
@[simp] theorem updDie_dieIds (d : Nat) (g : Die → Die) (s : State) : (updDie d g s).dieIds = s.dieIds := rfl
@[simp] theorem updDie_uart1 (d : Nat) (g : Die → Die) (s : State) : (updDie d g s).uart1 = s.uart1 := rfl
@[simp] theorem updDie_gpioOwn (d : Nat) (g : Die → Die) (s : State) : (updDie d g s).gpioOwn = s.gpioOwn := rfl
@[simp] theorem updDie_mailMx (d : Nat) (g : Die → Die) (s : State) : (updDie d g s).mailMx = s.mailMx := rfl
@[simp] theorem updDie_bmcMgr (d : Nat) (g : Die → Die) (s : State) : (updDie d g s).bmcMgr = s.bmcMgr := rfl
@[simp] theorem updDie_imsic (d : Nat) (g : Die → Die) (s : State) : (updDie d g s).imsic = s.imsic := rfl
@[simp] theorem updDie_aplic (d : Nat) (g : Die → Die) (s : State) : (updDie d g s).aplic = s.aplic := rfl
@[simp] theorem updDie_uart (d : Nat) (g : Die → Die) (s : State) : (updDie d g s).uart = s.uart := rfl
@[simp] theorem updDie_gpioIn (d : Nat) (g : Die → Die) (s : State) : (updDie d g s).gpioIn = s.gpioIn := rfl
@[simp] theorem updDie_gpioRep (d : Nat) (g : Die → Die) (s : State) : (updDie d g s).gpioRep = s.gpioRep := rfl
@[simp] theorem updDie_msix (d : Nat) (g : Die → Die) (s : State) : (updDie d g s).msix = s.msix := rfl
@[simp] theorem updDie_reports (d : Nat) (g : Die → Die) (s : State) : (updDie d g s).reports = s.reports := rfl
@[simp] theorem updDie_rps (d : Nat) (g : Die → Die) (s : State) : (updDie d g s).rps = s.rps := rfl
@[simp] theorem updDie_pairP (d : Nat) (g : Die → Die) (s : State) : (updDie d g s).pairP = s.pairP := rfl
@[simp] theorem updDie_pair (d : Nat) (g : Die → Die) (s : State) : (updDie d g s).pair = s.pair := rfl
@[simp] theorem updDie_cox (d : Nat) (g : Die → Die) (s : State) : (updDie d g s).cox = s.cox := rfl
@[simp] theorem updDie_drives (d : Nat) (g : Die → Die) (s : State) : (updDie d g s).drives = s.drives := rfl
@[simp] theorem updDie_bh (d : Nat) (g : Die → Die) (s : State) : (updDie d g s).bh = s.bh := rfl
@[simp] theorem updDie_catCopies (d : Nat) (g : Die → Die) (s : State) : (updDie d g s).catCopies = s.catCopies := rfl
@[simp] theorem updDie_card (d : Nat) (g : Die → Die) (s : State) : (updDie d g s).card = s.card := rfl

@[simp] theorem updHome_pending (n : Nat) (g : Home → Home) (s : State) : (updHome n g s).pending = s.pending := rfl
@[simp] theorem updHome_free (n : Nat) (g : Home → Home) (s : State) : (updHome n g s).free = s.free := rfl
@[simp] theorem updHome_wires (n : Nat) (g : Home → Home) (s : State) : (updHome n g s).wires = s.wires := rfl
@[simp] theorem updHome_regs (n : Nat) (g : Home → Home) (s : State) : (updHome n g s).regs = s.regs := rfl
@[simp] theorem updHome_lockOpen (n : Nat) (g : Home → Home) (s : State) : (updHome n g s).lockOpen = s.lockOpen := rfl
@[simp] theorem updHome_harts (n : Nat) (g : Home → Home) (s : State) : (updHome n g s).harts = s.harts := rfl
@[simp] theorem updHome_slices (n : Nat) (g : Home → Home) (s : State) : (updHome n g s).slices = s.slices := rfl
@[simp] theorem updHome_dies (n : Nat) (g : Home → Home) (s : State) : (updHome n g s).dies = s.dies := rfl
@[simp] theorem updHome_homes (n : Nat) (g : Home → Home) (s : State) : (updHome n g s).homes = mupd s.homes n g := rfl
@[simp] theorem updHome_memq (n : Nat) (g : Home → Home) (s : State) : (updHome n g s).memq = s.memq := rfl
@[simp] theorem updHome_mem (n : Nat) (g : Home → Home) (s : State) : (updHome n g s).mem = s.mem := rfl
@[simp] theorem updHome_poison (n : Nat) (g : Home → Home) (s : State) : (updHome n g s).poison = s.poison := rfl
@[simp] theorem updHome_slab (n : Nat) (g : Home → Home) (s : State) : (updHome n g s).slab = s.slab := rfl
@[simp] theorem updHome_slabOld (n : Nat) (g : Home → Home) (s : State) : (updHome n g s).slabOld = s.slabOld := rfl
@[simp] theorem updHome_slabSw (n : Nat) (g : Home → Home) (s : State) : (updHome n g s).slabSw = s.slabSw := rfl
@[simp] theorem updHome_parts (n : Nat) (g : Home → Home) (s : State) : (updHome n g s).parts = s.parts := rfl
@[simp] theorem updHome_flt (n : Nat) (g : Home → Home) (s : State) : (updHome n g s).flt = s.flt := rfl
@[simp] theorem updHome_pins (n : Nat) (g : Home → Home) (s : State) : (updHome n g s).pins = s.pins := rfl
@[simp] theorem updHome_tb (n : Nat) (g : Home → Home) (s : State) : (updHome n g s).tb = s.tb := rfl
@[simp] theorem updHome_ports (n : Nat) (g : Home → Home) (s : State) : (updHome n g s).ports = s.ports := rfl
@[simp] theorem updHome_vis (n : Nat) (g : Home → Home) (s : State) : (updHome n g s).vis = s.vis := rfl
@[simp] theorem updHome_ddrSlabs (n : Nat) (g : Home → Home) (s : State) : (updHome n g s).ddrSlabs = s.ddrSlabs := rfl
@[simp] theorem updHome_ddrOff (n : Nat) (g : Home → Home) (s : State) : (updHome n g s).ddrOff = s.ddrOff := rfl
@[simp] theorem updHome_pairSt (n : Nat) (g : Home → Home) (s : State) : (updHome n g s).pairSt = s.pairSt := rfl
@[simp] theorem updHome_strata (n : Nat) (g : Home → Home) (s : State) : (updHome n g s).strata = s.strata := rfl
@[simp] theorem updHome_strCmd (n : Nat) (g : Home → Home) (s : State) : (updHome n g s).strCmd = s.strCmd := rfl
@[simp] theorem updHome_slabWait (n : Nat) (g : Home → Home) (s : State) : (updHome n g s).slabWait = s.slabWait := rfl
@[simp] theorem updHome_rowCe (n : Nat) (g : Home → Home) (s : State) : (updHome n g s).rowCe = s.rowCe := rfl
@[simp] theorem updHome_pprq (n : Nat) (g : Home → Home) (s : State) : (updHome n g s).pprq = s.pprq := rfl
@[simp] theorem updHome_mbx (n : Nat) (g : Home → Home) (s : State) : (updHome n g s).mbx = s.mbx := rfl
@[simp] theorem updHome_mbxSys (n : Nat) (g : Home → Home) (s : State) : (updHome n g s).mbxSys = s.mbxSys := rfl
@[simp] theorem updHome_links (n : Nat) (g : Home → Home) (s : State) : (updHome n g s).links = s.links := rfl
@[simp] theorem updHome_fab (n : Nat) (g : Home → Home) (s : State) : (updHome n g s).fab = s.fab := rfl
@[simp] theorem updHome_live (n : Nat) (g : Home → Home) (s : State) : (updHome n g s).live = s.live := rfl
@[simp] theorem updHome_trace (n : Nat) (g : Home → Home) (s : State) : (updHome n g s).trace = s.trace := rfl
@[simp] theorem updHome_dieIds (n : Nat) (g : Home → Home) (s : State) : (updHome n g s).dieIds = s.dieIds := rfl
@[simp] theorem updHome_uart1 (n : Nat) (g : Home → Home) (s : State) : (updHome n g s).uart1 = s.uart1 := rfl
@[simp] theorem updHome_gpioOwn (n : Nat) (g : Home → Home) (s : State) : (updHome n g s).gpioOwn = s.gpioOwn := rfl
@[simp] theorem updHome_mailMx (n : Nat) (g : Home → Home) (s : State) : (updHome n g s).mailMx = s.mailMx := rfl
@[simp] theorem updHome_bmcMgr (n : Nat) (g : Home → Home) (s : State) : (updHome n g s).bmcMgr = s.bmcMgr := rfl
@[simp] theorem updHome_imsic (n : Nat) (g : Home → Home) (s : State) : (updHome n g s).imsic = s.imsic := rfl
@[simp] theorem updHome_aplic (n : Nat) (g : Home → Home) (s : State) : (updHome n g s).aplic = s.aplic := rfl
@[simp] theorem updHome_uart (n : Nat) (g : Home → Home) (s : State) : (updHome n g s).uart = s.uart := rfl
@[simp] theorem updHome_gpioIn (n : Nat) (g : Home → Home) (s : State) : (updHome n g s).gpioIn = s.gpioIn := rfl
@[simp] theorem updHome_gpioRep (n : Nat) (g : Home → Home) (s : State) : (updHome n g s).gpioRep = s.gpioRep := rfl
@[simp] theorem updHome_msix (n : Nat) (g : Home → Home) (s : State) : (updHome n g s).msix = s.msix := rfl
@[simp] theorem updHome_reports (n : Nat) (g : Home → Home) (s : State) : (updHome n g s).reports = s.reports := rfl
@[simp] theorem updHome_rps (n : Nat) (g : Home → Home) (s : State) : (updHome n g s).rps = s.rps := rfl
@[simp] theorem updHome_pairP (n : Nat) (g : Home → Home) (s : State) : (updHome n g s).pairP = s.pairP := rfl
@[simp] theorem updHome_pair (n : Nat) (g : Home → Home) (s : State) : (updHome n g s).pair = s.pair := rfl
@[simp] theorem updHome_cox (n : Nat) (g : Home → Home) (s : State) : (updHome n g s).cox = s.cox := rfl
@[simp] theorem updHome_drives (n : Nat) (g : Home → Home) (s : State) : (updHome n g s).drives = s.drives := rfl
@[simp] theorem updHome_bh (n : Nat) (g : Home → Home) (s : State) : (updHome n g s).bh = s.bh := rfl
@[simp] theorem updHome_catCopies (n : Nat) (g : Home → Home) (s : State) : (updHome n g s).catCopies = s.catCopies := rfl
@[simp] theorem updHome_card (n : Nat) (g : Home → Home) (s : State) : (updHome n g s).card = s.card := rfl

@[simp] theorem updPart_pending (p : Nat) (g : Part → Part) (s : State) : (updPart p g s).pending = s.pending := rfl
@[simp] theorem updPart_free (p : Nat) (g : Part → Part) (s : State) : (updPart p g s).free = s.free := rfl
@[simp] theorem updPart_wires (p : Nat) (g : Part → Part) (s : State) : (updPart p g s).wires = s.wires := rfl
@[simp] theorem updPart_regs (p : Nat) (g : Part → Part) (s : State) : (updPart p g s).regs = s.regs := rfl
@[simp] theorem updPart_lockOpen (p : Nat) (g : Part → Part) (s : State) : (updPart p g s).lockOpen = s.lockOpen := rfl
@[simp] theorem updPart_harts (p : Nat) (g : Part → Part) (s : State) : (updPart p g s).harts = s.harts := rfl
@[simp] theorem updPart_slices (p : Nat) (g : Part → Part) (s : State) : (updPart p g s).slices = s.slices := rfl
@[simp] theorem updPart_dies (p : Nat) (g : Part → Part) (s : State) : (updPart p g s).dies = s.dies := rfl
@[simp] theorem updPart_homes (p : Nat) (g : Part → Part) (s : State) : (updPart p g s).homes = s.homes := rfl
@[simp] theorem updPart_memq (p : Nat) (g : Part → Part) (s : State) : (updPart p g s).memq = s.memq := rfl
@[simp] theorem updPart_mem (p : Nat) (g : Part → Part) (s : State) : (updPart p g s).mem = s.mem := rfl
@[simp] theorem updPart_poison (p : Nat) (g : Part → Part) (s : State) : (updPart p g s).poison = s.poison := rfl
@[simp] theorem updPart_slab (p : Nat) (g : Part → Part) (s : State) : (updPart p g s).slab = s.slab := rfl
@[simp] theorem updPart_slabOld (p : Nat) (g : Part → Part) (s : State) : (updPart p g s).slabOld = s.slabOld := rfl
@[simp] theorem updPart_slabSw (p : Nat) (g : Part → Part) (s : State) : (updPart p g s).slabSw = s.slabSw := rfl
@[simp] theorem updPart_parts (p : Nat) (g : Part → Part) (s : State) : (updPart p g s).parts = mupd s.parts p g := rfl
@[simp] theorem updPart_flt (p : Nat) (g : Part → Part) (s : State) : (updPart p g s).flt = s.flt := rfl
@[simp] theorem updPart_pins (p : Nat) (g : Part → Part) (s : State) : (updPart p g s).pins = s.pins := rfl
@[simp] theorem updPart_tb (p : Nat) (g : Part → Part) (s : State) : (updPart p g s).tb = s.tb := rfl
@[simp] theorem updPart_ports (p : Nat) (g : Part → Part) (s : State) : (updPart p g s).ports = s.ports := rfl
@[simp] theorem updPart_vis (p : Nat) (g : Part → Part) (s : State) : (updPart p g s).vis = s.vis := rfl
@[simp] theorem updPart_ddrSlabs (p : Nat) (g : Part → Part) (s : State) : (updPart p g s).ddrSlabs = s.ddrSlabs := rfl
@[simp] theorem updPart_ddrOff (p : Nat) (g : Part → Part) (s : State) : (updPart p g s).ddrOff = s.ddrOff := rfl
@[simp] theorem updPart_pairSt (p : Nat) (g : Part → Part) (s : State) : (updPart p g s).pairSt = s.pairSt := rfl
@[simp] theorem updPart_strata (p : Nat) (g : Part → Part) (s : State) : (updPart p g s).strata = s.strata := rfl
@[simp] theorem updPart_strCmd (p : Nat) (g : Part → Part) (s : State) : (updPart p g s).strCmd = s.strCmd := rfl
@[simp] theorem updPart_slabWait (p : Nat) (g : Part → Part) (s : State) : (updPart p g s).slabWait = s.slabWait := rfl
@[simp] theorem updPart_rowCe (p : Nat) (g : Part → Part) (s : State) : (updPart p g s).rowCe = s.rowCe := rfl
@[simp] theorem updPart_pprq (p : Nat) (g : Part → Part) (s : State) : (updPart p g s).pprq = s.pprq := rfl
@[simp] theorem updPart_mbx (p : Nat) (g : Part → Part) (s : State) : (updPart p g s).mbx = s.mbx := rfl
@[simp] theorem updPart_mbxSys (p : Nat) (g : Part → Part) (s : State) : (updPart p g s).mbxSys = s.mbxSys := rfl
@[simp] theorem updPart_links (p : Nat) (g : Part → Part) (s : State) : (updPart p g s).links = s.links := rfl
@[simp] theorem updPart_fab (p : Nat) (g : Part → Part) (s : State) : (updPart p g s).fab = s.fab := rfl
@[simp] theorem updPart_live (p : Nat) (g : Part → Part) (s : State) : (updPart p g s).live = s.live := rfl
@[simp] theorem updPart_trace (p : Nat) (g : Part → Part) (s : State) : (updPart p g s).trace = s.trace := rfl
@[simp] theorem updPart_dieIds (p : Nat) (g : Part → Part) (s : State) : (updPart p g s).dieIds = s.dieIds := rfl
@[simp] theorem updPart_uart1 (p : Nat) (g : Part → Part) (s : State) : (updPart p g s).uart1 = s.uart1 := rfl
@[simp] theorem updPart_gpioOwn (p : Nat) (g : Part → Part) (s : State) : (updPart p g s).gpioOwn = s.gpioOwn := rfl
@[simp] theorem updPart_mailMx (p : Nat) (g : Part → Part) (s : State) : (updPart p g s).mailMx = s.mailMx := rfl
@[simp] theorem updPart_bmcMgr (p : Nat) (g : Part → Part) (s : State) : (updPart p g s).bmcMgr = s.bmcMgr := rfl
@[simp] theorem updPart_imsic (p : Nat) (g : Part → Part) (s : State) : (updPart p g s).imsic = s.imsic := rfl
@[simp] theorem updPart_aplic (p : Nat) (g : Part → Part) (s : State) : (updPart p g s).aplic = s.aplic := rfl
@[simp] theorem updPart_uart (p : Nat) (g : Part → Part) (s : State) : (updPart p g s).uart = s.uart := rfl
@[simp] theorem updPart_gpioIn (p : Nat) (g : Part → Part) (s : State) : (updPart p g s).gpioIn = s.gpioIn := rfl
@[simp] theorem updPart_gpioRep (p : Nat) (g : Part → Part) (s : State) : (updPart p g s).gpioRep = s.gpioRep := rfl
@[simp] theorem updPart_msix (p : Nat) (g : Part → Part) (s : State) : (updPart p g s).msix = s.msix := rfl
@[simp] theorem updPart_reports (p : Nat) (g : Part → Part) (s : State) : (updPart p g s).reports = s.reports := rfl
@[simp] theorem updPart_rps (p : Nat) (g : Part → Part) (s : State) : (updPart p g s).rps = s.rps := rfl
@[simp] theorem updPart_pairP (p : Nat) (g : Part → Part) (s : State) : (updPart p g s).pairP = s.pairP := rfl
@[simp] theorem updPart_pair (p : Nat) (g : Part → Part) (s : State) : (updPart p g s).pair = s.pair := rfl
@[simp] theorem updPart_cox (p : Nat) (g : Part → Part) (s : State) : (updPart p g s).cox = s.cox := rfl
@[simp] theorem updPart_drives (p : Nat) (g : Part → Part) (s : State) : (updPart p g s).drives = s.drives := rfl
@[simp] theorem updPart_bh (p : Nat) (g : Part → Part) (s : State) : (updPart p g s).bh = s.bh := rfl
@[simp] theorem updPart_catCopies (p : Nat) (g : Part → Part) (s : State) : (updPart p g s).catCopies = s.catCopies := rfl
@[simp] theorem updPart_card (p : Nat) (g : Part → Part) (s : State) : (updPart p g s).card = s.card := rfl

@[simp] theorem updPort_pending (n : Nat) (g : Port → Port) (s : State) : (updPort n g s).pending = s.pending := rfl
@[simp] theorem updPort_free (n : Nat) (g : Port → Port) (s : State) : (updPort n g s).free = s.free := rfl
@[simp] theorem updPort_wires (n : Nat) (g : Port → Port) (s : State) : (updPort n g s).wires = s.wires := rfl
@[simp] theorem updPort_regs (n : Nat) (g : Port → Port) (s : State) : (updPort n g s).regs = s.regs := rfl
@[simp] theorem updPort_lockOpen (n : Nat) (g : Port → Port) (s : State) : (updPort n g s).lockOpen = s.lockOpen := rfl
@[simp] theorem updPort_harts (n : Nat) (g : Port → Port) (s : State) : (updPort n g s).harts = s.harts := rfl
@[simp] theorem updPort_slices (n : Nat) (g : Port → Port) (s : State) : (updPort n g s).slices = s.slices := rfl
@[simp] theorem updPort_dies (n : Nat) (g : Port → Port) (s : State) : (updPort n g s).dies = s.dies := rfl
@[simp] theorem updPort_homes (n : Nat) (g : Port → Port) (s : State) : (updPort n g s).homes = s.homes := rfl
@[simp] theorem updPort_memq (n : Nat) (g : Port → Port) (s : State) : (updPort n g s).memq = s.memq := rfl
@[simp] theorem updPort_mem (n : Nat) (g : Port → Port) (s : State) : (updPort n g s).mem = s.mem := rfl
@[simp] theorem updPort_poison (n : Nat) (g : Port → Port) (s : State) : (updPort n g s).poison = s.poison := rfl
@[simp] theorem updPort_slab (n : Nat) (g : Port → Port) (s : State) : (updPort n g s).slab = s.slab := rfl
@[simp] theorem updPort_slabOld (n : Nat) (g : Port → Port) (s : State) : (updPort n g s).slabOld = s.slabOld := rfl
@[simp] theorem updPort_slabSw (n : Nat) (g : Port → Port) (s : State) : (updPort n g s).slabSw = s.slabSw := rfl
@[simp] theorem updPort_parts (n : Nat) (g : Port → Port) (s : State) : (updPort n g s).parts = s.parts := rfl
@[simp] theorem updPort_flt (n : Nat) (g : Port → Port) (s : State) : (updPort n g s).flt = s.flt := rfl
@[simp] theorem updPort_pins (n : Nat) (g : Port → Port) (s : State) : (updPort n g s).pins = s.pins := rfl
@[simp] theorem updPort_tb (n : Nat) (g : Port → Port) (s : State) : (updPort n g s).tb = s.tb := rfl
@[simp] theorem updPort_ports (n : Nat) (g : Port → Port) (s : State) : (updPort n g s).ports = mupd s.ports n g := rfl
@[simp] theorem updPort_vis (n : Nat) (g : Port → Port) (s : State) : (updPort n g s).vis = s.vis := rfl
@[simp] theorem updPort_ddrSlabs (n : Nat) (g : Port → Port) (s : State) : (updPort n g s).ddrSlabs = s.ddrSlabs := rfl
@[simp] theorem updPort_ddrOff (n : Nat) (g : Port → Port) (s : State) : (updPort n g s).ddrOff = s.ddrOff := rfl
@[simp] theorem updPort_pairSt (n : Nat) (g : Port → Port) (s : State) : (updPort n g s).pairSt = s.pairSt := rfl
@[simp] theorem updPort_strata (n : Nat) (g : Port → Port) (s : State) : (updPort n g s).strata = s.strata := rfl
@[simp] theorem updPort_strCmd (n : Nat) (g : Port → Port) (s : State) : (updPort n g s).strCmd = s.strCmd := rfl
@[simp] theorem updPort_slabWait (n : Nat) (g : Port → Port) (s : State) : (updPort n g s).slabWait = s.slabWait := rfl
@[simp] theorem updPort_rowCe (n : Nat) (g : Port → Port) (s : State) : (updPort n g s).rowCe = s.rowCe := rfl
@[simp] theorem updPort_pprq (n : Nat) (g : Port → Port) (s : State) : (updPort n g s).pprq = s.pprq := rfl
@[simp] theorem updPort_mbx (n : Nat) (g : Port → Port) (s : State) : (updPort n g s).mbx = s.mbx := rfl
@[simp] theorem updPort_mbxSys (n : Nat) (g : Port → Port) (s : State) : (updPort n g s).mbxSys = s.mbxSys := rfl
@[simp] theorem updPort_links (n : Nat) (g : Port → Port) (s : State) : (updPort n g s).links = s.links := rfl
@[simp] theorem updPort_fab (n : Nat) (g : Port → Port) (s : State) : (updPort n g s).fab = s.fab := rfl
@[simp] theorem updPort_live (n : Nat) (g : Port → Port) (s : State) : (updPort n g s).live = s.live := rfl
@[simp] theorem updPort_trace (n : Nat) (g : Port → Port) (s : State) : (updPort n g s).trace = s.trace := rfl
@[simp] theorem updPort_dieIds (n : Nat) (g : Port → Port) (s : State) : (updPort n g s).dieIds = s.dieIds := rfl
@[simp] theorem updPort_uart1 (n : Nat) (g : Port → Port) (s : State) : (updPort n g s).uart1 = s.uart1 := rfl
@[simp] theorem updPort_gpioOwn (n : Nat) (g : Port → Port) (s : State) : (updPort n g s).gpioOwn = s.gpioOwn := rfl
@[simp] theorem updPort_mailMx (n : Nat) (g : Port → Port) (s : State) : (updPort n g s).mailMx = s.mailMx := rfl
@[simp] theorem updPort_bmcMgr (n : Nat) (g : Port → Port) (s : State) : (updPort n g s).bmcMgr = s.bmcMgr := rfl
@[simp] theorem updPort_imsic (n : Nat) (g : Port → Port) (s : State) : (updPort n g s).imsic = s.imsic := rfl
@[simp] theorem updPort_aplic (n : Nat) (g : Port → Port) (s : State) : (updPort n g s).aplic = s.aplic := rfl
@[simp] theorem updPort_uart (n : Nat) (g : Port → Port) (s : State) : (updPort n g s).uart = s.uart := rfl
@[simp] theorem updPort_gpioIn (n : Nat) (g : Port → Port) (s : State) : (updPort n g s).gpioIn = s.gpioIn := rfl
@[simp] theorem updPort_gpioRep (n : Nat) (g : Port → Port) (s : State) : (updPort n g s).gpioRep = s.gpioRep := rfl
@[simp] theorem updPort_msix (n : Nat) (g : Port → Port) (s : State) : (updPort n g s).msix = s.msix := rfl
@[simp] theorem updPort_reports (n : Nat) (g : Port → Port) (s : State) : (updPort n g s).reports = s.reports := rfl
@[simp] theorem updPort_rps (n : Nat) (g : Port → Port) (s : State) : (updPort n g s).rps = s.rps := rfl
@[simp] theorem updPort_pairP (n : Nat) (g : Port → Port) (s : State) : (updPort n g s).pairP = s.pairP := rfl
@[simp] theorem updPort_pair (n : Nat) (g : Port → Port) (s : State) : (updPort n g s).pair = s.pair := rfl
@[simp] theorem updPort_cox (n : Nat) (g : Port → Port) (s : State) : (updPort n g s).cox = s.cox := rfl
@[simp] theorem updPort_drives (n : Nat) (g : Port → Port) (s : State) : (updPort n g s).drives = s.drives := rfl
@[simp] theorem updPort_bh (n : Nat) (g : Port → Port) (s : State) : (updPort n g s).bh = s.bh := rfl
@[simp] theorem updPort_catCopies (n : Nat) (g : Port → Port) (s : State) : (updPort n g s).catCopies = s.catCopies := rfl
@[simp] theorem updPort_card (n : Nat) (g : Port → Port) (s : State) : (updPort n g s).card = s.card := rfl

@[simp] theorem updLink_pending (d : Nat) (g : Link → Link) (s : State) : (updLink d g s).pending = s.pending := rfl
@[simp] theorem updLink_free (d : Nat) (g : Link → Link) (s : State) : (updLink d g s).free = s.free := rfl
@[simp] theorem updLink_wires (d : Nat) (g : Link → Link) (s : State) : (updLink d g s).wires = s.wires := rfl
@[simp] theorem updLink_regs (d : Nat) (g : Link → Link) (s : State) : (updLink d g s).regs = s.regs := rfl
@[simp] theorem updLink_lockOpen (d : Nat) (g : Link → Link) (s : State) : (updLink d g s).lockOpen = s.lockOpen := rfl
@[simp] theorem updLink_harts (d : Nat) (g : Link → Link) (s : State) : (updLink d g s).harts = s.harts := rfl
@[simp] theorem updLink_slices (d : Nat) (g : Link → Link) (s : State) : (updLink d g s).slices = s.slices := rfl
@[simp] theorem updLink_dies (d : Nat) (g : Link → Link) (s : State) : (updLink d g s).dies = s.dies := rfl
@[simp] theorem updLink_homes (d : Nat) (g : Link → Link) (s : State) : (updLink d g s).homes = s.homes := rfl
@[simp] theorem updLink_memq (d : Nat) (g : Link → Link) (s : State) : (updLink d g s).memq = s.memq := rfl
@[simp] theorem updLink_mem (d : Nat) (g : Link → Link) (s : State) : (updLink d g s).mem = s.mem := rfl
@[simp] theorem updLink_poison (d : Nat) (g : Link → Link) (s : State) : (updLink d g s).poison = s.poison := rfl
@[simp] theorem updLink_slab (d : Nat) (g : Link → Link) (s : State) : (updLink d g s).slab = s.slab := rfl
@[simp] theorem updLink_slabOld (d : Nat) (g : Link → Link) (s : State) : (updLink d g s).slabOld = s.slabOld := rfl
@[simp] theorem updLink_slabSw (d : Nat) (g : Link → Link) (s : State) : (updLink d g s).slabSw = s.slabSw := rfl
@[simp] theorem updLink_parts (d : Nat) (g : Link → Link) (s : State) : (updLink d g s).parts = s.parts := rfl
@[simp] theorem updLink_flt (d : Nat) (g : Link → Link) (s : State) : (updLink d g s).flt = s.flt := rfl
@[simp] theorem updLink_pins (d : Nat) (g : Link → Link) (s : State) : (updLink d g s).pins = s.pins := rfl
@[simp] theorem updLink_tb (d : Nat) (g : Link → Link) (s : State) : (updLink d g s).tb = s.tb := rfl
@[simp] theorem updLink_ports (d : Nat) (g : Link → Link) (s : State) : (updLink d g s).ports = s.ports := rfl
@[simp] theorem updLink_vis (d : Nat) (g : Link → Link) (s : State) : (updLink d g s).vis = s.vis := rfl
@[simp] theorem updLink_ddrSlabs (d : Nat) (g : Link → Link) (s : State) : (updLink d g s).ddrSlabs = s.ddrSlabs := rfl
@[simp] theorem updLink_ddrOff (d : Nat) (g : Link → Link) (s : State) : (updLink d g s).ddrOff = s.ddrOff := rfl
@[simp] theorem updLink_pairSt (d : Nat) (g : Link → Link) (s : State) : (updLink d g s).pairSt = s.pairSt := rfl
@[simp] theorem updLink_strata (d : Nat) (g : Link → Link) (s : State) : (updLink d g s).strata = s.strata := rfl
@[simp] theorem updLink_strCmd (d : Nat) (g : Link → Link) (s : State) : (updLink d g s).strCmd = s.strCmd := rfl
@[simp] theorem updLink_slabWait (d : Nat) (g : Link → Link) (s : State) : (updLink d g s).slabWait = s.slabWait := rfl
@[simp] theorem updLink_rowCe (d : Nat) (g : Link → Link) (s : State) : (updLink d g s).rowCe = s.rowCe := rfl
@[simp] theorem updLink_pprq (d : Nat) (g : Link → Link) (s : State) : (updLink d g s).pprq = s.pprq := rfl
@[simp] theorem updLink_mbx (d : Nat) (g : Link → Link) (s : State) : (updLink d g s).mbx = s.mbx := rfl
@[simp] theorem updLink_mbxSys (d : Nat) (g : Link → Link) (s : State) : (updLink d g s).mbxSys = s.mbxSys := rfl
@[simp] theorem updLink_links (d : Nat) (g : Link → Link) (s : State) : (updLink d g s).links = mupd s.links d g := rfl
@[simp] theorem updLink_fab (d : Nat) (g : Link → Link) (s : State) : (updLink d g s).fab = s.fab := rfl
@[simp] theorem updLink_live (d : Nat) (g : Link → Link) (s : State) : (updLink d g s).live = s.live := rfl
@[simp] theorem updLink_trace (d : Nat) (g : Link → Link) (s : State) : (updLink d g s).trace = s.trace := rfl
@[simp] theorem updLink_dieIds (d : Nat) (g : Link → Link) (s : State) : (updLink d g s).dieIds = s.dieIds := rfl
@[simp] theorem updLink_uart1 (d : Nat) (g : Link → Link) (s : State) : (updLink d g s).uart1 = s.uart1 := rfl
@[simp] theorem updLink_gpioOwn (d : Nat) (g : Link → Link) (s : State) : (updLink d g s).gpioOwn = s.gpioOwn := rfl
@[simp] theorem updLink_mailMx (d : Nat) (g : Link → Link) (s : State) : (updLink d g s).mailMx = s.mailMx := rfl
@[simp] theorem updLink_bmcMgr (d : Nat) (g : Link → Link) (s : State) : (updLink d g s).bmcMgr = s.bmcMgr := rfl
@[simp] theorem updLink_imsic (d : Nat) (g : Link → Link) (s : State) : (updLink d g s).imsic = s.imsic := rfl
@[simp] theorem updLink_aplic (d : Nat) (g : Link → Link) (s : State) : (updLink d g s).aplic = s.aplic := rfl
@[simp] theorem updLink_uart (d : Nat) (g : Link → Link) (s : State) : (updLink d g s).uart = s.uart := rfl
@[simp] theorem updLink_gpioIn (d : Nat) (g : Link → Link) (s : State) : (updLink d g s).gpioIn = s.gpioIn := rfl
@[simp] theorem updLink_gpioRep (d : Nat) (g : Link → Link) (s : State) : (updLink d g s).gpioRep = s.gpioRep := rfl
@[simp] theorem updLink_msix (d : Nat) (g : Link → Link) (s : State) : (updLink d g s).msix = s.msix := rfl
@[simp] theorem updLink_reports (d : Nat) (g : Link → Link) (s : State) : (updLink d g s).reports = s.reports := rfl
@[simp] theorem updLink_rps (d : Nat) (g : Link → Link) (s : State) : (updLink d g s).rps = s.rps := rfl
@[simp] theorem updLink_pairP (d : Nat) (g : Link → Link) (s : State) : (updLink d g s).pairP = s.pairP := rfl
@[simp] theorem updLink_pair (d : Nat) (g : Link → Link) (s : State) : (updLink d g s).pair = s.pair := rfl
@[simp] theorem updLink_cox (d : Nat) (g : Link → Link) (s : State) : (updLink d g s).cox = s.cox := rfl
@[simp] theorem updLink_drives (d : Nat) (g : Link → Link) (s : State) : (updLink d g s).drives = s.drives := rfl
@[simp] theorem updLink_bh (d : Nat) (g : Link → Link) (s : State) : (updLink d g s).bh = s.bh := rfl
@[simp] theorem updLink_catCopies (d : Nat) (g : Link → Link) (s : State) : (updLink d g s).catCopies = s.catCopies := rfl
@[simp] theorem updLink_card (d : Nat) (g : Link → Link) (s : State) : (updLink d g s).card = s.card := rfl

@[simp] theorem updCard_pending (g : Card → Card) (s : State) : (updCard g s).pending = s.pending := rfl
@[simp] theorem updCard_free (g : Card → Card) (s : State) : (updCard g s).free = s.free := rfl
@[simp] theorem updCard_wires (g : Card → Card) (s : State) : (updCard g s).wires = s.wires := rfl
@[simp] theorem updCard_regs (g : Card → Card) (s : State) : (updCard g s).regs = s.regs := rfl
@[simp] theorem updCard_lockOpen (g : Card → Card) (s : State) : (updCard g s).lockOpen = s.lockOpen := rfl
@[simp] theorem updCard_harts (g : Card → Card) (s : State) : (updCard g s).harts = s.harts := rfl
@[simp] theorem updCard_slices (g : Card → Card) (s : State) : (updCard g s).slices = s.slices := rfl
@[simp] theorem updCard_dies (g : Card → Card) (s : State) : (updCard g s).dies = s.dies := rfl
@[simp] theorem updCard_homes (g : Card → Card) (s : State) : (updCard g s).homes = s.homes := rfl
@[simp] theorem updCard_memq (g : Card → Card) (s : State) : (updCard g s).memq = s.memq := rfl
@[simp] theorem updCard_mem (g : Card → Card) (s : State) : (updCard g s).mem = s.mem := rfl
@[simp] theorem updCard_poison (g : Card → Card) (s : State) : (updCard g s).poison = s.poison := rfl
@[simp] theorem updCard_slab (g : Card → Card) (s : State) : (updCard g s).slab = s.slab := rfl
@[simp] theorem updCard_slabOld (g : Card → Card) (s : State) : (updCard g s).slabOld = s.slabOld := rfl
@[simp] theorem updCard_slabSw (g : Card → Card) (s : State) : (updCard g s).slabSw = s.slabSw := rfl
@[simp] theorem updCard_parts (g : Card → Card) (s : State) : (updCard g s).parts = s.parts := rfl
@[simp] theorem updCard_flt (g : Card → Card) (s : State) : (updCard g s).flt = s.flt := rfl
@[simp] theorem updCard_pins (g : Card → Card) (s : State) : (updCard g s).pins = s.pins := rfl
@[simp] theorem updCard_tb (g : Card → Card) (s : State) : (updCard g s).tb = s.tb := rfl
@[simp] theorem updCard_ports (g : Card → Card) (s : State) : (updCard g s).ports = s.ports := rfl
@[simp] theorem updCard_vis (g : Card → Card) (s : State) : (updCard g s).vis = s.vis := rfl
@[simp] theorem updCard_ddrSlabs (g : Card → Card) (s : State) : (updCard g s).ddrSlabs = s.ddrSlabs := rfl
@[simp] theorem updCard_ddrOff (g : Card → Card) (s : State) : (updCard g s).ddrOff = s.ddrOff := rfl
@[simp] theorem updCard_pairSt (g : Card → Card) (s : State) : (updCard g s).pairSt = s.pairSt := rfl
@[simp] theorem updCard_strata (g : Card → Card) (s : State) : (updCard g s).strata = s.strata := rfl
@[simp] theorem updCard_strCmd (g : Card → Card) (s : State) : (updCard g s).strCmd = s.strCmd := rfl
@[simp] theorem updCard_slabWait (g : Card → Card) (s : State) : (updCard g s).slabWait = s.slabWait := rfl
@[simp] theorem updCard_rowCe (g : Card → Card) (s : State) : (updCard g s).rowCe = s.rowCe := rfl
@[simp] theorem updCard_pprq (g : Card → Card) (s : State) : (updCard g s).pprq = s.pprq := rfl
@[simp] theorem updCard_mbx (g : Card → Card) (s : State) : (updCard g s).mbx = s.mbx := rfl
@[simp] theorem updCard_mbxSys (g : Card → Card) (s : State) : (updCard g s).mbxSys = s.mbxSys := rfl
@[simp] theorem updCard_links (g : Card → Card) (s : State) : (updCard g s).links = s.links := rfl
@[simp] theorem updCard_fab (g : Card → Card) (s : State) : (updCard g s).fab = s.fab := rfl
@[simp] theorem updCard_live (g : Card → Card) (s : State) : (updCard g s).live = s.live := rfl
@[simp] theorem updCard_trace (g : Card → Card) (s : State) : (updCard g s).trace = s.trace := rfl
@[simp] theorem updCard_dieIds (g : Card → Card) (s : State) : (updCard g s).dieIds = s.dieIds := rfl
@[simp] theorem updCard_uart1 (g : Card → Card) (s : State) : (updCard g s).uart1 = s.uart1 := rfl
@[simp] theorem updCard_gpioOwn (g : Card → Card) (s : State) : (updCard g s).gpioOwn = s.gpioOwn := rfl
@[simp] theorem updCard_mailMx (g : Card → Card) (s : State) : (updCard g s).mailMx = s.mailMx := rfl
@[simp] theorem updCard_bmcMgr (g : Card → Card) (s : State) : (updCard g s).bmcMgr = s.bmcMgr := rfl
@[simp] theorem updCard_imsic (g : Card → Card) (s : State) : (updCard g s).imsic = s.imsic := rfl
@[simp] theorem updCard_aplic (g : Card → Card) (s : State) : (updCard g s).aplic = s.aplic := rfl
@[simp] theorem updCard_uart (g : Card → Card) (s : State) : (updCard g s).uart = s.uart := rfl
@[simp] theorem updCard_gpioIn (g : Card → Card) (s : State) : (updCard g s).gpioIn = s.gpioIn := rfl
@[simp] theorem updCard_gpioRep (g : Card → Card) (s : State) : (updCard g s).gpioRep = s.gpioRep := rfl
@[simp] theorem updCard_msix (g : Card → Card) (s : State) : (updCard g s).msix = s.msix := rfl
@[simp] theorem updCard_reports (g : Card → Card) (s : State) : (updCard g s).reports = s.reports := rfl
@[simp] theorem updCard_rps (g : Card → Card) (s : State) : (updCard g s).rps = s.rps := rfl
@[simp] theorem updCard_pairP (g : Card → Card) (s : State) : (updCard g s).pairP = s.pairP := rfl
@[simp] theorem updCard_pair (g : Card → Card) (s : State) : (updCard g s).pair = s.pair := rfl
@[simp] theorem updCard_cox (g : Card → Card) (s : State) : (updCard g s).cox = s.cox := rfl
@[simp] theorem updCard_drives (g : Card → Card) (s : State) : (updCard g s).drives = s.drives := rfl
@[simp] theorem updCard_bh (g : Card → Card) (s : State) : (updCard g s).bh = s.bh := rfl
@[simp] theorem updCard_catCopies (g : Card → Card) (s : State) : (updCard g s).catCopies = s.catCopies := rfl
@[simp] theorem updCard_card (g : Card → Card) (s : State) : (updCard g s).card = g s.card := rfl

@[simp] theorem updFlt_pending (g : FltState → FltState) (s : State) : (updFlt g s).pending = s.pending := rfl
@[simp] theorem updFlt_free (g : FltState → FltState) (s : State) : (updFlt g s).free = s.free := rfl
@[simp] theorem updFlt_wires (g : FltState → FltState) (s : State) : (updFlt g s).wires = s.wires := rfl
@[simp] theorem updFlt_regs (g : FltState → FltState) (s : State) : (updFlt g s).regs = s.regs := rfl
@[simp] theorem updFlt_lockOpen (g : FltState → FltState) (s : State) : (updFlt g s).lockOpen = s.lockOpen := rfl
@[simp] theorem updFlt_harts (g : FltState → FltState) (s : State) : (updFlt g s).harts = s.harts := rfl
@[simp] theorem updFlt_slices (g : FltState → FltState) (s : State) : (updFlt g s).slices = s.slices := rfl
@[simp] theorem updFlt_dies (g : FltState → FltState) (s : State) : (updFlt g s).dies = s.dies := rfl
@[simp] theorem updFlt_homes (g : FltState → FltState) (s : State) : (updFlt g s).homes = s.homes := rfl
@[simp] theorem updFlt_memq (g : FltState → FltState) (s : State) : (updFlt g s).memq = s.memq := rfl
@[simp] theorem updFlt_mem (g : FltState → FltState) (s : State) : (updFlt g s).mem = s.mem := rfl
@[simp] theorem updFlt_poison (g : FltState → FltState) (s : State) : (updFlt g s).poison = s.poison := rfl
@[simp] theorem updFlt_slab (g : FltState → FltState) (s : State) : (updFlt g s).slab = s.slab := rfl
@[simp] theorem updFlt_slabOld (g : FltState → FltState) (s : State) : (updFlt g s).slabOld = s.slabOld := rfl
@[simp] theorem updFlt_slabSw (g : FltState → FltState) (s : State) : (updFlt g s).slabSw = s.slabSw := rfl
@[simp] theorem updFlt_parts (g : FltState → FltState) (s : State) : (updFlt g s).parts = s.parts := rfl
@[simp] theorem updFlt_flt (g : FltState → FltState) (s : State) : (updFlt g s).flt = g s.flt := rfl
@[simp] theorem updFlt_pins (g : FltState → FltState) (s : State) : (updFlt g s).pins = s.pins := rfl
@[simp] theorem updFlt_tb (g : FltState → FltState) (s : State) : (updFlt g s).tb = s.tb := rfl
@[simp] theorem updFlt_ports (g : FltState → FltState) (s : State) : (updFlt g s).ports = s.ports := rfl
@[simp] theorem updFlt_vis (g : FltState → FltState) (s : State) : (updFlt g s).vis = s.vis := rfl
@[simp] theorem updFlt_ddrSlabs (g : FltState → FltState) (s : State) : (updFlt g s).ddrSlabs = s.ddrSlabs := rfl
@[simp] theorem updFlt_ddrOff (g : FltState → FltState) (s : State) : (updFlt g s).ddrOff = s.ddrOff := rfl
@[simp] theorem updFlt_pairSt (g : FltState → FltState) (s : State) : (updFlt g s).pairSt = s.pairSt := rfl
@[simp] theorem updFlt_strata (g : FltState → FltState) (s : State) : (updFlt g s).strata = s.strata := rfl
@[simp] theorem updFlt_strCmd (g : FltState → FltState) (s : State) : (updFlt g s).strCmd = s.strCmd := rfl
@[simp] theorem updFlt_slabWait (g : FltState → FltState) (s : State) : (updFlt g s).slabWait = s.slabWait := rfl
@[simp] theorem updFlt_rowCe (g : FltState → FltState) (s : State) : (updFlt g s).rowCe = s.rowCe := rfl
@[simp] theorem updFlt_pprq (g : FltState → FltState) (s : State) : (updFlt g s).pprq = s.pprq := rfl
@[simp] theorem updFlt_mbx (g : FltState → FltState) (s : State) : (updFlt g s).mbx = s.mbx := rfl
@[simp] theorem updFlt_mbxSys (g : FltState → FltState) (s : State) : (updFlt g s).mbxSys = s.mbxSys := rfl
@[simp] theorem updFlt_links (g : FltState → FltState) (s : State) : (updFlt g s).links = s.links := rfl
@[simp] theorem updFlt_fab (g : FltState → FltState) (s : State) : (updFlt g s).fab = s.fab := rfl
@[simp] theorem updFlt_live (g : FltState → FltState) (s : State) : (updFlt g s).live = s.live := rfl
@[simp] theorem updFlt_trace (g : FltState → FltState) (s : State) : (updFlt g s).trace = s.trace := rfl
@[simp] theorem updFlt_dieIds (g : FltState → FltState) (s : State) : (updFlt g s).dieIds = s.dieIds := rfl
@[simp] theorem updFlt_uart1 (g : FltState → FltState) (s : State) : (updFlt g s).uart1 = s.uart1 := rfl
@[simp] theorem updFlt_gpioOwn (g : FltState → FltState) (s : State) : (updFlt g s).gpioOwn = s.gpioOwn := rfl
@[simp] theorem updFlt_mailMx (g : FltState → FltState) (s : State) : (updFlt g s).mailMx = s.mailMx := rfl
@[simp] theorem updFlt_bmcMgr (g : FltState → FltState) (s : State) : (updFlt g s).bmcMgr = s.bmcMgr := rfl
@[simp] theorem updFlt_imsic (g : FltState → FltState) (s : State) : (updFlt g s).imsic = s.imsic := rfl
@[simp] theorem updFlt_aplic (g : FltState → FltState) (s : State) : (updFlt g s).aplic = s.aplic := rfl
@[simp] theorem updFlt_uart (g : FltState → FltState) (s : State) : (updFlt g s).uart = s.uart := rfl
@[simp] theorem updFlt_gpioIn (g : FltState → FltState) (s : State) : (updFlt g s).gpioIn = s.gpioIn := rfl
@[simp] theorem updFlt_gpioRep (g : FltState → FltState) (s : State) : (updFlt g s).gpioRep = s.gpioRep := rfl
@[simp] theorem updFlt_msix (g : FltState → FltState) (s : State) : (updFlt g s).msix = s.msix := rfl
@[simp] theorem updFlt_reports (g : FltState → FltState) (s : State) : (updFlt g s).reports = s.reports := rfl
@[simp] theorem updFlt_rps (g : FltState → FltState) (s : State) : (updFlt g s).rps = s.rps := rfl
@[simp] theorem updFlt_pairP (g : FltState → FltState) (s : State) : (updFlt g s).pairP = s.pairP := rfl
@[simp] theorem updFlt_pair (g : FltState → FltState) (s : State) : (updFlt g s).pair = s.pair := rfl
@[simp] theorem updFlt_cox (g : FltState → FltState) (s : State) : (updFlt g s).cox = s.cox := rfl
@[simp] theorem updFlt_drives (g : FltState → FltState) (s : State) : (updFlt g s).drives = s.drives := rfl
@[simp] theorem updFlt_bh (g : FltState → FltState) (s : State) : (updFlt g s).bh = s.bh := rfl
@[simp] theorem updFlt_catCopies (g : FltState → FltState) (s : State) : (updFlt g s).catCopies = s.catCopies := rfl
@[simp] theorem updFlt_card (g : FltState → FltState) (s : State) : (updFlt g s).card = s.card := rfl

@[simp] theorem updRp_pending (r : Nat) (g : Rp → Rp) (s : State) : (updRp r g s).pending = s.pending := rfl
@[simp] theorem updRp_free (r : Nat) (g : Rp → Rp) (s : State) : (updRp r g s).free = s.free := rfl
@[simp] theorem updRp_wires (r : Nat) (g : Rp → Rp) (s : State) : (updRp r g s).wires = s.wires := rfl
@[simp] theorem updRp_regs (r : Nat) (g : Rp → Rp) (s : State) : (updRp r g s).regs = s.regs := rfl
@[simp] theorem updRp_lockOpen (r : Nat) (g : Rp → Rp) (s : State) : (updRp r g s).lockOpen = s.lockOpen := rfl
@[simp] theorem updRp_harts (r : Nat) (g : Rp → Rp) (s : State) : (updRp r g s).harts = s.harts := rfl
@[simp] theorem updRp_slices (r : Nat) (g : Rp → Rp) (s : State) : (updRp r g s).slices = s.slices := rfl
@[simp] theorem updRp_dies (r : Nat) (g : Rp → Rp) (s : State) : (updRp r g s).dies = s.dies := rfl
@[simp] theorem updRp_homes (r : Nat) (g : Rp → Rp) (s : State) : (updRp r g s).homes = s.homes := rfl
@[simp] theorem updRp_memq (r : Nat) (g : Rp → Rp) (s : State) : (updRp r g s).memq = s.memq := rfl
@[simp] theorem updRp_mem (r : Nat) (g : Rp → Rp) (s : State) : (updRp r g s).mem = s.mem := rfl
@[simp] theorem updRp_poison (r : Nat) (g : Rp → Rp) (s : State) : (updRp r g s).poison = s.poison := rfl
@[simp] theorem updRp_slab (r : Nat) (g : Rp → Rp) (s : State) : (updRp r g s).slab = s.slab := rfl
@[simp] theorem updRp_slabOld (r : Nat) (g : Rp → Rp) (s : State) : (updRp r g s).slabOld = s.slabOld := rfl
@[simp] theorem updRp_slabSw (r : Nat) (g : Rp → Rp) (s : State) : (updRp r g s).slabSw = s.slabSw := rfl
@[simp] theorem updRp_parts (r : Nat) (g : Rp → Rp) (s : State) : (updRp r g s).parts = s.parts := rfl
@[simp] theorem updRp_flt (r : Nat) (g : Rp → Rp) (s : State) : (updRp r g s).flt = s.flt := rfl
@[simp] theorem updRp_pins (r : Nat) (g : Rp → Rp) (s : State) : (updRp r g s).pins = s.pins := rfl
@[simp] theorem updRp_tb (r : Nat) (g : Rp → Rp) (s : State) : (updRp r g s).tb = s.tb := rfl
@[simp] theorem updRp_ports (r : Nat) (g : Rp → Rp) (s : State) : (updRp r g s).ports = s.ports := rfl
@[simp] theorem updRp_vis (r : Nat) (g : Rp → Rp) (s : State) : (updRp r g s).vis = s.vis := rfl
@[simp] theorem updRp_ddrSlabs (r : Nat) (g : Rp → Rp) (s : State) : (updRp r g s).ddrSlabs = s.ddrSlabs := rfl
@[simp] theorem updRp_ddrOff (r : Nat) (g : Rp → Rp) (s : State) : (updRp r g s).ddrOff = s.ddrOff := rfl
@[simp] theorem updRp_pairSt (r : Nat) (g : Rp → Rp) (s : State) : (updRp r g s).pairSt = s.pairSt := rfl
@[simp] theorem updRp_strata (r : Nat) (g : Rp → Rp) (s : State) : (updRp r g s).strata = s.strata := rfl
@[simp] theorem updRp_strCmd (r : Nat) (g : Rp → Rp) (s : State) : (updRp r g s).strCmd = s.strCmd := rfl
@[simp] theorem updRp_slabWait (r : Nat) (g : Rp → Rp) (s : State) : (updRp r g s).slabWait = s.slabWait := rfl
@[simp] theorem updRp_rowCe (r : Nat) (g : Rp → Rp) (s : State) : (updRp r g s).rowCe = s.rowCe := rfl
@[simp] theorem updRp_pprq (r : Nat) (g : Rp → Rp) (s : State) : (updRp r g s).pprq = s.pprq := rfl
@[simp] theorem updRp_mbx (r : Nat) (g : Rp → Rp) (s : State) : (updRp r g s).mbx = s.mbx := rfl
@[simp] theorem updRp_mbxSys (r : Nat) (g : Rp → Rp) (s : State) : (updRp r g s).mbxSys = s.mbxSys := rfl
@[simp] theorem updRp_links (r : Nat) (g : Rp → Rp) (s : State) : (updRp r g s).links = s.links := rfl
@[simp] theorem updRp_fab (r : Nat) (g : Rp → Rp) (s : State) : (updRp r g s).fab = s.fab := rfl
@[simp] theorem updRp_live (r : Nat) (g : Rp → Rp) (s : State) : (updRp r g s).live = s.live := rfl
@[simp] theorem updRp_trace (r : Nat) (g : Rp → Rp) (s : State) : (updRp r g s).trace = s.trace := rfl
@[simp] theorem updRp_dieIds (r : Nat) (g : Rp → Rp) (s : State) : (updRp r g s).dieIds = s.dieIds := rfl
@[simp] theorem updRp_uart1 (r : Nat) (g : Rp → Rp) (s : State) : (updRp r g s).uart1 = s.uart1 := rfl
@[simp] theorem updRp_gpioOwn (r : Nat) (g : Rp → Rp) (s : State) : (updRp r g s).gpioOwn = s.gpioOwn := rfl
@[simp] theorem updRp_mailMx (r : Nat) (g : Rp → Rp) (s : State) : (updRp r g s).mailMx = s.mailMx := rfl
@[simp] theorem updRp_bmcMgr (r : Nat) (g : Rp → Rp) (s : State) : (updRp r g s).bmcMgr = s.bmcMgr := rfl
@[simp] theorem updRp_imsic (r : Nat) (g : Rp → Rp) (s : State) : (updRp r g s).imsic = s.imsic := rfl
@[simp] theorem updRp_aplic (r : Nat) (g : Rp → Rp) (s : State) : (updRp r g s).aplic = s.aplic := rfl
@[simp] theorem updRp_uart (r : Nat) (g : Rp → Rp) (s : State) : (updRp r g s).uart = s.uart := rfl
@[simp] theorem updRp_gpioIn (r : Nat) (g : Rp → Rp) (s : State) : (updRp r g s).gpioIn = s.gpioIn := rfl
@[simp] theorem updRp_gpioRep (r : Nat) (g : Rp → Rp) (s : State) : (updRp r g s).gpioRep = s.gpioRep := rfl
@[simp] theorem updRp_msix (r : Nat) (g : Rp → Rp) (s : State) : (updRp r g s).msix = s.msix := rfl
@[simp] theorem updRp_reports (r : Nat) (g : Rp → Rp) (s : State) : (updRp r g s).reports = s.reports := rfl
@[simp] theorem updRp_rps (r : Nat) (g : Rp → Rp) (s : State) : (updRp r g s).rps = mupd s.rps r g := rfl
@[simp] theorem updRp_pairP (r : Nat) (g : Rp → Rp) (s : State) : (updRp r g s).pairP = s.pairP := rfl
@[simp] theorem updRp_pair (r : Nat) (g : Rp → Rp) (s : State) : (updRp r g s).pair = s.pair := rfl
@[simp] theorem updRp_cox (r : Nat) (g : Rp → Rp) (s : State) : (updRp r g s).cox = s.cox := rfl
@[simp] theorem updRp_drives (r : Nat) (g : Rp → Rp) (s : State) : (updRp r g s).drives = s.drives := rfl
@[simp] theorem updRp_bh (r : Nat) (g : Rp → Rp) (s : State) : (updRp r g s).bh = s.bh := rfl
@[simp] theorem updRp_catCopies (r : Nat) (g : Rp → Rp) (s : State) : (updRp r g s).catCopies = s.catCopies := rfl
@[simp] theorem updRp_card (r : Nat) (g : Rp → Rp) (s : State) : (updRp r g s).card = s.card := rfl

@[simp] theorem updBh_pending (g : Bh → Bh) (s : State) : (updBh g s).pending = s.pending := rfl
@[simp] theorem updBh_free (g : Bh → Bh) (s : State) : (updBh g s).free = s.free := rfl
@[simp] theorem updBh_wires (g : Bh → Bh) (s : State) : (updBh g s).wires = s.wires := rfl
@[simp] theorem updBh_regs (g : Bh → Bh) (s : State) : (updBh g s).regs = s.regs := rfl
@[simp] theorem updBh_lockOpen (g : Bh → Bh) (s : State) : (updBh g s).lockOpen = s.lockOpen := rfl
@[simp] theorem updBh_harts (g : Bh → Bh) (s : State) : (updBh g s).harts = s.harts := rfl
@[simp] theorem updBh_slices (g : Bh → Bh) (s : State) : (updBh g s).slices = s.slices := rfl
@[simp] theorem updBh_dies (g : Bh → Bh) (s : State) : (updBh g s).dies = s.dies := rfl
@[simp] theorem updBh_homes (g : Bh → Bh) (s : State) : (updBh g s).homes = s.homes := rfl
@[simp] theorem updBh_memq (g : Bh → Bh) (s : State) : (updBh g s).memq = s.memq := rfl
@[simp] theorem updBh_mem (g : Bh → Bh) (s : State) : (updBh g s).mem = s.mem := rfl
@[simp] theorem updBh_poison (g : Bh → Bh) (s : State) : (updBh g s).poison = s.poison := rfl
@[simp] theorem updBh_slab (g : Bh → Bh) (s : State) : (updBh g s).slab = s.slab := rfl
@[simp] theorem updBh_slabOld (g : Bh → Bh) (s : State) : (updBh g s).slabOld = s.slabOld := rfl
@[simp] theorem updBh_slabSw (g : Bh → Bh) (s : State) : (updBh g s).slabSw = s.slabSw := rfl
@[simp] theorem updBh_parts (g : Bh → Bh) (s : State) : (updBh g s).parts = s.parts := rfl
@[simp] theorem updBh_flt (g : Bh → Bh) (s : State) : (updBh g s).flt = s.flt := rfl
@[simp] theorem updBh_pins (g : Bh → Bh) (s : State) : (updBh g s).pins = s.pins := rfl
@[simp] theorem updBh_tb (g : Bh → Bh) (s : State) : (updBh g s).tb = s.tb := rfl
@[simp] theorem updBh_ports (g : Bh → Bh) (s : State) : (updBh g s).ports = s.ports := rfl
@[simp] theorem updBh_vis (g : Bh → Bh) (s : State) : (updBh g s).vis = s.vis := rfl
@[simp] theorem updBh_ddrSlabs (g : Bh → Bh) (s : State) : (updBh g s).ddrSlabs = s.ddrSlabs := rfl
@[simp] theorem updBh_ddrOff (g : Bh → Bh) (s : State) : (updBh g s).ddrOff = s.ddrOff := rfl
@[simp] theorem updBh_pairSt (g : Bh → Bh) (s : State) : (updBh g s).pairSt = s.pairSt := rfl
@[simp] theorem updBh_strata (g : Bh → Bh) (s : State) : (updBh g s).strata = s.strata := rfl
@[simp] theorem updBh_strCmd (g : Bh → Bh) (s : State) : (updBh g s).strCmd = s.strCmd := rfl
@[simp] theorem updBh_slabWait (g : Bh → Bh) (s : State) : (updBh g s).slabWait = s.slabWait := rfl
@[simp] theorem updBh_rowCe (g : Bh → Bh) (s : State) : (updBh g s).rowCe = s.rowCe := rfl
@[simp] theorem updBh_pprq (g : Bh → Bh) (s : State) : (updBh g s).pprq = s.pprq := rfl
@[simp] theorem updBh_mbx (g : Bh → Bh) (s : State) : (updBh g s).mbx = s.mbx := rfl
@[simp] theorem updBh_mbxSys (g : Bh → Bh) (s : State) : (updBh g s).mbxSys = s.mbxSys := rfl
@[simp] theorem updBh_links (g : Bh → Bh) (s : State) : (updBh g s).links = s.links := rfl
@[simp] theorem updBh_fab (g : Bh → Bh) (s : State) : (updBh g s).fab = s.fab := rfl
@[simp] theorem updBh_live (g : Bh → Bh) (s : State) : (updBh g s).live = s.live := rfl
@[simp] theorem updBh_trace (g : Bh → Bh) (s : State) : (updBh g s).trace = s.trace := rfl
@[simp] theorem updBh_dieIds (g : Bh → Bh) (s : State) : (updBh g s).dieIds = s.dieIds := rfl
@[simp] theorem updBh_uart1 (g : Bh → Bh) (s : State) : (updBh g s).uart1 = s.uart1 := rfl
@[simp] theorem updBh_gpioOwn (g : Bh → Bh) (s : State) : (updBh g s).gpioOwn = s.gpioOwn := rfl
@[simp] theorem updBh_mailMx (g : Bh → Bh) (s : State) : (updBh g s).mailMx = s.mailMx := rfl
@[simp] theorem updBh_bmcMgr (g : Bh → Bh) (s : State) : (updBh g s).bmcMgr = s.bmcMgr := rfl
@[simp] theorem updBh_imsic (g : Bh → Bh) (s : State) : (updBh g s).imsic = s.imsic := rfl
@[simp] theorem updBh_aplic (g : Bh → Bh) (s : State) : (updBh g s).aplic = s.aplic := rfl
@[simp] theorem updBh_uart (g : Bh → Bh) (s : State) : (updBh g s).uart = s.uart := rfl
@[simp] theorem updBh_gpioIn (g : Bh → Bh) (s : State) : (updBh g s).gpioIn = s.gpioIn := rfl
@[simp] theorem updBh_gpioRep (g : Bh → Bh) (s : State) : (updBh g s).gpioRep = s.gpioRep := rfl
@[simp] theorem updBh_msix (g : Bh → Bh) (s : State) : (updBh g s).msix = s.msix := rfl
@[simp] theorem updBh_reports (g : Bh → Bh) (s : State) : (updBh g s).reports = s.reports := rfl
@[simp] theorem updBh_rps (g : Bh → Bh) (s : State) : (updBh g s).rps = s.rps := rfl
@[simp] theorem updBh_pairP (g : Bh → Bh) (s : State) : (updBh g s).pairP = s.pairP := rfl
@[simp] theorem updBh_pair (g : Bh → Bh) (s : State) : (updBh g s).pair = s.pair := rfl
@[simp] theorem updBh_cox (g : Bh → Bh) (s : State) : (updBh g s).cox = s.cox := rfl
@[simp] theorem updBh_drives (g : Bh → Bh) (s : State) : (updBh g s).drives = s.drives := rfl
@[simp] theorem updBh_bh (g : Bh → Bh) (s : State) : (updBh g s).bh = g s.bh := rfl
@[simp] theorem updBh_catCopies (g : Bh → Bh) (s : State) : (updBh g s).catCopies = s.catCopies := rfl
@[simp] theorem updBh_card (g : Bh → Bh) (s : State) : (updBh g s).card = s.card := rfl

@[simp] theorem setReg_pending (f off : Nat) (v : Word) (s : State) : (setReg f off v s).pending = s.pending := rfl
@[simp] theorem setReg_free (f off : Nat) (v : Word) (s : State) : (setReg f off v s).free = s.free := rfl
@[simp] theorem setReg_wires (f off : Nat) (v : Word) (s : State) : (setReg f off v s).wires = s.wires := rfl
@[simp] theorem setReg_lockOpen (f off : Nat) (v : Word) (s : State) : (setReg f off v s).lockOpen = s.lockOpen := rfl
@[simp] theorem setReg_harts (f off : Nat) (v : Word) (s : State) : (setReg f off v s).harts = s.harts := rfl
@[simp] theorem setReg_slices (f off : Nat) (v : Word) (s : State) : (setReg f off v s).slices = s.slices := rfl
@[simp] theorem setReg_dies (f off : Nat) (v : Word) (s : State) : (setReg f off v s).dies = s.dies := rfl
@[simp] theorem setReg_homes (f off : Nat) (v : Word) (s : State) : (setReg f off v s).homes = s.homes := rfl
@[simp] theorem setReg_memq (f off : Nat) (v : Word) (s : State) : (setReg f off v s).memq = s.memq := rfl
@[simp] theorem setReg_mem (f off : Nat) (v : Word) (s : State) : (setReg f off v s).mem = s.mem := rfl
@[simp] theorem setReg_poison (f off : Nat) (v : Word) (s : State) : (setReg f off v s).poison = s.poison := rfl
@[simp] theorem setReg_slab (f off : Nat) (v : Word) (s : State) : (setReg f off v s).slab = s.slab := rfl
@[simp] theorem setReg_slabOld (f off : Nat) (v : Word) (s : State) : (setReg f off v s).slabOld = s.slabOld := rfl
@[simp] theorem setReg_slabSw (f off : Nat) (v : Word) (s : State) : (setReg f off v s).slabSw = s.slabSw := rfl
@[simp] theorem setReg_parts (f off : Nat) (v : Word) (s : State) : (setReg f off v s).parts = s.parts := rfl
@[simp] theorem setReg_flt (f off : Nat) (v : Word) (s : State) : (setReg f off v s).flt = s.flt := rfl
@[simp] theorem setReg_pins (f off : Nat) (v : Word) (s : State) : (setReg f off v s).pins = s.pins := rfl
@[simp] theorem setReg_tb (f off : Nat) (v : Word) (s : State) : (setReg f off v s).tb = s.tb := rfl
@[simp] theorem setReg_ports (f off : Nat) (v : Word) (s : State) : (setReg f off v s).ports = s.ports := rfl
@[simp] theorem setReg_vis (f off : Nat) (v : Word) (s : State) : (setReg f off v s).vis = s.vis := rfl
@[simp] theorem setReg_ddrSlabs (f off : Nat) (v : Word) (s : State) : (setReg f off v s).ddrSlabs = s.ddrSlabs := rfl
@[simp] theorem setReg_ddrOff (f off : Nat) (v : Word) (s : State) : (setReg f off v s).ddrOff = s.ddrOff := rfl
@[simp] theorem setReg_pairSt (f off : Nat) (v : Word) (s : State) : (setReg f off v s).pairSt = s.pairSt := rfl
@[simp] theorem setReg_strata (f off : Nat) (v : Word) (s : State) : (setReg f off v s).strata = s.strata := rfl
@[simp] theorem setReg_strCmd (f off : Nat) (v : Word) (s : State) : (setReg f off v s).strCmd = s.strCmd := rfl
@[simp] theorem setReg_slabWait (f off : Nat) (v : Word) (s : State) : (setReg f off v s).slabWait = s.slabWait := rfl
@[simp] theorem setReg_rowCe (f off : Nat) (v : Word) (s : State) : (setReg f off v s).rowCe = s.rowCe := rfl
@[simp] theorem setReg_pprq (f off : Nat) (v : Word) (s : State) : (setReg f off v s).pprq = s.pprq := rfl
@[simp] theorem setReg_mbx (f off : Nat) (v : Word) (s : State) : (setReg f off v s).mbx = s.mbx := rfl
@[simp] theorem setReg_mbxSys (f off : Nat) (v : Word) (s : State) : (setReg f off v s).mbxSys = s.mbxSys := rfl
@[simp] theorem setReg_links (f off : Nat) (v : Word) (s : State) : (setReg f off v s).links = s.links := rfl
@[simp] theorem setReg_fab (f off : Nat) (v : Word) (s : State) : (setReg f off v s).fab = s.fab := rfl
@[simp] theorem setReg_live (f off : Nat) (v : Word) (s : State) : (setReg f off v s).live = s.live := rfl
@[simp] theorem setReg_trace (f off : Nat) (v : Word) (s : State) : (setReg f off v s).trace = s.trace := rfl
@[simp] theorem setReg_dieIds (f off : Nat) (v : Word) (s : State) : (setReg f off v s).dieIds = s.dieIds := rfl
@[simp] theorem setReg_uart1 (f off : Nat) (v : Word) (s : State) : (setReg f off v s).uart1 = s.uart1 := rfl
@[simp] theorem setReg_gpioOwn (f off : Nat) (v : Word) (s : State) : (setReg f off v s).gpioOwn = s.gpioOwn := rfl
@[simp] theorem setReg_mailMx (f off : Nat) (v : Word) (s : State) : (setReg f off v s).mailMx = s.mailMx := rfl
@[simp] theorem setReg_bmcMgr (f off : Nat) (v : Word) (s : State) : (setReg f off v s).bmcMgr = s.bmcMgr := rfl
@[simp] theorem setReg_imsic (f off : Nat) (v : Word) (s : State) : (setReg f off v s).imsic = s.imsic := rfl
@[simp] theorem setReg_aplic (f off : Nat) (v : Word) (s : State) : (setReg f off v s).aplic = s.aplic := rfl
@[simp] theorem setReg_uart (f off : Nat) (v : Word) (s : State) : (setReg f off v s).uart = s.uart := rfl
@[simp] theorem setReg_gpioIn (f off : Nat) (v : Word) (s : State) : (setReg f off v s).gpioIn = s.gpioIn := rfl
@[simp] theorem setReg_gpioRep (f off : Nat) (v : Word) (s : State) : (setReg f off v s).gpioRep = s.gpioRep := rfl
@[simp] theorem setReg_msix (f off : Nat) (v : Word) (s : State) : (setReg f off v s).msix = s.msix := rfl
@[simp] theorem setReg_reports (f off : Nat) (v : Word) (s : State) : (setReg f off v s).reports = s.reports := rfl
@[simp] theorem setReg_rps (f off : Nat) (v : Word) (s : State) : (setReg f off v s).rps = s.rps := rfl
@[simp] theorem setReg_pairP (f off : Nat) (v : Word) (s : State) : (setReg f off v s).pairP = s.pairP := rfl
@[simp] theorem setReg_pair (f off : Nat) (v : Word) (s : State) : (setReg f off v s).pair = s.pair := rfl
@[simp] theorem setReg_cox (f off : Nat) (v : Word) (s : State) : (setReg f off v s).cox = s.cox := rfl
@[simp] theorem setReg_drives (f off : Nat) (v : Word) (s : State) : (setReg f off v s).drives = s.drives := rfl
@[simp] theorem setReg_bh (f off : Nat) (v : Word) (s : State) : (setReg f off v s).bh = s.bh := rfl
@[simp] theorem setReg_catCopies (f off : Nat) (v : Word) (s : State) : (setReg f off v s).catCopies = s.catCopies := rfl
@[simp] theorem setReg_card (f off : Nat) (v : Word) (s : State) : (setReg f off v s).card = s.card := rfl

@[simp] theorem setFld_pending (f off lo w v : Nat) (s : State) : (setFld f off lo w v s).pending = s.pending := rfl
@[simp] theorem setFld_free (f off lo w v : Nat) (s : State) : (setFld f off lo w v s).free = s.free := rfl
@[simp] theorem setFld_wires (f off lo w v : Nat) (s : State) : (setFld f off lo w v s).wires = s.wires := rfl
@[simp] theorem setFld_lockOpen (f off lo w v : Nat) (s : State) : (setFld f off lo w v s).lockOpen = s.lockOpen := rfl
@[simp] theorem setFld_harts (f off lo w v : Nat) (s : State) : (setFld f off lo w v s).harts = s.harts := rfl
@[simp] theorem setFld_slices (f off lo w v : Nat) (s : State) : (setFld f off lo w v s).slices = s.slices := rfl
@[simp] theorem setFld_dies (f off lo w v : Nat) (s : State) : (setFld f off lo w v s).dies = s.dies := rfl
@[simp] theorem setFld_homes (f off lo w v : Nat) (s : State) : (setFld f off lo w v s).homes = s.homes := rfl
@[simp] theorem setFld_memq (f off lo w v : Nat) (s : State) : (setFld f off lo w v s).memq = s.memq := rfl
@[simp] theorem setFld_mem (f off lo w v : Nat) (s : State) : (setFld f off lo w v s).mem = s.mem := rfl
@[simp] theorem setFld_poison (f off lo w v : Nat) (s : State) : (setFld f off lo w v s).poison = s.poison := rfl
@[simp] theorem setFld_slab (f off lo w v : Nat) (s : State) : (setFld f off lo w v s).slab = s.slab := rfl
@[simp] theorem setFld_slabOld (f off lo w v : Nat) (s : State) : (setFld f off lo w v s).slabOld = s.slabOld := rfl
@[simp] theorem setFld_slabSw (f off lo w v : Nat) (s : State) : (setFld f off lo w v s).slabSw = s.slabSw := rfl
@[simp] theorem setFld_parts (f off lo w v : Nat) (s : State) : (setFld f off lo w v s).parts = s.parts := rfl
@[simp] theorem setFld_flt (f off lo w v : Nat) (s : State) : (setFld f off lo w v s).flt = s.flt := rfl
@[simp] theorem setFld_pins (f off lo w v : Nat) (s : State) : (setFld f off lo w v s).pins = s.pins := rfl
@[simp] theorem setFld_tb (f off lo w v : Nat) (s : State) : (setFld f off lo w v s).tb = s.tb := rfl
@[simp] theorem setFld_ports (f off lo w v : Nat) (s : State) : (setFld f off lo w v s).ports = s.ports := rfl
@[simp] theorem setFld_vis (f off lo w v : Nat) (s : State) : (setFld f off lo w v s).vis = s.vis := rfl
@[simp] theorem setFld_ddrSlabs (f off lo w v : Nat) (s : State) : (setFld f off lo w v s).ddrSlabs = s.ddrSlabs := rfl
@[simp] theorem setFld_ddrOff (f off lo w v : Nat) (s : State) : (setFld f off lo w v s).ddrOff = s.ddrOff := rfl
@[simp] theorem setFld_pairSt (f off lo w v : Nat) (s : State) : (setFld f off lo w v s).pairSt = s.pairSt := rfl
@[simp] theorem setFld_strata (f off lo w v : Nat) (s : State) : (setFld f off lo w v s).strata = s.strata := rfl
@[simp] theorem setFld_strCmd (f off lo w v : Nat) (s : State) : (setFld f off lo w v s).strCmd = s.strCmd := rfl
@[simp] theorem setFld_slabWait (f off lo w v : Nat) (s : State) : (setFld f off lo w v s).slabWait = s.slabWait := rfl
@[simp] theorem setFld_rowCe (f off lo w v : Nat) (s : State) : (setFld f off lo w v s).rowCe = s.rowCe := rfl
@[simp] theorem setFld_pprq (f off lo w v : Nat) (s : State) : (setFld f off lo w v s).pprq = s.pprq := rfl
@[simp] theorem setFld_mbx (f off lo w v : Nat) (s : State) : (setFld f off lo w v s).mbx = s.mbx := rfl
@[simp] theorem setFld_mbxSys (f off lo w v : Nat) (s : State) : (setFld f off lo w v s).mbxSys = s.mbxSys := rfl
@[simp] theorem setFld_links (f off lo w v : Nat) (s : State) : (setFld f off lo w v s).links = s.links := rfl
@[simp] theorem setFld_fab (f off lo w v : Nat) (s : State) : (setFld f off lo w v s).fab = s.fab := rfl
@[simp] theorem setFld_live (f off lo w v : Nat) (s : State) : (setFld f off lo w v s).live = s.live := rfl
@[simp] theorem setFld_trace (f off lo w v : Nat) (s : State) : (setFld f off lo w v s).trace = s.trace := rfl
@[simp] theorem setFld_dieIds (f off lo w v : Nat) (s : State) : (setFld f off lo w v s).dieIds = s.dieIds := rfl
@[simp] theorem setFld_uart1 (f off lo w v : Nat) (s : State) : (setFld f off lo w v s).uart1 = s.uart1 := rfl
@[simp] theorem setFld_gpioOwn (f off lo w v : Nat) (s : State) : (setFld f off lo w v s).gpioOwn = s.gpioOwn := rfl
@[simp] theorem setFld_mailMx (f off lo w v : Nat) (s : State) : (setFld f off lo w v s).mailMx = s.mailMx := rfl
@[simp] theorem setFld_bmcMgr (f off lo w v : Nat) (s : State) : (setFld f off lo w v s).bmcMgr = s.bmcMgr := rfl
@[simp] theorem setFld_imsic (f off lo w v : Nat) (s : State) : (setFld f off lo w v s).imsic = s.imsic := rfl
@[simp] theorem setFld_aplic (f off lo w v : Nat) (s : State) : (setFld f off lo w v s).aplic = s.aplic := rfl
@[simp] theorem setFld_uart (f off lo w v : Nat) (s : State) : (setFld f off lo w v s).uart = s.uart := rfl
@[simp] theorem setFld_gpioIn (f off lo w v : Nat) (s : State) : (setFld f off lo w v s).gpioIn = s.gpioIn := rfl
@[simp] theorem setFld_gpioRep (f off lo w v : Nat) (s : State) : (setFld f off lo w v s).gpioRep = s.gpioRep := rfl
@[simp] theorem setFld_msix (f off lo w v : Nat) (s : State) : (setFld f off lo w v s).msix = s.msix := rfl
@[simp] theorem setFld_reports (f off lo w v : Nat) (s : State) : (setFld f off lo w v s).reports = s.reports := rfl
@[simp] theorem setFld_rps (f off lo w v : Nat) (s : State) : (setFld f off lo w v s).rps = s.rps := rfl
@[simp] theorem setFld_pairP (f off lo w v : Nat) (s : State) : (setFld f off lo w v s).pairP = s.pairP := rfl
@[simp] theorem setFld_pair (f off lo w v : Nat) (s : State) : (setFld f off lo w v s).pair = s.pair := rfl
@[simp] theorem setFld_cox (f off lo w v : Nat) (s : State) : (setFld f off lo w v s).cox = s.cox := rfl
@[simp] theorem setFld_drives (f off lo w v : Nat) (s : State) : (setFld f off lo w v s).drives = s.drives := rfl
@[simp] theorem setFld_bh (f off lo w v : Nat) (s : State) : (setFld f off lo w v s).bh = s.bh := rfl
@[simp] theorem setFld_catCopies (f off lo w v : Nat) (s : State) : (setFld f off lo w v s).catCopies = s.catCopies := rfl
@[simp] theorem setFld_card (f off lo w v : Nat) (s : State) : (setFld f off lo w v s).card = s.card := rfl

@[simp] theorem setBit_pending (f off i : Nat) (s : State) : (setBit f off i s).pending = s.pending := rfl
@[simp] theorem setBit_free (f off i : Nat) (s : State) : (setBit f off i s).free = s.free := rfl
@[simp] theorem setBit_wires (f off i : Nat) (s : State) : (setBit f off i s).wires = s.wires := rfl
@[simp] theorem setBit_lockOpen (f off i : Nat) (s : State) : (setBit f off i s).lockOpen = s.lockOpen := rfl
@[simp] theorem setBit_harts (f off i : Nat) (s : State) : (setBit f off i s).harts = s.harts := rfl
@[simp] theorem setBit_slices (f off i : Nat) (s : State) : (setBit f off i s).slices = s.slices := rfl
@[simp] theorem setBit_dies (f off i : Nat) (s : State) : (setBit f off i s).dies = s.dies := rfl
@[simp] theorem setBit_homes (f off i : Nat) (s : State) : (setBit f off i s).homes = s.homes := rfl
@[simp] theorem setBit_memq (f off i : Nat) (s : State) : (setBit f off i s).memq = s.memq := rfl
@[simp] theorem setBit_mem (f off i : Nat) (s : State) : (setBit f off i s).mem = s.mem := rfl
@[simp] theorem setBit_poison (f off i : Nat) (s : State) : (setBit f off i s).poison = s.poison := rfl
@[simp] theorem setBit_slab (f off i : Nat) (s : State) : (setBit f off i s).slab = s.slab := rfl
@[simp] theorem setBit_slabOld (f off i : Nat) (s : State) : (setBit f off i s).slabOld = s.slabOld := rfl
@[simp] theorem setBit_slabSw (f off i : Nat) (s : State) : (setBit f off i s).slabSw = s.slabSw := rfl
@[simp] theorem setBit_parts (f off i : Nat) (s : State) : (setBit f off i s).parts = s.parts := rfl
@[simp] theorem setBit_flt (f off i : Nat) (s : State) : (setBit f off i s).flt = s.flt := rfl
@[simp] theorem setBit_pins (f off i : Nat) (s : State) : (setBit f off i s).pins = s.pins := rfl
@[simp] theorem setBit_tb (f off i : Nat) (s : State) : (setBit f off i s).tb = s.tb := rfl
@[simp] theorem setBit_ports (f off i : Nat) (s : State) : (setBit f off i s).ports = s.ports := rfl
@[simp] theorem setBit_vis (f off i : Nat) (s : State) : (setBit f off i s).vis = s.vis := rfl
@[simp] theorem setBit_ddrSlabs (f off i : Nat) (s : State) : (setBit f off i s).ddrSlabs = s.ddrSlabs := rfl
@[simp] theorem setBit_ddrOff (f off i : Nat) (s : State) : (setBit f off i s).ddrOff = s.ddrOff := rfl
@[simp] theorem setBit_pairSt (f off i : Nat) (s : State) : (setBit f off i s).pairSt = s.pairSt := rfl
@[simp] theorem setBit_strata (f off i : Nat) (s : State) : (setBit f off i s).strata = s.strata := rfl
@[simp] theorem setBit_strCmd (f off i : Nat) (s : State) : (setBit f off i s).strCmd = s.strCmd := rfl
@[simp] theorem setBit_slabWait (f off i : Nat) (s : State) : (setBit f off i s).slabWait = s.slabWait := rfl
@[simp] theorem setBit_rowCe (f off i : Nat) (s : State) : (setBit f off i s).rowCe = s.rowCe := rfl
@[simp] theorem setBit_pprq (f off i : Nat) (s : State) : (setBit f off i s).pprq = s.pprq := rfl
@[simp] theorem setBit_mbx (f off i : Nat) (s : State) : (setBit f off i s).mbx = s.mbx := rfl
@[simp] theorem setBit_mbxSys (f off i : Nat) (s : State) : (setBit f off i s).mbxSys = s.mbxSys := rfl
@[simp] theorem setBit_links (f off i : Nat) (s : State) : (setBit f off i s).links = s.links := rfl
@[simp] theorem setBit_fab (f off i : Nat) (s : State) : (setBit f off i s).fab = s.fab := rfl
@[simp] theorem setBit_live (f off i : Nat) (s : State) : (setBit f off i s).live = s.live := rfl
@[simp] theorem setBit_trace (f off i : Nat) (s : State) : (setBit f off i s).trace = s.trace := rfl
@[simp] theorem setBit_dieIds (f off i : Nat) (s : State) : (setBit f off i s).dieIds = s.dieIds := rfl
@[simp] theorem setBit_uart1 (f off i : Nat) (s : State) : (setBit f off i s).uart1 = s.uart1 := rfl
@[simp] theorem setBit_gpioOwn (f off i : Nat) (s : State) : (setBit f off i s).gpioOwn = s.gpioOwn := rfl
@[simp] theorem setBit_mailMx (f off i : Nat) (s : State) : (setBit f off i s).mailMx = s.mailMx := rfl
@[simp] theorem setBit_bmcMgr (f off i : Nat) (s : State) : (setBit f off i s).bmcMgr = s.bmcMgr := rfl
@[simp] theorem setBit_imsic (f off i : Nat) (s : State) : (setBit f off i s).imsic = s.imsic := rfl
@[simp] theorem setBit_aplic (f off i : Nat) (s : State) : (setBit f off i s).aplic = s.aplic := rfl
@[simp] theorem setBit_uart (f off i : Nat) (s : State) : (setBit f off i s).uart = s.uart := rfl
@[simp] theorem setBit_gpioIn (f off i : Nat) (s : State) : (setBit f off i s).gpioIn = s.gpioIn := rfl
@[simp] theorem setBit_gpioRep (f off i : Nat) (s : State) : (setBit f off i s).gpioRep = s.gpioRep := rfl
@[simp] theorem setBit_msix (f off i : Nat) (s : State) : (setBit f off i s).msix = s.msix := rfl
@[simp] theorem setBit_reports (f off i : Nat) (s : State) : (setBit f off i s).reports = s.reports := rfl
@[simp] theorem setBit_rps (f off i : Nat) (s : State) : (setBit f off i s).rps = s.rps := rfl
@[simp] theorem setBit_pairP (f off i : Nat) (s : State) : (setBit f off i s).pairP = s.pairP := rfl
@[simp] theorem setBit_pair (f off i : Nat) (s : State) : (setBit f off i s).pair = s.pair := rfl
@[simp] theorem setBit_cox (f off i : Nat) (s : State) : (setBit f off i s).cox = s.cox := rfl
@[simp] theorem setBit_drives (f off i : Nat) (s : State) : (setBit f off i s).drives = s.drives := rfl
@[simp] theorem setBit_bh (f off i : Nat) (s : State) : (setBit f off i s).bh = s.bh := rfl
@[simp] theorem setBit_catCopies (f off i : Nat) (s : State) : (setBit f off i s).catCopies = s.catCopies := rfl
@[simp] theorem setBit_card (f off i : Nat) (s : State) : (setBit f off i s).card = s.card := rfl

@[simp] theorem clrBit_pending (f off i : Nat) (s : State) : (clrBit f off i s).pending = s.pending := rfl
@[simp] theorem clrBit_free (f off i : Nat) (s : State) : (clrBit f off i s).free = s.free := rfl
@[simp] theorem clrBit_wires (f off i : Nat) (s : State) : (clrBit f off i s).wires = s.wires := rfl
@[simp] theorem clrBit_lockOpen (f off i : Nat) (s : State) : (clrBit f off i s).lockOpen = s.lockOpen := rfl
@[simp] theorem clrBit_harts (f off i : Nat) (s : State) : (clrBit f off i s).harts = s.harts := rfl
@[simp] theorem clrBit_slices (f off i : Nat) (s : State) : (clrBit f off i s).slices = s.slices := rfl
@[simp] theorem clrBit_dies (f off i : Nat) (s : State) : (clrBit f off i s).dies = s.dies := rfl
@[simp] theorem clrBit_homes (f off i : Nat) (s : State) : (clrBit f off i s).homes = s.homes := rfl
@[simp] theorem clrBit_memq (f off i : Nat) (s : State) : (clrBit f off i s).memq = s.memq := rfl
@[simp] theorem clrBit_mem (f off i : Nat) (s : State) : (clrBit f off i s).mem = s.mem := rfl
@[simp] theorem clrBit_poison (f off i : Nat) (s : State) : (clrBit f off i s).poison = s.poison := rfl
@[simp] theorem clrBit_slab (f off i : Nat) (s : State) : (clrBit f off i s).slab = s.slab := rfl
@[simp] theorem clrBit_slabOld (f off i : Nat) (s : State) : (clrBit f off i s).slabOld = s.slabOld := rfl
@[simp] theorem clrBit_slabSw (f off i : Nat) (s : State) : (clrBit f off i s).slabSw = s.slabSw := rfl
@[simp] theorem clrBit_parts (f off i : Nat) (s : State) : (clrBit f off i s).parts = s.parts := rfl
@[simp] theorem clrBit_flt (f off i : Nat) (s : State) : (clrBit f off i s).flt = s.flt := rfl
@[simp] theorem clrBit_pins (f off i : Nat) (s : State) : (clrBit f off i s).pins = s.pins := rfl
@[simp] theorem clrBit_tb (f off i : Nat) (s : State) : (clrBit f off i s).tb = s.tb := rfl
@[simp] theorem clrBit_ports (f off i : Nat) (s : State) : (clrBit f off i s).ports = s.ports := rfl
@[simp] theorem clrBit_vis (f off i : Nat) (s : State) : (clrBit f off i s).vis = s.vis := rfl
@[simp] theorem clrBit_ddrSlabs (f off i : Nat) (s : State) : (clrBit f off i s).ddrSlabs = s.ddrSlabs := rfl
@[simp] theorem clrBit_ddrOff (f off i : Nat) (s : State) : (clrBit f off i s).ddrOff = s.ddrOff := rfl
@[simp] theorem clrBit_pairSt (f off i : Nat) (s : State) : (clrBit f off i s).pairSt = s.pairSt := rfl
@[simp] theorem clrBit_strata (f off i : Nat) (s : State) : (clrBit f off i s).strata = s.strata := rfl
@[simp] theorem clrBit_strCmd (f off i : Nat) (s : State) : (clrBit f off i s).strCmd = s.strCmd := rfl
@[simp] theorem clrBit_slabWait (f off i : Nat) (s : State) : (clrBit f off i s).slabWait = s.slabWait := rfl
@[simp] theorem clrBit_rowCe (f off i : Nat) (s : State) : (clrBit f off i s).rowCe = s.rowCe := rfl
@[simp] theorem clrBit_pprq (f off i : Nat) (s : State) : (clrBit f off i s).pprq = s.pprq := rfl
@[simp] theorem clrBit_mbx (f off i : Nat) (s : State) : (clrBit f off i s).mbx = s.mbx := rfl
@[simp] theorem clrBit_mbxSys (f off i : Nat) (s : State) : (clrBit f off i s).mbxSys = s.mbxSys := rfl
@[simp] theorem clrBit_links (f off i : Nat) (s : State) : (clrBit f off i s).links = s.links := rfl
@[simp] theorem clrBit_fab (f off i : Nat) (s : State) : (clrBit f off i s).fab = s.fab := rfl
@[simp] theorem clrBit_live (f off i : Nat) (s : State) : (clrBit f off i s).live = s.live := rfl
@[simp] theorem clrBit_trace (f off i : Nat) (s : State) : (clrBit f off i s).trace = s.trace := rfl
@[simp] theorem clrBit_dieIds (f off i : Nat) (s : State) : (clrBit f off i s).dieIds = s.dieIds := rfl
@[simp] theorem clrBit_uart1 (f off i : Nat) (s : State) : (clrBit f off i s).uart1 = s.uart1 := rfl
@[simp] theorem clrBit_gpioOwn (f off i : Nat) (s : State) : (clrBit f off i s).gpioOwn = s.gpioOwn := rfl
@[simp] theorem clrBit_mailMx (f off i : Nat) (s : State) : (clrBit f off i s).mailMx = s.mailMx := rfl
@[simp] theorem clrBit_bmcMgr (f off i : Nat) (s : State) : (clrBit f off i s).bmcMgr = s.bmcMgr := rfl
@[simp] theorem clrBit_imsic (f off i : Nat) (s : State) : (clrBit f off i s).imsic = s.imsic := rfl
@[simp] theorem clrBit_aplic (f off i : Nat) (s : State) : (clrBit f off i s).aplic = s.aplic := rfl
@[simp] theorem clrBit_uart (f off i : Nat) (s : State) : (clrBit f off i s).uart = s.uart := rfl
@[simp] theorem clrBit_gpioIn (f off i : Nat) (s : State) : (clrBit f off i s).gpioIn = s.gpioIn := rfl
@[simp] theorem clrBit_gpioRep (f off i : Nat) (s : State) : (clrBit f off i s).gpioRep = s.gpioRep := rfl
@[simp] theorem clrBit_msix (f off i : Nat) (s : State) : (clrBit f off i s).msix = s.msix := rfl
@[simp] theorem clrBit_reports (f off i : Nat) (s : State) : (clrBit f off i s).reports = s.reports := rfl
@[simp] theorem clrBit_rps (f off i : Nat) (s : State) : (clrBit f off i s).rps = s.rps := rfl
@[simp] theorem clrBit_pairP (f off i : Nat) (s : State) : (clrBit f off i s).pairP = s.pairP := rfl
@[simp] theorem clrBit_pair (f off i : Nat) (s : State) : (clrBit f off i s).pair = s.pair := rfl
@[simp] theorem clrBit_cox (f off i : Nat) (s : State) : (clrBit f off i s).cox = s.cox := rfl
@[simp] theorem clrBit_drives (f off i : Nat) (s : State) : (clrBit f off i s).drives = s.drives := rfl
@[simp] theorem clrBit_bh (f off i : Nat) (s : State) : (clrBit f off i s).bh = s.bh := rfl
@[simp] theorem clrBit_catCopies (f off i : Nat) (s : State) : (clrBit f off i s).catCopies = s.catCopies := rfl
@[simp] theorem clrBit_card (f off i : Nat) (s : State) : (clrBit f off i s).card = s.card := rfl

@[simp] theorem send_pending (f : Flit) (s : State) : (send f s).pending = s.pending := rfl
@[simp] theorem send_free (f : Flit) (s : State) : (send f s).free = s.free := rfl
@[simp] theorem send_wires (f : Flit) (s : State) : (send f s).wires = s.wires ++ parcels f := rfl
@[simp] theorem send_regs (f : Flit) (s : State) : (send f s).regs = s.regs := rfl
@[simp] theorem send_lockOpen (f : Flit) (s : State) : (send f s).lockOpen = s.lockOpen := rfl
@[simp] theorem send_harts (f : Flit) (s : State) : (send f s).harts = s.harts := rfl
@[simp] theorem send_slices (f : Flit) (s : State) : (send f s).slices = s.slices := rfl
@[simp] theorem send_dies (f : Flit) (s : State) : (send f s).dies = s.dies := rfl
@[simp] theorem send_homes (f : Flit) (s : State) : (send f s).homes = s.homes := rfl
@[simp] theorem send_memq (f : Flit) (s : State) : (send f s).memq = s.memq := rfl
@[simp] theorem send_mem (f : Flit) (s : State) : (send f s).mem = s.mem := rfl
@[simp] theorem send_poison (f : Flit) (s : State) : (send f s).poison = s.poison := rfl
@[simp] theorem send_slab (f : Flit) (s : State) : (send f s).slab = s.slab := rfl
@[simp] theorem send_slabOld (f : Flit) (s : State) : (send f s).slabOld = s.slabOld := rfl
@[simp] theorem send_slabSw (f : Flit) (s : State) : (send f s).slabSw = s.slabSw := rfl
@[simp] theorem send_parts (f : Flit) (s : State) : (send f s).parts = s.parts := rfl
@[simp] theorem send_flt (f : Flit) (s : State) : (send f s).flt = s.flt := rfl
@[simp] theorem send_pins (f : Flit) (s : State) : (send f s).pins = s.pins := rfl
@[simp] theorem send_tb (f : Flit) (s : State) : (send f s).tb = s.tb := rfl
@[simp] theorem send_ports (f : Flit) (s : State) : (send f s).ports = s.ports := rfl
@[simp] theorem send_vis (f : Flit) (s : State) : (send f s).vis = s.vis := rfl
@[simp] theorem send_ddrSlabs (f : Flit) (s : State) : (send f s).ddrSlabs = s.ddrSlabs := rfl
@[simp] theorem send_ddrOff (f : Flit) (s : State) : (send f s).ddrOff = s.ddrOff := rfl
@[simp] theorem send_pairSt (f : Flit) (s : State) : (send f s).pairSt = s.pairSt := rfl
@[simp] theorem send_strata (f : Flit) (s : State) : (send f s).strata = s.strata := rfl
@[simp] theorem send_strCmd (f : Flit) (s : State) : (send f s).strCmd = s.strCmd := rfl
@[simp] theorem send_slabWait (f : Flit) (s : State) : (send f s).slabWait = s.slabWait := rfl
@[simp] theorem send_rowCe (f : Flit) (s : State) : (send f s).rowCe = s.rowCe := rfl
@[simp] theorem send_pprq (f : Flit) (s : State) : (send f s).pprq = s.pprq := rfl
@[simp] theorem send_mbx (f : Flit) (s : State) : (send f s).mbx = s.mbx := rfl
@[simp] theorem send_mbxSys (f : Flit) (s : State) : (send f s).mbxSys = s.mbxSys := rfl
@[simp] theorem send_links (f : Flit) (s : State) : (send f s).links = s.links := rfl
@[simp] theorem send_fab (f : Flit) (s : State) : (send f s).fab = s.fab := rfl
@[simp] theorem send_live (f : Flit) (s : State) : (send f s).live = s.live := rfl
@[simp] theorem send_trace (f : Flit) (s : State) : (send f s).trace = s.trace := rfl
@[simp] theorem send_dieIds (f : Flit) (s : State) : (send f s).dieIds = s.dieIds := rfl
@[simp] theorem send_uart1 (f : Flit) (s : State) : (send f s).uart1 = s.uart1 := rfl
@[simp] theorem send_gpioOwn (f : Flit) (s : State) : (send f s).gpioOwn = s.gpioOwn := rfl
@[simp] theorem send_mailMx (f : Flit) (s : State) : (send f s).mailMx = s.mailMx := rfl
@[simp] theorem send_bmcMgr (f : Flit) (s : State) : (send f s).bmcMgr = s.bmcMgr := rfl
@[simp] theorem send_imsic (f : Flit) (s : State) : (send f s).imsic = s.imsic := rfl
@[simp] theorem send_aplic (f : Flit) (s : State) : (send f s).aplic = s.aplic := rfl
@[simp] theorem send_uart (f : Flit) (s : State) : (send f s).uart = s.uart := rfl
@[simp] theorem send_gpioIn (f : Flit) (s : State) : (send f s).gpioIn = s.gpioIn := rfl
@[simp] theorem send_gpioRep (f : Flit) (s : State) : (send f s).gpioRep = s.gpioRep := rfl
@[simp] theorem send_msix (f : Flit) (s : State) : (send f s).msix = s.msix := rfl
@[simp] theorem send_reports (f : Flit) (s : State) : (send f s).reports = s.reports := rfl
@[simp] theorem send_rps (f : Flit) (s : State) : (send f s).rps = s.rps := rfl
@[simp] theorem send_pairP (f : Flit) (s : State) : (send f s).pairP = s.pairP := rfl
@[simp] theorem send_pair (f : Flit) (s : State) : (send f s).pair = s.pair := rfl
@[simp] theorem send_cox (f : Flit) (s : State) : (send f s).cox = s.cox := rfl
@[simp] theorem send_drives (f : Flit) (s : State) : (send f s).drives = s.drives := rfl
@[simp] theorem send_bh (f : Flit) (s : State) : (send f s).bh = s.bh := rfl
@[simp] theorem send_catCopies (f : Flit) (s : State) : (send f s).catCopies = s.catCopies := rfl
@[simp] theorem send_card (f : Flit) (s : State) : (send f s).card = s.card := rfl

@[simp] theorem sendAll_pending (fs : List Flit) (s : State) : (sendAll fs s).pending = s.pending := rfl
@[simp] theorem sendAll_free (fs : List Flit) (s : State) : (sendAll fs s).free = s.free := rfl
@[simp] theorem sendAll_wires (fs : List Flit) (s : State) : (sendAll fs s).wires = s.wires ++ fs.flatMap parcels := rfl
@[simp] theorem sendAll_regs (fs : List Flit) (s : State) : (sendAll fs s).regs = s.regs := rfl
@[simp] theorem sendAll_lockOpen (fs : List Flit) (s : State) : (sendAll fs s).lockOpen = s.lockOpen := rfl
@[simp] theorem sendAll_harts (fs : List Flit) (s : State) : (sendAll fs s).harts = s.harts := rfl
@[simp] theorem sendAll_slices (fs : List Flit) (s : State) : (sendAll fs s).slices = s.slices := rfl
@[simp] theorem sendAll_dies (fs : List Flit) (s : State) : (sendAll fs s).dies = s.dies := rfl
@[simp] theorem sendAll_homes (fs : List Flit) (s : State) : (sendAll fs s).homes = s.homes := rfl
@[simp] theorem sendAll_memq (fs : List Flit) (s : State) : (sendAll fs s).memq = s.memq := rfl
@[simp] theorem sendAll_mem (fs : List Flit) (s : State) : (sendAll fs s).mem = s.mem := rfl
@[simp] theorem sendAll_poison (fs : List Flit) (s : State) : (sendAll fs s).poison = s.poison := rfl
@[simp] theorem sendAll_slab (fs : List Flit) (s : State) : (sendAll fs s).slab = s.slab := rfl
@[simp] theorem sendAll_slabOld (fs : List Flit) (s : State) : (sendAll fs s).slabOld = s.slabOld := rfl
@[simp] theorem sendAll_slabSw (fs : List Flit) (s : State) : (sendAll fs s).slabSw = s.slabSw := rfl
@[simp] theorem sendAll_parts (fs : List Flit) (s : State) : (sendAll fs s).parts = s.parts := rfl
@[simp] theorem sendAll_flt (fs : List Flit) (s : State) : (sendAll fs s).flt = s.flt := rfl
@[simp] theorem sendAll_pins (fs : List Flit) (s : State) : (sendAll fs s).pins = s.pins := rfl
@[simp] theorem sendAll_tb (fs : List Flit) (s : State) : (sendAll fs s).tb = s.tb := rfl
@[simp] theorem sendAll_ports (fs : List Flit) (s : State) : (sendAll fs s).ports = s.ports := rfl
@[simp] theorem sendAll_vis (fs : List Flit) (s : State) : (sendAll fs s).vis = s.vis := rfl
@[simp] theorem sendAll_ddrSlabs (fs : List Flit) (s : State) : (sendAll fs s).ddrSlabs = s.ddrSlabs := rfl
@[simp] theorem sendAll_ddrOff (fs : List Flit) (s : State) : (sendAll fs s).ddrOff = s.ddrOff := rfl
@[simp] theorem sendAll_pairSt (fs : List Flit) (s : State) : (sendAll fs s).pairSt = s.pairSt := rfl
@[simp] theorem sendAll_strata (fs : List Flit) (s : State) : (sendAll fs s).strata = s.strata := rfl
@[simp] theorem sendAll_strCmd (fs : List Flit) (s : State) : (sendAll fs s).strCmd = s.strCmd := rfl
@[simp] theorem sendAll_slabWait (fs : List Flit) (s : State) : (sendAll fs s).slabWait = s.slabWait := rfl
@[simp] theorem sendAll_rowCe (fs : List Flit) (s : State) : (sendAll fs s).rowCe = s.rowCe := rfl
@[simp] theorem sendAll_pprq (fs : List Flit) (s : State) : (sendAll fs s).pprq = s.pprq := rfl
@[simp] theorem sendAll_mbx (fs : List Flit) (s : State) : (sendAll fs s).mbx = s.mbx := rfl
@[simp] theorem sendAll_mbxSys (fs : List Flit) (s : State) : (sendAll fs s).mbxSys = s.mbxSys := rfl
@[simp] theorem sendAll_links (fs : List Flit) (s : State) : (sendAll fs s).links = s.links := rfl
@[simp] theorem sendAll_fab (fs : List Flit) (s : State) : (sendAll fs s).fab = s.fab := rfl
@[simp] theorem sendAll_live (fs : List Flit) (s : State) : (sendAll fs s).live = s.live := rfl
@[simp] theorem sendAll_trace (fs : List Flit) (s : State) : (sendAll fs s).trace = s.trace := rfl
@[simp] theorem sendAll_dieIds (fs : List Flit) (s : State) : (sendAll fs s).dieIds = s.dieIds := rfl
@[simp] theorem sendAll_uart1 (fs : List Flit) (s : State) : (sendAll fs s).uart1 = s.uart1 := rfl
@[simp] theorem sendAll_gpioOwn (fs : List Flit) (s : State) : (sendAll fs s).gpioOwn = s.gpioOwn := rfl
@[simp] theorem sendAll_mailMx (fs : List Flit) (s : State) : (sendAll fs s).mailMx = s.mailMx := rfl
@[simp] theorem sendAll_bmcMgr (fs : List Flit) (s : State) : (sendAll fs s).bmcMgr = s.bmcMgr := rfl
@[simp] theorem sendAll_imsic (fs : List Flit) (s : State) : (sendAll fs s).imsic = s.imsic := rfl
@[simp] theorem sendAll_aplic (fs : List Flit) (s : State) : (sendAll fs s).aplic = s.aplic := rfl
@[simp] theorem sendAll_uart (fs : List Flit) (s : State) : (sendAll fs s).uart = s.uart := rfl
@[simp] theorem sendAll_gpioIn (fs : List Flit) (s : State) : (sendAll fs s).gpioIn = s.gpioIn := rfl
@[simp] theorem sendAll_gpioRep (fs : List Flit) (s : State) : (sendAll fs s).gpioRep = s.gpioRep := rfl
@[simp] theorem sendAll_msix (fs : List Flit) (s : State) : (sendAll fs s).msix = s.msix := rfl
@[simp] theorem sendAll_reports (fs : List Flit) (s : State) : (sendAll fs s).reports = s.reports := rfl
@[simp] theorem sendAll_rps (fs : List Flit) (s : State) : (sendAll fs s).rps = s.rps := rfl
@[simp] theorem sendAll_pairP (fs : List Flit) (s : State) : (sendAll fs s).pairP = s.pairP := rfl
@[simp] theorem sendAll_pair (fs : List Flit) (s : State) : (sendAll fs s).pair = s.pair := rfl
@[simp] theorem sendAll_cox (fs : List Flit) (s : State) : (sendAll fs s).cox = s.cox := rfl
@[simp] theorem sendAll_drives (fs : List Flit) (s : State) : (sendAll fs s).drives = s.drives := rfl
@[simp] theorem sendAll_bh (fs : List Flit) (s : State) : (sendAll fs s).bh = s.bh := rfl
@[simp] theorem sendAll_catCopies (fs : List Flit) (s : State) : (sendAll fs s).catCopies = s.catCopies := rfl
@[simp] theorem sendAll_card (fs : List Flit) (s : State) : (sendAll fs s).card = s.card := rfl

@[simp] theorem take_pending (f : Flit) (s : State) : (take f s).pending = s.pending := rfl
@[simp] theorem take_free (f : Flit) (s : State) : (take f s).free = s.free := rfl
@[simp] theorem take_wires (f : Flit) (s : State) : (take f s).wires = (arrivals f).foldl List.erase s.wires := rfl
@[simp] theorem take_regs (f : Flit) (s : State) : (take f s).regs = s.regs := rfl
@[simp] theorem take_lockOpen (f : Flit) (s : State) : (take f s).lockOpen = s.lockOpen := rfl
@[simp] theorem take_harts (f : Flit) (s : State) : (take f s).harts = s.harts := rfl
@[simp] theorem take_slices (f : Flit) (s : State) : (take f s).slices = s.slices := rfl
@[simp] theorem take_dies (f : Flit) (s : State) : (take f s).dies = s.dies := rfl
@[simp] theorem take_homes (f : Flit) (s : State) : (take f s).homes = s.homes := rfl
@[simp] theorem take_memq (f : Flit) (s : State) : (take f s).memq = s.memq := rfl
@[simp] theorem take_mem (f : Flit) (s : State) : (take f s).mem = s.mem := rfl
@[simp] theorem take_poison (f : Flit) (s : State) : (take f s).poison = s.poison := rfl
@[simp] theorem take_slab (f : Flit) (s : State) : (take f s).slab = s.slab := rfl
@[simp] theorem take_slabOld (f : Flit) (s : State) : (take f s).slabOld = s.slabOld := rfl
@[simp] theorem take_slabSw (f : Flit) (s : State) : (take f s).slabSw = s.slabSw := rfl
@[simp] theorem take_parts (f : Flit) (s : State) : (take f s).parts = s.parts := rfl
@[simp] theorem take_flt (f : Flit) (s : State) : (take f s).flt = s.flt := rfl
@[simp] theorem take_pins (f : Flit) (s : State) : (take f s).pins = s.pins := rfl
@[simp] theorem take_tb (f : Flit) (s : State) : (take f s).tb = s.tb := rfl
@[simp] theorem take_ports (f : Flit) (s : State) : (take f s).ports = s.ports := rfl
@[simp] theorem take_vis (f : Flit) (s : State) : (take f s).vis = s.vis := rfl
@[simp] theorem take_ddrSlabs (f : Flit) (s : State) : (take f s).ddrSlabs = s.ddrSlabs := rfl
@[simp] theorem take_ddrOff (f : Flit) (s : State) : (take f s).ddrOff = s.ddrOff := rfl
@[simp] theorem take_pairSt (f : Flit) (s : State) : (take f s).pairSt = s.pairSt := rfl
@[simp] theorem take_strata (f : Flit) (s : State) : (take f s).strata = s.strata := rfl
@[simp] theorem take_strCmd (f : Flit) (s : State) : (take f s).strCmd = s.strCmd := rfl
@[simp] theorem take_slabWait (f : Flit) (s : State) : (take f s).slabWait = s.slabWait := rfl
@[simp] theorem take_rowCe (f : Flit) (s : State) : (take f s).rowCe = s.rowCe := rfl
@[simp] theorem take_pprq (f : Flit) (s : State) : (take f s).pprq = s.pprq := rfl
@[simp] theorem take_mbx (f : Flit) (s : State) : (take f s).mbx = s.mbx := rfl
@[simp] theorem take_mbxSys (f : Flit) (s : State) : (take f s).mbxSys = s.mbxSys := rfl
@[simp] theorem take_links (f : Flit) (s : State) : (take f s).links = s.links := rfl
@[simp] theorem take_fab (f : Flit) (s : State) : (take f s).fab = s.fab := rfl
@[simp] theorem take_live (f : Flit) (s : State) : (take f s).live = (arrivals f).foldl List.erase s.live := rfl
@[simp] theorem take_trace (f : Flit) (s : State) : (take f s).trace = s.trace := rfl
@[simp] theorem take_dieIds (f : Flit) (s : State) : (take f s).dieIds = s.dieIds := rfl
@[simp] theorem take_uart1 (f : Flit) (s : State) : (take f s).uart1 = s.uart1 := rfl
@[simp] theorem take_gpioOwn (f : Flit) (s : State) : (take f s).gpioOwn = s.gpioOwn := rfl
@[simp] theorem take_mailMx (f : Flit) (s : State) : (take f s).mailMx = s.mailMx := rfl
@[simp] theorem take_bmcMgr (f : Flit) (s : State) : (take f s).bmcMgr = s.bmcMgr := rfl
@[simp] theorem take_imsic (f : Flit) (s : State) : (take f s).imsic = s.imsic := rfl
@[simp] theorem take_aplic (f : Flit) (s : State) : (take f s).aplic = s.aplic := rfl
@[simp] theorem take_uart (f : Flit) (s : State) : (take f s).uart = s.uart := rfl
@[simp] theorem take_gpioIn (f : Flit) (s : State) : (take f s).gpioIn = s.gpioIn := rfl
@[simp] theorem take_gpioRep (f : Flit) (s : State) : (take f s).gpioRep = s.gpioRep := rfl
@[simp] theorem take_msix (f : Flit) (s : State) : (take f s).msix = s.msix := rfl
@[simp] theorem take_reports (f : Flit) (s : State) : (take f s).reports = s.reports := rfl
@[simp] theorem take_rps (f : Flit) (s : State) : (take f s).rps = s.rps := rfl
@[simp] theorem take_pairP (f : Flit) (s : State) : (take f s).pairP = s.pairP := rfl
@[simp] theorem take_pair (f : Flit) (s : State) : (take f s).pair = s.pair := rfl
@[simp] theorem take_cox (f : Flit) (s : State) : (take f s).cox = s.cox := rfl
@[simp] theorem take_drives (f : Flit) (s : State) : (take f s).drives = s.drives := rfl
@[simp] theorem take_bh (f : Flit) (s : State) : (take f s).bh = s.bh := rfl
@[simp] theorem take_catCopies (f : Flit) (s : State) : (take f s).catCopies = s.catCopies := rfl
@[simp] theorem take_card (f : Flit) (s : State) : (take f s).card = s.card := rfl

@[simp] theorem scrap_pending (f : Flit) (s : State) : (scrap f s).pending = s.pending := rfl
@[simp] theorem scrap_free (f : Flit) (s : State) : (scrap f s).free = s.free := rfl
@[simp] theorem scrap_regs (f : Flit) (s : State) : (scrap f s).regs = s.regs := rfl
@[simp] theorem scrap_lockOpen (f : Flit) (s : State) : (scrap f s).lockOpen = s.lockOpen := rfl
@[simp] theorem scrap_harts (f : Flit) (s : State) : (scrap f s).harts = s.harts := rfl
@[simp] theorem scrap_slices (f : Flit) (s : State) : (scrap f s).slices = s.slices := rfl
@[simp] theorem scrap_dies (f : Flit) (s : State) : (scrap f s).dies = s.dies := rfl
@[simp] theorem scrap_homes (f : Flit) (s : State) : (scrap f s).homes = s.homes := rfl
@[simp] theorem scrap_memq (f : Flit) (s : State) : (scrap f s).memq = s.memq := rfl
@[simp] theorem scrap_mem (f : Flit) (s : State) : (scrap f s).mem = s.mem := rfl
@[simp] theorem scrap_poison (f : Flit) (s : State) : (scrap f s).poison = s.poison := rfl
@[simp] theorem scrap_slab (f : Flit) (s : State) : (scrap f s).slab = s.slab := rfl
@[simp] theorem scrap_slabOld (f : Flit) (s : State) : (scrap f s).slabOld = s.slabOld := rfl
@[simp] theorem scrap_slabSw (f : Flit) (s : State) : (scrap f s).slabSw = s.slabSw := rfl
@[simp] theorem scrap_parts (f : Flit) (s : State) : (scrap f s).parts = s.parts := rfl
@[simp] theorem scrap_flt (f : Flit) (s : State) : (scrap f s).flt = s.flt := rfl
@[simp] theorem scrap_pins (f : Flit) (s : State) : (scrap f s).pins = s.pins := rfl
@[simp] theorem scrap_tb (f : Flit) (s : State) : (scrap f s).tb = s.tb := rfl
@[simp] theorem scrap_ports (f : Flit) (s : State) : (scrap f s).ports = s.ports := rfl
@[simp] theorem scrap_vis (f : Flit) (s : State) : (scrap f s).vis = s.vis := rfl
@[simp] theorem scrap_ddrSlabs (f : Flit) (s : State) : (scrap f s).ddrSlabs = s.ddrSlabs := rfl
@[simp] theorem scrap_ddrOff (f : Flit) (s : State) : (scrap f s).ddrOff = s.ddrOff := rfl
@[simp] theorem scrap_pairSt (f : Flit) (s : State) : (scrap f s).pairSt = s.pairSt := rfl
@[simp] theorem scrap_strata (f : Flit) (s : State) : (scrap f s).strata = s.strata := rfl
@[simp] theorem scrap_strCmd (f : Flit) (s : State) : (scrap f s).strCmd = s.strCmd := rfl
@[simp] theorem scrap_slabWait (f : Flit) (s : State) : (scrap f s).slabWait = s.slabWait := rfl
@[simp] theorem scrap_rowCe (f : Flit) (s : State) : (scrap f s).rowCe = s.rowCe := rfl
@[simp] theorem scrap_pprq (f : Flit) (s : State) : (scrap f s).pprq = s.pprq := rfl
@[simp] theorem scrap_mbx (f : Flit) (s : State) : (scrap f s).mbx = s.mbx := rfl
@[simp] theorem scrap_mbxSys (f : Flit) (s : State) : (scrap f s).mbxSys = s.mbxSys := rfl
@[simp] theorem scrap_links (f : Flit) (s : State) : (scrap f s).links = s.links := rfl
@[simp] theorem scrap_fab (f : Flit) (s : State) : (scrap f s).fab = s.fab := rfl
@[simp] theorem scrap_trace (f : Flit) (s : State) : (scrap f s).trace = s.trace := rfl
@[simp] theorem scrap_dieIds (f : Flit) (s : State) : (scrap f s).dieIds = s.dieIds := rfl
@[simp] theorem scrap_uart1 (f : Flit) (s : State) : (scrap f s).uart1 = s.uart1 := rfl
@[simp] theorem scrap_gpioOwn (f : Flit) (s : State) : (scrap f s).gpioOwn = s.gpioOwn := rfl
@[simp] theorem scrap_mailMx (f : Flit) (s : State) : (scrap f s).mailMx = s.mailMx := rfl
@[simp] theorem scrap_bmcMgr (f : Flit) (s : State) : (scrap f s).bmcMgr = s.bmcMgr := rfl
@[simp] theorem scrap_imsic (f : Flit) (s : State) : (scrap f s).imsic = s.imsic := rfl
@[simp] theorem scrap_aplic (f : Flit) (s : State) : (scrap f s).aplic = s.aplic := rfl
@[simp] theorem scrap_uart (f : Flit) (s : State) : (scrap f s).uart = s.uart := rfl
@[simp] theorem scrap_gpioIn (f : Flit) (s : State) : (scrap f s).gpioIn = s.gpioIn := rfl
@[simp] theorem scrap_gpioRep (f : Flit) (s : State) : (scrap f s).gpioRep = s.gpioRep := rfl
@[simp] theorem scrap_msix (f : Flit) (s : State) : (scrap f s).msix = s.msix := rfl
@[simp] theorem scrap_reports (f : Flit) (s : State) : (scrap f s).reports = s.reports := rfl
@[simp] theorem scrap_rps (f : Flit) (s : State) : (scrap f s).rps = s.rps := rfl
@[simp] theorem scrap_pairP (f : Flit) (s : State) : (scrap f s).pairP = s.pairP := rfl
@[simp] theorem scrap_pair (f : Flit) (s : State) : (scrap f s).pair = s.pair := rfl
@[simp] theorem scrap_cox (f : Flit) (s : State) : (scrap f s).cox = s.cox := rfl
@[simp] theorem scrap_drives (f : Flit) (s : State) : (scrap f s).drives = s.drives := rfl
@[simp] theorem scrap_bh (f : Flit) (s : State) : (scrap f s).bh = s.bh := rfl
@[simp] theorem scrap_catCopies (f : Flit) (s : State) : (scrap f s).catCopies = s.catCopies := rfl
@[simp] theorem scrap_card (f : Flit) (s : State) : (scrap f s).card = s.card := rfl

@[simp] theorem settle_pending (s : State) : (settle s).pending = s.pending := rfl
@[simp] theorem settle_free (s : State) : (settle s).free = s.free := rfl
@[simp] theorem settle_wires (s : State) : (settle s).wires = s.wires := rfl
@[simp] theorem settle_regs (s : State) : (settle s).regs = s.regs := rfl
@[simp] theorem settle_lockOpen (s : State) : (settle s).lockOpen = s.lockOpen := rfl
@[simp] theorem settle_harts (s : State) : (settle s).harts = s.harts := rfl
@[simp] theorem settle_slices (s : State) : (settle s).slices = s.slices := rfl
@[simp] theorem settle_dies (s : State) : (settle s).dies = s.dies := rfl
@[simp] theorem settle_homes (s : State) : (settle s).homes = s.homes := rfl
@[simp] theorem settle_memq (s : State) : (settle s).memq = s.memq := rfl
@[simp] theorem settle_mem (s : State) : (settle s).mem = s.mem := rfl
@[simp] theorem settle_poison (s : State) : (settle s).poison = s.poison := rfl
@[simp] theorem settle_slab (s : State) : (settle s).slab = s.slab := rfl
@[simp] theorem settle_slabOld (s : State) : (settle s).slabOld = s.slabOld := rfl
@[simp] theorem settle_slabSw (s : State) : (settle s).slabSw = s.slabSw := rfl
@[simp] theorem settle_parts (s : State) : (settle s).parts = s.parts := rfl
@[simp] theorem settle_flt (s : State) : (settle s).flt = s.flt := rfl
@[simp] theorem settle_tb (s : State) : (settle s).tb = s.tb := rfl
@[simp] theorem settle_ports (s : State) : (settle s).ports = s.ports := rfl
@[simp] theorem settle_vis (s : State) : (settle s).vis = s.vis := rfl
@[simp] theorem settle_ddrSlabs (s : State) : (settle s).ddrSlabs = s.ddrSlabs := rfl
@[simp] theorem settle_ddrOff (s : State) : (settle s).ddrOff = s.ddrOff := rfl
@[simp] theorem settle_pairSt (s : State) : (settle s).pairSt = s.pairSt := rfl
@[simp] theorem settle_strata (s : State) : (settle s).strata = s.strata := rfl
@[simp] theorem settle_strCmd (s : State) : (settle s).strCmd = s.strCmd := rfl
@[simp] theorem settle_slabWait (s : State) : (settle s).slabWait = s.slabWait := rfl
@[simp] theorem settle_rowCe (s : State) : (settle s).rowCe = s.rowCe := rfl
@[simp] theorem settle_pprq (s : State) : (settle s).pprq = s.pprq := rfl
@[simp] theorem settle_mbx (s : State) : (settle s).mbx = s.mbx := rfl
@[simp] theorem settle_mbxSys (s : State) : (settle s).mbxSys = s.mbxSys := rfl
@[simp] theorem settle_links (s : State) : (settle s).links = s.links := rfl
@[simp] theorem settle_fab (s : State) : (settle s).fab = s.fab := rfl
@[simp] theorem settle_live (s : State) : (settle s).live = s.live := rfl
@[simp] theorem settle_trace (s : State) : (settle s).trace = s.trace := rfl
@[simp] theorem settle_dieIds (s : State) : (settle s).dieIds = s.dieIds := rfl
@[simp] theorem settle_uart1 (s : State) : (settle s).uart1 = s.uart1 := rfl
@[simp] theorem settle_gpioOwn (s : State) : (settle s).gpioOwn = s.gpioOwn := rfl
@[simp] theorem settle_mailMx (s : State) : (settle s).mailMx = s.mailMx := rfl
@[simp] theorem settle_bmcMgr (s : State) : (settle s).bmcMgr = s.bmcMgr := rfl
@[simp] theorem settle_imsic (s : State) : (settle s).imsic = s.imsic := rfl
@[simp] theorem settle_aplic (s : State) : (settle s).aplic = s.aplic := rfl
@[simp] theorem settle_uart (s : State) : (settle s).uart = s.uart := rfl
@[simp] theorem settle_gpioIn (s : State) : (settle s).gpioIn = s.gpioIn := rfl
@[simp] theorem settle_gpioRep (s : State) : (settle s).gpioRep = s.gpioRep := rfl
@[simp] theorem settle_msix (s : State) : (settle s).msix = s.msix := rfl
@[simp] theorem settle_reports (s : State) : (settle s).reports = s.reports := rfl
@[simp] theorem settle_rps (s : State) : (settle s).rps = s.rps := rfl
@[simp] theorem settle_pairP (s : State) : (settle s).pairP = s.pairP := rfl
@[simp] theorem settle_pair (s : State) : (settle s).pair = s.pair := rfl
@[simp] theorem settle_cox (s : State) : (settle s).cox = s.cox := rfl
@[simp] theorem settle_drives (s : State) : (settle s).drives = s.drives := rfl
@[simp] theorem settle_bh (s : State) : (settle s).bh = s.bh := rfl
@[simp] theorem settle_catCopies (s : State) : (settle s).catCopies = s.catCopies := rfl
@[simp] theorem settle_card (s : State) : (settle s).card = s.card := rfl

@[simp] theorem mgrStep_pending (pr : Proc) (s : State) : (mgrStep pr s).pending = s.pending := rfl
@[simp] theorem mgrStep_free (pr : Proc) (s : State) : (mgrStep pr s).free = s.free := rfl
@[simp] theorem mgrStep_wires (pr : Proc) (s : State) : (mgrStep pr s).wires = s.wires := rfl
@[simp] theorem mgrStep_regs (pr : Proc) (s : State) : (mgrStep pr s).regs = s.regs := rfl
@[simp] theorem mgrStep_lockOpen (pr : Proc) (s : State) : (mgrStep pr s).lockOpen = s.lockOpen := rfl
@[simp] theorem mgrStep_harts (pr : Proc) (s : State) : (mgrStep pr s).harts = s.harts := rfl
@[simp] theorem mgrStep_slices (pr : Proc) (s : State) : (mgrStep pr s).slices = s.slices := rfl
@[simp] theorem mgrStep_dies (pr : Proc) (s : State) : (mgrStep pr s).dies = s.dies := rfl
@[simp] theorem mgrStep_homes (pr : Proc) (s : State) : (mgrStep pr s).homes = s.homes := rfl
@[simp] theorem mgrStep_memq (pr : Proc) (s : State) : (mgrStep pr s).memq = s.memq := rfl
@[simp] theorem mgrStep_mem (pr : Proc) (s : State) : (mgrStep pr s).mem = s.mem := rfl
@[simp] theorem mgrStep_poison (pr : Proc) (s : State) : (mgrStep pr s).poison = s.poison := rfl
@[simp] theorem mgrStep_slab (pr : Proc) (s : State) : (mgrStep pr s).slab = s.slab := rfl
@[simp] theorem mgrStep_slabOld (pr : Proc) (s : State) : (mgrStep pr s).slabOld = s.slabOld := rfl
@[simp] theorem mgrStep_slabSw (pr : Proc) (s : State) : (mgrStep pr s).slabSw = s.slabSw := rfl
@[simp] theorem mgrStep_parts (pr : Proc) (s : State) : (mgrStep pr s).parts = s.parts := rfl
@[simp] theorem mgrStep_flt (pr : Proc) (s : State) : (mgrStep pr s).flt = s.flt := rfl
@[simp] theorem mgrStep_pins (pr : Proc) (s : State) : (mgrStep pr s).pins = s.pins := rfl
@[simp] theorem mgrStep_tb (pr : Proc) (s : State) : (mgrStep pr s).tb = s.tb := rfl
@[simp] theorem mgrStep_ports (pr : Proc) (s : State) : (mgrStep pr s).ports = s.ports := rfl
@[simp] theorem mgrStep_vis (pr : Proc) (s : State) : (mgrStep pr s).vis = s.vis := rfl
@[simp] theorem mgrStep_ddrSlabs (pr : Proc) (s : State) : (mgrStep pr s).ddrSlabs = s.ddrSlabs := rfl
@[simp] theorem mgrStep_ddrOff (pr : Proc) (s : State) : (mgrStep pr s).ddrOff = s.ddrOff := rfl
@[simp] theorem mgrStep_pairSt (pr : Proc) (s : State) : (mgrStep pr s).pairSt = s.pairSt := rfl
@[simp] theorem mgrStep_strata (pr : Proc) (s : State) : (mgrStep pr s).strata = s.strata := rfl
@[simp] theorem mgrStep_strCmd (pr : Proc) (s : State) : (mgrStep pr s).strCmd = s.strCmd := rfl
@[simp] theorem mgrStep_slabWait (pr : Proc) (s : State) : (mgrStep pr s).slabWait = s.slabWait := rfl
@[simp] theorem mgrStep_rowCe (pr : Proc) (s : State) : (mgrStep pr s).rowCe = s.rowCe := rfl
@[simp] theorem mgrStep_pprq (pr : Proc) (s : State) : (mgrStep pr s).pprq = s.pprq := rfl
@[simp] theorem mgrStep_mbx (pr : Proc) (s : State) : (mgrStep pr s).mbx = s.mbx := rfl
@[simp] theorem mgrStep_mbxSys (pr : Proc) (s : State) : (mgrStep pr s).mbxSys = s.mbxSys := rfl
@[simp] theorem mgrStep_links (pr : Proc) (s : State) : (mgrStep pr s).links = s.links := rfl
@[simp] theorem mgrStep_fab (pr : Proc) (s : State) : (mgrStep pr s).fab = s.fab := rfl
@[simp] theorem mgrStep_live (pr : Proc) (s : State) : (mgrStep pr s).live = s.live := rfl
@[simp] theorem mgrStep_trace (pr : Proc) (s : State) : (mgrStep pr s).trace = s.trace := rfl
@[simp] theorem mgrStep_dieIds (pr : Proc) (s : State) : (mgrStep pr s).dieIds = s.dieIds := rfl
@[simp] theorem mgrStep_uart1 (pr : Proc) (s : State) : (mgrStep pr s).uart1 = s.uart1 := rfl
@[simp] theorem mgrStep_gpioOwn (pr : Proc) (s : State) : (mgrStep pr s).gpioOwn = s.gpioOwn := rfl
@[simp] theorem mgrStep_mailMx (pr : Proc) (s : State) : (mgrStep pr s).mailMx = s.mailMx := rfl
@[simp] theorem mgrStep_bmcMgr (pr : Proc) (s : State) : (mgrStep pr s).bmcMgr = s.bmcMgr := rfl
@[simp] theorem mgrStep_imsic (pr : Proc) (s : State) : (mgrStep pr s).imsic = s.imsic := rfl
@[simp] theorem mgrStep_aplic (pr : Proc) (s : State) : (mgrStep pr s).aplic = s.aplic := rfl
@[simp] theorem mgrStep_uart (pr : Proc) (s : State) : (mgrStep pr s).uart = s.uart := rfl
@[simp] theorem mgrStep_gpioIn (pr : Proc) (s : State) : (mgrStep pr s).gpioIn = s.gpioIn := rfl
@[simp] theorem mgrStep_gpioRep (pr : Proc) (s : State) : (mgrStep pr s).gpioRep = s.gpioRep := rfl
@[simp] theorem mgrStep_msix (pr : Proc) (s : State) : (mgrStep pr s).msix = s.msix := rfl
@[simp] theorem mgrStep_reports (pr : Proc) (s : State) : (mgrStep pr s).reports = s.reports := rfl
@[simp] theorem mgrStep_rps (pr : Proc) (s : State) : (mgrStep pr s).rps = s.rps := rfl
@[simp] theorem mgrStep_pairP (pr : Proc) (s : State) : (mgrStep pr s).pairP = s.pairP := rfl
@[simp] theorem mgrStep_pair (pr : Proc) (s : State) : (mgrStep pr s).pair = s.pair := rfl
@[simp] theorem mgrStep_drives (pr : Proc) (s : State) : (mgrStep pr s).drives = s.drives := rfl
@[simp] theorem mgrStep_bh (pr : Proc) (s : State) : (mgrStep pr s).bh = s.bh := rfl
@[simp] theorem mgrStep_catCopies (pr : Proc) (s : State) : (mgrStep pr s).catCopies = s.catCopies := rfl
@[simp] theorem mgrStep_card (pr : Proc) (s : State) : (mgrStep pr s).card = s.card := rfl

@[simp] theorem drawNat_pending (s : State) : (drawNat s).2.pending = s.pending := rfl
@[simp] theorem drawNat_wires (s : State) : (drawNat s).2.wires = s.wires := rfl
@[simp] theorem drawNat_regs (s : State) : (drawNat s).2.regs = s.regs := rfl
@[simp] theorem drawNat_lockOpen (s : State) : (drawNat s).2.lockOpen = s.lockOpen := rfl
@[simp] theorem drawNat_harts (s : State) : (drawNat s).2.harts = s.harts := rfl
@[simp] theorem drawNat_slices (s : State) : (drawNat s).2.slices = s.slices := rfl
@[simp] theorem drawNat_dies (s : State) : (drawNat s).2.dies = s.dies := rfl
@[simp] theorem drawNat_homes (s : State) : (drawNat s).2.homes = s.homes := rfl
@[simp] theorem drawNat_memq (s : State) : (drawNat s).2.memq = s.memq := rfl
@[simp] theorem drawNat_mem (s : State) : (drawNat s).2.mem = s.mem := rfl
@[simp] theorem drawNat_poison (s : State) : (drawNat s).2.poison = s.poison := rfl
@[simp] theorem drawNat_slab (s : State) : (drawNat s).2.slab = s.slab := rfl
@[simp] theorem drawNat_slabOld (s : State) : (drawNat s).2.slabOld = s.slabOld := rfl
@[simp] theorem drawNat_slabSw (s : State) : (drawNat s).2.slabSw = s.slabSw := rfl
@[simp] theorem drawNat_parts (s : State) : (drawNat s).2.parts = s.parts := rfl
@[simp] theorem drawNat_flt (s : State) : (drawNat s).2.flt = s.flt := rfl
@[simp] theorem drawNat_pins (s : State) : (drawNat s).2.pins = s.pins := rfl
@[simp] theorem drawNat_tb (s : State) : (drawNat s).2.tb = s.tb := rfl
@[simp] theorem drawNat_ports (s : State) : (drawNat s).2.ports = s.ports := rfl
@[simp] theorem drawNat_vis (s : State) : (drawNat s).2.vis = s.vis := rfl
@[simp] theorem drawNat_ddrSlabs (s : State) : (drawNat s).2.ddrSlabs = s.ddrSlabs := rfl
@[simp] theorem drawNat_ddrOff (s : State) : (drawNat s).2.ddrOff = s.ddrOff := rfl
@[simp] theorem drawNat_pairSt (s : State) : (drawNat s).2.pairSt = s.pairSt := rfl
@[simp] theorem drawNat_strata (s : State) : (drawNat s).2.strata = s.strata := rfl
@[simp] theorem drawNat_strCmd (s : State) : (drawNat s).2.strCmd = s.strCmd := rfl
@[simp] theorem drawNat_slabWait (s : State) : (drawNat s).2.slabWait = s.slabWait := rfl
@[simp] theorem drawNat_rowCe (s : State) : (drawNat s).2.rowCe = s.rowCe := rfl
@[simp] theorem drawNat_pprq (s : State) : (drawNat s).2.pprq = s.pprq := rfl
@[simp] theorem drawNat_mbx (s : State) : (drawNat s).2.mbx = s.mbx := rfl
@[simp] theorem drawNat_mbxSys (s : State) : (drawNat s).2.mbxSys = s.mbxSys := rfl
@[simp] theorem drawNat_links (s : State) : (drawNat s).2.links = s.links := rfl
@[simp] theorem drawNat_fab (s : State) : (drawNat s).2.fab = s.fab := rfl
@[simp] theorem drawNat_live (s : State) : (drawNat s).2.live = s.live := rfl
@[simp] theorem drawNat_trace (s : State) : (drawNat s).2.trace = s.trace := rfl
@[simp] theorem drawNat_dieIds (s : State) : (drawNat s).2.dieIds = s.dieIds := rfl
@[simp] theorem drawNat_uart1 (s : State) : (drawNat s).2.uart1 = s.uart1 := rfl
@[simp] theorem drawNat_gpioOwn (s : State) : (drawNat s).2.gpioOwn = s.gpioOwn := rfl
@[simp] theorem drawNat_mailMx (s : State) : (drawNat s).2.mailMx = s.mailMx := rfl
@[simp] theorem drawNat_bmcMgr (s : State) : (drawNat s).2.bmcMgr = s.bmcMgr := rfl
@[simp] theorem drawNat_imsic (s : State) : (drawNat s).2.imsic = s.imsic := rfl
@[simp] theorem drawNat_aplic (s : State) : (drawNat s).2.aplic = s.aplic := rfl
@[simp] theorem drawNat_uart (s : State) : (drawNat s).2.uart = s.uart := rfl
@[simp] theorem drawNat_gpioIn (s : State) : (drawNat s).2.gpioIn = s.gpioIn := rfl
@[simp] theorem drawNat_gpioRep (s : State) : (drawNat s).2.gpioRep = s.gpioRep := rfl
@[simp] theorem drawNat_msix (s : State) : (drawNat s).2.msix = s.msix := rfl
@[simp] theorem drawNat_reports (s : State) : (drawNat s).2.reports = s.reports := rfl
@[simp] theorem drawNat_rps (s : State) : (drawNat s).2.rps = s.rps := rfl
@[simp] theorem drawNat_pairP (s : State) : (drawNat s).2.pairP = s.pairP := rfl
@[simp] theorem drawNat_pair (s : State) : (drawNat s).2.pair = s.pair := rfl
@[simp] theorem drawNat_cox (s : State) : (drawNat s).2.cox = s.cox := rfl
@[simp] theorem drawNat_drives (s : State) : (drawNat s).2.drives = s.drives := rfl
@[simp] theorem drawNat_bh (s : State) : (drawNat s).2.bh = s.bh := rfl
@[simp] theorem drawNat_catCopies (s : State) : (drawNat s).2.catCopies = s.catCopies := rfl
@[simp] theorem drawNat_card (s : State) : (drawNat s).2.card = s.card := rfl

@[simp] theorem drawWord_pending (s : State) : (drawWord s).2.pending = s.pending := rfl
@[simp] theorem drawWord_wires (s : State) : (drawWord s).2.wires = s.wires := rfl
@[simp] theorem drawWord_regs (s : State) : (drawWord s).2.regs = s.regs := rfl
@[simp] theorem drawWord_lockOpen (s : State) : (drawWord s).2.lockOpen = s.lockOpen := rfl
@[simp] theorem drawWord_harts (s : State) : (drawWord s).2.harts = s.harts := rfl
@[simp] theorem drawWord_slices (s : State) : (drawWord s).2.slices = s.slices := rfl
@[simp] theorem drawWord_dies (s : State) : (drawWord s).2.dies = s.dies := rfl
@[simp] theorem drawWord_homes (s : State) : (drawWord s).2.homes = s.homes := rfl
@[simp] theorem drawWord_memq (s : State) : (drawWord s).2.memq = s.memq := rfl
@[simp] theorem drawWord_mem (s : State) : (drawWord s).2.mem = s.mem := rfl
@[simp] theorem drawWord_poison (s : State) : (drawWord s).2.poison = s.poison := rfl
@[simp] theorem drawWord_slab (s : State) : (drawWord s).2.slab = s.slab := rfl
@[simp] theorem drawWord_slabOld (s : State) : (drawWord s).2.slabOld = s.slabOld := rfl
@[simp] theorem drawWord_slabSw (s : State) : (drawWord s).2.slabSw = s.slabSw := rfl
@[simp] theorem drawWord_parts (s : State) : (drawWord s).2.parts = s.parts := rfl
@[simp] theorem drawWord_flt (s : State) : (drawWord s).2.flt = s.flt := rfl
@[simp] theorem drawWord_pins (s : State) : (drawWord s).2.pins = s.pins := rfl
@[simp] theorem drawWord_tb (s : State) : (drawWord s).2.tb = s.tb := rfl
@[simp] theorem drawWord_ports (s : State) : (drawWord s).2.ports = s.ports := rfl
@[simp] theorem drawWord_vis (s : State) : (drawWord s).2.vis = s.vis := rfl
@[simp] theorem drawWord_ddrSlabs (s : State) : (drawWord s).2.ddrSlabs = s.ddrSlabs := rfl
@[simp] theorem drawWord_ddrOff (s : State) : (drawWord s).2.ddrOff = s.ddrOff := rfl
@[simp] theorem drawWord_pairSt (s : State) : (drawWord s).2.pairSt = s.pairSt := rfl
@[simp] theorem drawWord_strata (s : State) : (drawWord s).2.strata = s.strata := rfl
@[simp] theorem drawWord_strCmd (s : State) : (drawWord s).2.strCmd = s.strCmd := rfl
@[simp] theorem drawWord_slabWait (s : State) : (drawWord s).2.slabWait = s.slabWait := rfl
@[simp] theorem drawWord_rowCe (s : State) : (drawWord s).2.rowCe = s.rowCe := rfl
@[simp] theorem drawWord_pprq (s : State) : (drawWord s).2.pprq = s.pprq := rfl
@[simp] theorem drawWord_mbx (s : State) : (drawWord s).2.mbx = s.mbx := rfl
@[simp] theorem drawWord_mbxSys (s : State) : (drawWord s).2.mbxSys = s.mbxSys := rfl
@[simp] theorem drawWord_links (s : State) : (drawWord s).2.links = s.links := rfl
@[simp] theorem drawWord_fab (s : State) : (drawWord s).2.fab = s.fab := rfl
@[simp] theorem drawWord_live (s : State) : (drawWord s).2.live = s.live := rfl
@[simp] theorem drawWord_trace (s : State) : (drawWord s).2.trace = s.trace := rfl
@[simp] theorem drawWord_dieIds (s : State) : (drawWord s).2.dieIds = s.dieIds := rfl
@[simp] theorem drawWord_uart1 (s : State) : (drawWord s).2.uart1 = s.uart1 := rfl
@[simp] theorem drawWord_gpioOwn (s : State) : (drawWord s).2.gpioOwn = s.gpioOwn := rfl
@[simp] theorem drawWord_mailMx (s : State) : (drawWord s).2.mailMx = s.mailMx := rfl
@[simp] theorem drawWord_bmcMgr (s : State) : (drawWord s).2.bmcMgr = s.bmcMgr := rfl
@[simp] theorem drawWord_imsic (s : State) : (drawWord s).2.imsic = s.imsic := rfl
@[simp] theorem drawWord_aplic (s : State) : (drawWord s).2.aplic = s.aplic := rfl
@[simp] theorem drawWord_uart (s : State) : (drawWord s).2.uart = s.uart := rfl
@[simp] theorem drawWord_gpioIn (s : State) : (drawWord s).2.gpioIn = s.gpioIn := rfl
@[simp] theorem drawWord_gpioRep (s : State) : (drawWord s).2.gpioRep = s.gpioRep := rfl
@[simp] theorem drawWord_msix (s : State) : (drawWord s).2.msix = s.msix := rfl
@[simp] theorem drawWord_reports (s : State) : (drawWord s).2.reports = s.reports := rfl
@[simp] theorem drawWord_rps (s : State) : (drawWord s).2.rps = s.rps := rfl
@[simp] theorem drawWord_pairP (s : State) : (drawWord s).2.pairP = s.pairP := rfl
@[simp] theorem drawWord_pair (s : State) : (drawWord s).2.pair = s.pair := rfl
@[simp] theorem drawWord_cox (s : State) : (drawWord s).2.cox = s.cox := rfl
@[simp] theorem drawWord_drives (s : State) : (drawWord s).2.drives = s.drives := rfl
@[simp] theorem drawWord_bh (s : State) : (drawWord s).2.bh = s.bh := rfl
@[simp] theorem drawWord_catCopies (s : State) : (drawWord s).2.catCopies = s.catCopies := rfl
@[simp] theorem drawWord_card (s : State) : (drawWord s).2.card = s.card := rfl

@[simp] theorem drawBool_pending (s : State) : (drawBool s).2.pending = s.pending := rfl
@[simp] theorem drawBool_wires (s : State) : (drawBool s).2.wires = s.wires := rfl
@[simp] theorem drawBool_regs (s : State) : (drawBool s).2.regs = s.regs := rfl
@[simp] theorem drawBool_lockOpen (s : State) : (drawBool s).2.lockOpen = s.lockOpen := rfl
@[simp] theorem drawBool_harts (s : State) : (drawBool s).2.harts = s.harts := rfl
@[simp] theorem drawBool_slices (s : State) : (drawBool s).2.slices = s.slices := rfl
@[simp] theorem drawBool_dies (s : State) : (drawBool s).2.dies = s.dies := rfl
@[simp] theorem drawBool_homes (s : State) : (drawBool s).2.homes = s.homes := rfl
@[simp] theorem drawBool_memq (s : State) : (drawBool s).2.memq = s.memq := rfl
@[simp] theorem drawBool_mem (s : State) : (drawBool s).2.mem = s.mem := rfl
@[simp] theorem drawBool_poison (s : State) : (drawBool s).2.poison = s.poison := rfl
@[simp] theorem drawBool_slab (s : State) : (drawBool s).2.slab = s.slab := rfl
@[simp] theorem drawBool_slabOld (s : State) : (drawBool s).2.slabOld = s.slabOld := rfl
@[simp] theorem drawBool_slabSw (s : State) : (drawBool s).2.slabSw = s.slabSw := rfl
@[simp] theorem drawBool_parts (s : State) : (drawBool s).2.parts = s.parts := rfl
@[simp] theorem drawBool_flt (s : State) : (drawBool s).2.flt = s.flt := rfl
@[simp] theorem drawBool_pins (s : State) : (drawBool s).2.pins = s.pins := rfl
@[simp] theorem drawBool_tb (s : State) : (drawBool s).2.tb = s.tb := rfl
@[simp] theorem drawBool_ports (s : State) : (drawBool s).2.ports = s.ports := rfl
@[simp] theorem drawBool_vis (s : State) : (drawBool s).2.vis = s.vis := rfl
@[simp] theorem drawBool_ddrSlabs (s : State) : (drawBool s).2.ddrSlabs = s.ddrSlabs := rfl
@[simp] theorem drawBool_ddrOff (s : State) : (drawBool s).2.ddrOff = s.ddrOff := rfl
@[simp] theorem drawBool_pairSt (s : State) : (drawBool s).2.pairSt = s.pairSt := rfl
@[simp] theorem drawBool_strata (s : State) : (drawBool s).2.strata = s.strata := rfl
@[simp] theorem drawBool_strCmd (s : State) : (drawBool s).2.strCmd = s.strCmd := rfl
@[simp] theorem drawBool_slabWait (s : State) : (drawBool s).2.slabWait = s.slabWait := rfl
@[simp] theorem drawBool_rowCe (s : State) : (drawBool s).2.rowCe = s.rowCe := rfl
@[simp] theorem drawBool_pprq (s : State) : (drawBool s).2.pprq = s.pprq := rfl
@[simp] theorem drawBool_mbx (s : State) : (drawBool s).2.mbx = s.mbx := rfl
@[simp] theorem drawBool_mbxSys (s : State) : (drawBool s).2.mbxSys = s.mbxSys := rfl
@[simp] theorem drawBool_links (s : State) : (drawBool s).2.links = s.links := rfl
@[simp] theorem drawBool_fab (s : State) : (drawBool s).2.fab = s.fab := rfl
@[simp] theorem drawBool_live (s : State) : (drawBool s).2.live = s.live := rfl
@[simp] theorem drawBool_trace (s : State) : (drawBool s).2.trace = s.trace := rfl
@[simp] theorem drawBool_dieIds (s : State) : (drawBool s).2.dieIds = s.dieIds := rfl
@[simp] theorem drawBool_uart1 (s : State) : (drawBool s).2.uart1 = s.uart1 := rfl
@[simp] theorem drawBool_gpioOwn (s : State) : (drawBool s).2.gpioOwn = s.gpioOwn := rfl
@[simp] theorem drawBool_mailMx (s : State) : (drawBool s).2.mailMx = s.mailMx := rfl
@[simp] theorem drawBool_bmcMgr (s : State) : (drawBool s).2.bmcMgr = s.bmcMgr := rfl
@[simp] theorem drawBool_imsic (s : State) : (drawBool s).2.imsic = s.imsic := rfl
@[simp] theorem drawBool_aplic (s : State) : (drawBool s).2.aplic = s.aplic := rfl
@[simp] theorem drawBool_uart (s : State) : (drawBool s).2.uart = s.uart := rfl
@[simp] theorem drawBool_gpioIn (s : State) : (drawBool s).2.gpioIn = s.gpioIn := rfl
@[simp] theorem drawBool_gpioRep (s : State) : (drawBool s).2.gpioRep = s.gpioRep := rfl
@[simp] theorem drawBool_msix (s : State) : (drawBool s).2.msix = s.msix := rfl
@[simp] theorem drawBool_reports (s : State) : (drawBool s).2.reports = s.reports := rfl
@[simp] theorem drawBool_rps (s : State) : (drawBool s).2.rps = s.rps := rfl
@[simp] theorem drawBool_pairP (s : State) : (drawBool s).2.pairP = s.pairP := rfl
@[simp] theorem drawBool_pair (s : State) : (drawBool s).2.pair = s.pair := rfl
@[simp] theorem drawBool_cox (s : State) : (drawBool s).2.cox = s.cox := rfl
@[simp] theorem drawBool_drives (s : State) : (drawBool s).2.drives = s.drives := rfl
@[simp] theorem drawBool_bh (s : State) : (drawBool s).2.bh = s.bh := rfl
@[simp] theorem drawBool_catCopies (s : State) : (drawBool s).2.catCopies = s.catCopies := rfl
@[simp] theorem drawBool_card (s : State) : (drawBool s).2.card = s.card := rfl

end Sys2Proof.Machine
end

