-- ==== Sys2Proof/Laws/Deliver.lean ====
section
/-! SUPPORT. What an agent does with a message that has reached it. -/

namespace Sys2Proof.Machine

theorem isSlice_of_isHome {a : Nat} (h : isHome a = true) : isSlice a = false := by
  simp only [isHome, isSlice, Bool.and_eq_true, decide_eq_true_eq, Bool.and_eq_false_iff, decide_eq_false_iff_not] at *
  omega

theorem agDie_of_isHome {a : Nat} (h : isHome a = true) : agDie a ≠ 13 := by
  simp only [isHome, Bool.and_eq_true, decide_eq_true_eq] at h; omega

theorem agDie_of_isSlice {a : Nat} (h : isSlice a = true) : agDie a ≠ 13 := by
  simp only [isSlice, Bool.and_eq_true, decide_eq_true_eq] at h; omega

theorem agDie_of_isCore {a : Nat} (h : isCore a = true) : agDie a ≠ 13 := by
  simp only [isCore, Bool.and_eq_true, decide_eq_true_eq] at h; omega

theorem agDie_of_engOf {a r : Nat} (h : engOf a = some r) : agDie a ≠ 13 := by
  intro hd
  simp [engOf, hd] at h

/-- A look at a copy of the slab table depends on the table, the update in flight and the free values alone, and changes no more. -/
theorem slabCopy_eq (a n : Nat) (s : State) (w l : List Flit) (p : Map Port) :
    slabCopy a n { s with wires := w, live := l, ports := p } =
      ((slabCopy a n s).1, { (slabCopy a n s).2 with wires := w, live := l, ports := p }) := by
  unfold slabCopy
  simp only [slabEnt]
  split <;> (try split) <;> (try rfl)
  by_cases hb : Config.freeBool s.free = true
  · simp only [drawBool, hb, if_true]
  · simp only [drawBool, hb, if_false, Bool.false_eq_true]

/-- What a home's look at the slab table answers does not depend on the wires. -/
theorem slabCheck_wires (n pa part : Nat) (s : State) (w l : List Flit) (p : Map Port) :
    (slabCheck n pa part { s with wires := w, live := l, ports := p }).1 = (slabCheck n pa part s).1 := by
  have hc : ∀ (e : Nat) (t : State), colBad { t with wires := w, live := l, ports := p } e = colBad t e := fun _ _ => rfl
  unfold slabCheck
  split
  · rfl
  · simp only [slabCopy_eq, hc]
    repeat' split
    all_goals rfl

/-- A copy of the slab table changes only itself. -/
theorem slabCopy_snd (a n : Nat) (s : State) : ∃ f w, (slabCopy a n s).2 = { s with free := f, slabSw := w } := by
  unfold slabCopy
  split
  · exact ⟨_, _, rfl⟩
  · split
    · exact ⟨_, _, rfl⟩
    · dsimp only [drawBool]
      split <;> exact ⟨_, _, rfl⟩

/-- A home that judges an address leaves everything but its copy of the slab table. -/
theorem slabCheck_snd (n pa part : Nat) (s : State) : ∃ f w, (slabCheck n pa part s).2 = { s with free := f, slabSw := w } := by
  unfold slabCheck
  split
  · exact ⟨_, _, rfl⟩
  · dsimp only
    obtain ⟨a, b, h1⟩ := slabCopy_snd (haAgent n) (slabOf pa) s
    obtain ⟨c, d, h2⟩ := slabCopy_snd (haAgent n) (colSlab pa (slLw (slabCopy (haAgent n) (slabOf pa) s).1)) (slabCopy (haAgent n) (slabOf pa) s).2
    rw [h1] at h2
    split
    · exact ⟨a, b, h1⟩
    · split
      · exact ⟨c, d, by rw [h1]; exact h2⟩
      · split
        · exact ⟨c, d, by rw [h1]; exact h2⟩
        · split <;> exact ⟨c, d, by rw [h1]; exact h2⟩

/-- A flit that arrives leaves what a home judges it by. -/
theorem homeServes_arrive {f : Flit} {s : State} (h : HomeServes f s) : HomeServes f (arrive f s) := by
  obtain ⟨w, l, p, e⟩ := arrive_eq f s
  obtain ⟨h1, h2, h3⟩ := h
  refine ⟨h1, ?_, ?_⟩
  · rw [e]; exact h2
  · rw [e, slabCheck_wires]; exact h3

theorem home_judged (f : Flit) (s : State) (n : Nat) : home (judged f (arrive f s)) n = home s n := by
  obtain ⟨w, l, p, e⟩ := arrive_eq f s
  obtain ⟨a, b, e2⟩ := slabCheck_snd (agUnit f.dst) f.addr f.part (arrive f s)
  unfold judged
  rw [e2, e]; rfl

theorem slice_arrive (f : Flit) (s : State) (d k : Nat) : slice (arrive f s) d k = slice s d k := by
  obtain ⟨w, l, p, e⟩ := arrive_eq f s
  rw [e]; rfl

theorem mustHold_arrive (f : Flit) (s : State) (d k l : Nat) : mustHold (arrive f s) d k l = mustHold s d k l := by
  obtain ⟨w, v, p, e⟩ := arrive_eq f s
  rw [e]; rfl

/-- A home that takes a new request gives it a tracker. -/
theorem homeTake_takes {f : Flit} {s : State} (h : HomeTakes f s) :
    homeTake (agUnit f.dst) f (arrive f s) = homeOpen (agUnit f.dst) f none (judged f (arrive f s)) := by
  obtain ⟨hs, h3, h4, h5, h6⟩ := h
  obtain ⟨_, h1, h2⟩ := homeServes_arrive hs
  have hj := home_judged f s (agUnit f.dst)
  unfold judged at *
  unfold homeTake
  simp only [h2, h3, h1, hj, h5, h6]
  rcases h4 with h4 | h4
  · simp [h4]
  · by_cases hc : mustChain (home s (agUnit f.dst)) f = true <;> simp [h4, hc]

/-- A home that has kept a reservation for a request gives it the tracker and the way that it kept. -/
theorem homeTake_kept {f : Flit} {r : RqEnt} {s : State} (h : HomeKept f r s) :
    homeTake (agUnit f.dst) f (arrive f s) = homeOpen (agUnit f.dst) f (rqWay r.cause)
      (updHome (agUnit f.dst) (fun x => { x with rsv := x.rsv.erase r }) (judged f (arrive f s))) := by
  obtain ⟨hs, h3, h4⟩ := h
  obtain ⟨_, h1, h2⟩ := homeServes_arrive hs
  have hj := home_judged f s (agUnit f.dst)
  unfold judged at *
  unfold homeTake
  simp only [h2, h3, h1, hj, h4]
  simp

/-- A request that is not an eviction or a release reaches a home. -/
theorem reqAt_home {f : Flit} {t : State} (h : isHome f.dst = true) (h1 : f.op ≠ oWrBackDirty) (h2 : f.op ≠ oEvictClean) (h3 : f.op ≠ oRgnRel) :
    reqAt f t = homeRun (agUnit f.dst) (homeTake (agUnit f.dst) f t) := by
  unfold reqAt homeReq
  rw [isSlice_of_isHome h, h]
  simp [h1, h2, h3]

/-- A slice that takes a request gives it a tracker. -/
theorem reqAt_slice {f : Flit} {s : State} {i : Nat} (h : SliceTakes f s i) (h1 : f.op ≠ oWrBackDirty) (h2 : f.op ≠ oEvictClean) :
    reqAt f (arrive f s) = sliceRun (agDie f.dst) (agUnit f.dst - 64) (sliceOpen (agDie f.dst) (agUnit f.dst - 64) f i (arrive f s)) := by
  obtain ⟨ha, hb, hc, hd⟩ := h
  have h8 : ¬ 8 ≤ (slice s (agDie f.dst) (agUnit f.dst - 64)).setWait.length := by omega
  unfold reqAt sliceReq acceptReq
  simp [ha, h1, h2, mustHold_arrive, slice_arrive, hb, hc, h8]

/-- An eviction at a home. -/
theorem reqAt_evict {f : Flit} {t : State} (h : isHome f.dst = true) (h1 : f.op = oWrBackDirty ∨ f.op = oEvictClean) :
    reqAt f t = homeRun (agUnit f.dst) (homeEvict (agUnit f.dst) f t) := by
  unfold reqAt homeReq
  rw [isSlice_of_isHome h, h]
  simp [h1]

/-- An eviction at a slice. -/
theorem reqAt_sliceEvict {f : Flit} {t : State} (h : isSlice f.dst = true) (h1 : f.op = oWrBackDirty ∨ f.op = oEvictClean) :
    reqAt f t = sliceEvict (agDie f.dst) (agUnit f.dst - 64) f t := by
  unfold reqAt sliceReq
  simp [h, h1]

end Sys2Proof.Machine
end

