-- ==== Sys2Proof/Laws/Errors.lean ====
section
/-! SUPPORT. What recording an error changes (R502 to R507, R529). -/

namespace Sys2Proof.Machine

/-- Two states that differ in the registers alone. -/
def RegsOnly (s t : State) : Prop := t = { s with regs := t.regs }

theorem RegsOnly.rfl' (s : State) : RegsOnly s s := rfl
theorem RegsOnly.trans' {s t u : State} (h : RegsOnly s t) (k : RegsOnly t u) : RegsOnly s u := by
  unfold RegsOnly at *; rw [k, h]
theorem regsOnly_setReg (f off : Nat) (v : Word) (s : State) : RegsOnly s (setReg f off v s) := rfl
theorem regsOnly_setFld (f off lo w v : Nat) (s : State) : RegsOnly s (setFld f off lo w v s) := rfl
theorem regsOnly_addSat (f off lo w n : Nat) (s : State) : RegsOnly s (addSat f off lo w n s) := rfl
theorem regsOnly_setBit (f off i : Nat) (s : State) : RegsOnly s (setBit f off i s) := rfl
theorem regsOnly_ite {c : Prop} [Decidable c] {s t u : State} (h : RegsOnly s t) (k : RegsOnly s u) : RegsOnly s (if c then t else u) := by
  split <;> assumption
theorem regsOnly_latchErr (e : Err) (c : Nat) (o : Bool) (s : State) : RegsOnly s (latchErr e c o s) := by
  unfold latchErr
  dsimp only
  refine RegsOnly.trans' ?_ (regsOnly_setReg _ _ _ _)
  refine RegsOnly.trans' ?_ (regsOnly_setReg _ _ _ _)
  refine RegsOnly.trans' ?_ (regsOnly_setReg _ _ _ _)
  refine RegsOnly.trans' ?_ (regsOnly_setReg _ _ _ _)
  exact regsOnly_setReg _ _ _ _

/-- An error that is not package-fatal changes registers alone. -/
theorem regsOnly_logErr {e : Err} {s : State} (h : errClass s e ≠ 3) : RegsOnly s (logErr e s) := by
  unfold logErr
  extract_lets c s1 s2 valid latch s3 s4
  have h1 : RegsOnly s s1 := regsOnly_ite (regsOnly_addSat _ _ _ _ _ _) (RegsOnly.rfl' _)
  have h2 : RegsOnly s1 s2 := regsOnly_ite (regsOnly_addSat _ _ _ _ _ _) (RegsOnly.rfl' _)
  have h3 : RegsOnly s2 s3 := regsOnly_ite (regsOnly_latchErr _ _ _ _) (regsOnly_setBit _ _ _ _)
  have h4 : RegsOnly s3 s4 := regsOnly_ite (regsOnly_setBit _ _ _ _) (RegsOnly.rfl' _)
  rw [if_neg h]
  exact h1.trans' (h2.trans' (h3.trans' h4))

theorem errClass_ne_three {e : Err} {s : State} (h : e.cls < 3) : errClass s e ≠ 3 := by
  unfold errClass; split <;> omega

section
variable {e : Err} {s : State}
theorem logErr_cox (h : e.cls < 3) : (logErr e s).cox = s.cox := congrArg (·.cox) (regsOnly_logErr (errClass_ne_three h))
theorem logErr_bh (h : e.cls < 3) : (logErr e s).bh = s.bh := congrArg (·.bh) (regsOnly_logErr (errClass_ne_three h))
theorem logErr_mem (h : e.cls < 3) : (logErr e s).mem = s.mem := congrArg (·.mem) (regsOnly_logErr (errClass_ne_three h))
theorem logErr_parts (h : e.cls < 3) : (logErr e s).parts = s.parts := congrArg (·.parts) (regsOnly_logErr (errClass_ne_three h))
theorem logErr_homes (h : e.cls < 3) : (logErr e s).homes = s.homes := congrArg (·.homes) (regsOnly_logErr (errClass_ne_three h))
theorem logErr_harts (h : e.cls < 3) : (logErr e s).harts = s.harts := congrArg (·.harts) (regsOnly_logErr (errClass_ne_three h))
theorem logErr_slices (h : e.cls < 3) : (logErr e s).slices = s.slices := congrArg (·.slices) (regsOnly_logErr (errClass_ne_three h))
theorem logErr_tb (h : e.cls < 3) : (logErr e s).tb = s.tb := congrArg (·.tb) (regsOnly_logErr (errClass_ne_three h))
theorem logErr_pins (h : e.cls < 3) : (logErr e s).pins = s.pins := congrArg (·.pins) (regsOnly_logErr (errClass_ne_three h))
theorem logErr_card (h : e.cls < 3) : (logErr e s).card = s.card := congrArg (·.card) (regsOnly_logErr (errClass_ne_three h))
theorem logErr_pending (h : e.cls < 3) : (logErr e s).pending = s.pending := congrArg (·.pending) (regsOnly_logErr (errClass_ne_three h))
end

end Sys2Proof.Machine
end

