-- ==== Sys2Proof/Laws/Frames.lean ====
section
/-! SUPPORT. The frames of the device register space: which block each is, and that a write that may be made reaches its block. -/

namespace Sys2Proof.Machine

theorem frameKind_iof : frameKind frIof = (0x02, 0) := rfl
theorem frameKind_ppa : frameKind frPpa = (0x03, 0) := rfl
theorem frameKind_cox : frameKind frCox = (0x04, 0) := rfl
theorem frameKind_flt : frameKind frFlt = (0x05, 0) := rfl
theorem frameKind_mem : frameKind frMem = (0x06, 0) := rfl
theorem frameKind_bh : frameKind frBh = (0x07, 0) := rfl
theorem frameKind_mgr : frameKind frMgr = (0x27, 0) := rfl

theorem frameKind_ha {n : Nat} (h : n < 32) : frameKind (frHa n) = (0x10, n) := by
  unfold frameKind frHa
  rw [if_neg (by omega), if_pos (by omega), Nat.add_sub_cancel_left]

theorem frameKind_ap {n : Nat} (h : n < 12) : frameKind (frAp n) = (0x11, n) := by
  unfold frameKind frAp
  rw [if_neg (by omega), if_neg (by omega), if_pos (by omega), Nat.add_sub_cancel_left]

theorem frameKind_rp {n : Nat} (h : n < 12) : frameKind (frRp n) = (0x12, n) := by
  unfold frameKind frRp
  rw [if_neg (by omega), if_neg (by omega), if_neg (by omega), if_pos (by omega), Nat.add_sub_cancel_left]

theorem frameKind_se {n : Nat} (h : n < 4) : frameKind (frSe n) = (0x15, n) := by
  unfold frameKind frSe
  rw [if_neg (by omega), if_neg (by omega), if_neg (by omega), if_neg (by omega), if_neg (by omega), if_neg (by omega), if_pos (by omega),
    Nat.add_sub_cancel_left]

theorem frameKind_pb {n : Nat} (h : n < 4) : frameKind (frPb n) = (0x17, n) := by
  have : n = 0 ∨ n = 1 ∨ n = 2 ∨ n = 3 := by omega
  rcases this with rfl | rfl | rfl | rfl <;> rfl

theorem frameKind_ni {n : Nat} (h : n < 96) : frameKind (frNi n) = (0x19, n) := by
  unfold frameKind frNi
  iterate 10 rw [if_neg (by omega)]
  rw [if_pos (by omega), Nat.add_sub_cancel_left]

theorem frameKind_die {n : Nat} (h : n < 12) : frameKind (frDie n) = (0x30, n) := by
  unfold frameKind frDie
  iterate 13 rw [if_neg (by omega)]
  rw [if_pos (by omega), Nat.add_sub_cancel_left]

/-- Frames of a partition: its own, its memory, mailbox, faults, pair, Boathouse and low-speed I/O. -/
theorem frameKind_part {p i : Nat} (h : p < 12) (hi : i < 7) : frameKind (0x100 + 16 * p + i) = (0x20 + i, p) := by
  unfold frameKind
  iterate 11 rw [if_neg (by omega)]
  rw [if_pos (by omega)]
  have h1 : (0x100 + 16 * p + i) % 16 = i := by omega
  have h2 : (0x100 + 16 * p + i - 0x100) / 16 = p := by omega
  rw [h1, h2, if_pos hi]

theorem frameKind_frPart {p : Nat} (h : p < 12) : frameKind (frPart p) = (0x20, p) := frameKind_part (i := 0) h (by omega)

theorem frameKind_pmem {p : Nat} (h : p < 12) : frameKind (frPmem p) = (0x21, p) := by
  rw [show frPmem p = 0x100 + 16 * p + 1 by unfold frPmem; omega]; exact frameKind_part h (by omega)

theorem frameKind_mail {p : Nat} (h : p < 12) : frameKind (frMail p) = (0x22, p) := by
  rw [show frMail p = 0x100 + 16 * p + 2 by unfold frMail; omega]; exact frameKind_part h (by omega)

theorem frameKind_pflt {p : Nat} (h : p < 12) : frameKind (frPflt p) = (0x23, p) := by
  rw [show frPflt p = 0x100 + 16 * p + 3 by unfold frPflt; omega]; exact frameKind_part h (by omega)

/-- A partition may write its own frames. -/
theorem seesFrame_own {p f k : Nat} {s : State} (hk : frameKind f = (k, p)) (h : 0x20 ≤ k ∧ k < 0x27) : seesFrame s p f = true := by
  obtain rfl | rfl | rfl | rfl | rfl | rfl | rfl : k = 0x20 ∨ k = 0x21 ∨ k = 0x22 ∨ k = 0x23 ∨ k = 0x24 ∨ k = 0x25 ∨ k = 0x26 := by omega
  all_goals unfold seesFrame; simp [hk]

/-- A write that may be made reaches its block's registers. -/
theorem drsWrite_reg {p f off n v : Nat} {s : State} {k : Nat × Nat} (hk : frameKind f = k) (h : MayWrite s p f) (h0 : k.1 ≠ 0x40) (h1 : k.1 ≠ 0x41) :
    drsWrite p f off n v s = regWrite p f off v s := by
  have hp : ¬ (p < 15 ∧ seesFrame s p f = false) := by
    rintro ⟨ha, hb⟩; rcases h with h | h
    · omega
    · rw [h.2] at hb; exact absurd hb (by simp)
  unfold drsWrite
  simp only [hk, if_neg hp, if_neg h0, if_neg h1]

end Sys2Proof.Machine
end

