-- ==== Sys2Proof/Laws/Manager.lean ====
section
/-! SUPPORT. How a manager command reaches the Cox (R309, R310). -/

namespace Sys2Proof.Machine

theorem ucp_mgrWrites (c : MgrCmd) (s : State) :
    ucp (setFld (mgrFrame c.src) 0x028 0 1 1 (setReg (mgrFrame c.src) 0x000 c.a0 (setReg (mgrFrame c.src) 0x008 c.a1 s))) = ucp s := by
  have h : ∀ a, a < 65536 → regKey frFlt 0 ≠ regKey (mgrFrame c.src) a := by
    intro a ha
    unfold mgrFrame regKey frFlt frBmc frMgr
    split <;> omega
  unfold ucp fbit
  rw [reg_setFld_ne _ _ _ _ (h _ (by omega)), reg_setReg_ne _ _ (h _ (by omega)), reg_setReg_ne _ _ (h _ (by omega))]

/-- A sender without the role, or one that is BUSY, is ignored. -/
theorem mgrPut_ignored {op : Nat} {c : MgrCmd} {id : DriveId} {s : State}
    (h : mgrHas s c.src = false ∨ fbit s (mgrFrame c.src) 0x028 0 = true) :
    mgrPut op c id s = s := by
  unfold mgrPut; simp only [h, if_true]

/-- The Cox at rest works on one command that waits. -/
theorem coxGo_one {pr : Proc} {t u : State} (hon : coxOn t = true) (hu : ucp t = false) (hst : t.card.stopped = false) (hstart : t.card.start = none)
    (hup : t.card.up = true) (hi : t.cox.cur = none) (hstep : pr.step = 0)
    (hq : t.cox.queue = [pr]) (hb : t.cox.bg = []) (hc : cmdStep pr { t with cox := { t.cox with cur := some pr, queue := [] } } = some u) :
    coxGo t = coxEnd [] (coxRun 62 u) := by
  have hs : servable t pr = true := by unfold servable; simp [hu, hst, hstart, hup]
  unfold coxGo
  rw [if_pos hon]
  have h1 : coxStep t = some { t with cox := { t.cox with cur := some pr, queue := [] } } := by
    unfold coxStep
    simp [hi, hq, hs]
  have h2 : coxStep { t with cox := { t.cox with cur := some pr, queue := [] } } = some u := by
    rw [← hc]
    unfold coxStep
    have a : ucp { t with cox := { t.cox with cur := some pr, queue := [] } } = false := hu
    have b : cmdDown { t with cox := { t.cox with cur := some pr, queue := [] } } pr = false := by unfold cmdDown; simp [hstep]
    simp only [a, b, Bool.false_and, if_false, Bool.false_eq_true]
  have hr : retiring t = [] := by unfold retiring; rw [hb]; rfl
  rw [hr, coxRun, h1]
  simp only [coxRun, h2]

/-- The Cox at rest takes a command and does its first step. -/
theorem cox_takes {op : Nat} {c : MgrCmd} {id : DriveId} {s u : State} (h : CoxTakes { op := op, c := c, id := id } s)
    (hu : cmdStep { op := op, c := c, id := id } (cmdTaken { op := op, c := c, id := id } s) = some u) :
    act (mgrPut op c id) s = .next (coxThen u) := by
  obtain ⟨h0, ⟨hi, hq, hb, -⟩, ⟨hon, hu', hst, hstart, hup⟩, hm, hbusy, -, hn⟩ := h
  rw [act_live h0]
  refine congrArg Host.Outcome.next (congrArg settle ?_)
  unfold mgrPut
  rw [if_neg (by simp only [hm, hbusy]; decide)]
  have hx := (ucp_mgrWrites c s).trans hu'
  simp only [cmdTaken] at hu hn
  generalize ht : setFld (mgrFrame c.src) 0x028 0 1 1 (setReg (mgrFrame c.src) 0x000 c.a0 (setReg (mgrFrame c.src) 0x008 c.a1 s)) = t at *
  have e1 : t.cox = s.cox := by rw [← ht]; rfl
  have e2 : t.card = s.card := by rw [← ht]; rfl
  have e3 : t.pins = s.pins := by rw [← ht]; rfl
  refine coxGo_one (pr := { op := op, c := c, id := id }) ?_ hx ?_ ?_ ?_ ?_ rfl ?_ ?_ hu
  · rw [← hon]; unfold coxOn; simp only [e1, e2, e3]
  · simp only [e2, hst]
  · simp only [e2, hstart]
  · simp only [e2, hup]
  · simp only [e1, hi]
  · simp only [e1, hq, List.nil_append]
  · simp only [e1, hb]

section
variable {pr : Proc} {s : State}

/-! ### Which function a command runs (Tables 9.4, 11.9, 12.6, 13.13) -/

theorem cmdStep_partCreate (h : namesTest s pr = false) (hp : pr.op = 0x01) : cmdStep pr s = partCreate pr s := by
  unfold cmdStep; rw [if_neg (fun hc => by simp [h] at hc)]; split <;> first | contradiction | omega | rfl
theorem cmdStep_partStart (h : namesTest s pr = false) (hp : pr.op = 0x02) : cmdStep pr s = some (partStart pr s) := by
  unfold cmdStep; rw [if_neg (fun hc => by simp [h] at hc)]; split <;> first | contradiction | omega | rfl
theorem cmdStep_partStop (h : namesTest s pr = false) (hp : pr.op = 0x03) : cmdStep pr s = partReset pr s := by
  unfold cmdStep; rw [if_neg (fun hc => by simp [h] at hc)]; split <;> first | contradiction | omega | rfl
theorem cmdStep_partReset (h : namesTest s pr = false) (hp : pr.op = 0x04) : cmdStep pr s = partReset pr s := by
  unfold cmdStep; rw [if_neg (fun hc => by simp [h] at hc)]; split <;> first | contradiction | omega | rfl
theorem cmdStep_partDelete (h : namesTest s pr = false) (hp : pr.op = 0x05) : cmdStep pr s = partDelete pr s := by
  unfold cmdStep; rw [if_neg (fun hc => by simp [h] at hc)]; split <;> first | contradiction | omega | rfl
theorem cmdStep_dieEvacuate (h : namesTest s pr = false) (hp : pr.op = 0x06) : cmdStep pr s = dieEvacuate pr s := by
  unfold cmdStep; rw [if_neg (fun hc => by simp [h] at hc)]; split <;> first | contradiction | omega | rfl
theorem cmdStep_dieAdd (h : namesTest s pr = false) (hp : pr.op = 0x07) : cmdStep pr s = dieAdd pr s := by
  unfold cmdStep; rw [if_neg (fun hc => by simp [h] at hc)]; split <;> first | contradiction | omega | rfl
theorem cmdStep_slabAssign (h : namesTest s pr = false) (hp : pr.op = 0x08) : cmdStep pr s = slabAssign pr s := by
  unfold cmdStep; rw [if_neg (fun hc => by simp [h] at hc)]; split <;> first | contradiction | omega | rfl
theorem cmdStep_slabRelease (h : namesTest s pr = false) (hp : pr.op = 0x09) : cmdStep pr s = slabRelease pr s := by
  unfold cmdStep; rw [if_neg (fun hc => by simp [h] at hc)]; split <;> first | contradiction | omega | rfl
theorem cmdStep_rpAssign (h : namesTest s pr = false) (hp : pr.op = 0x0A) : cmdStep pr s = rpAssign pr s := by
  unfold cmdStep; rw [if_neg (fun hc => by simp [h] at hc)]; split <;> first | contradiction | omega | rfl
theorem cmdStep_rpRelease (h : namesTest s pr = false) (hp : pr.op = 0x0B) : cmdStep pr s = rpRelease pr s := by
  unfold cmdStep; rw [if_neg (fun hc => by simp [h] at hc)]; split <;> first | contradiction | omega | rfl
theorem cmdStep_partQuery (h : namesTest s pr = false) (hp : pr.op = 0x0C) : cmdStep pr s = some (partQuery pr s) := by
  unfold cmdStep; rw [if_neg (fun hc => by simp [h] at hc)]; split <;> first | contradiction | omega | rfl
theorem cmdStep_errInject (h : namesTest s pr = false) (hp : pr.op = 0x10) : cmdStep pr s = some (errInject pr s) := by
  unfold cmdStep; rw [if_neg (fun hc => by simp [h] at hc)]; split <;> first | contradiction | omega | rfl
theorem cmdStep_rcWrite (h : namesTest s pr = false) (hp : pr.op = 0x30) : cmdStep pr s = rcWrite pr s := by
  unfold cmdStep; rw [if_neg (fun hc => by simp [h] at hc)]; split <;> first | contradiction | omega | rfl
theorem cmdStep_rcVerify (h : namesTest s pr = false) (hp : pr.op = 0x31) : cmdStep pr s = some (rcVerify s) := by
  unfold cmdStep; rw [if_neg (fun hc => by simp [h] at hc)]; split <;> first | contradiction | omega | rfl
theorem cmdStep_rcDisarm (h : namesTest s pr = false) (hp : pr.op = 0x32) : cmdStep pr s = some (rcDisarm s) := by
  unfold cmdStep; rw [if_neg (fun hc => by simp [h] at hc)]; split <;> first | contradiction | omega | rfl
theorem cmdStep_rcRollback (h : namesTest s pr = false) (hp : pr.op = 0x33) : cmdStep pr s = some (rcRollback s) := by
  unfold cmdStep; rw [if_neg (fun hc => by simp [h] at hc)]; split <;> first | contradiction | omega | rfl
theorem cmdStep_rcRead (h : namesTest s pr = false) (hp : pr.op = 0x34) : cmdStep pr s = rcRead pr s := by
  unfold cmdStep; rw [if_neg (fun hc => by simp [h] at hc)]; split <;> first | contradiction | omega | rfl
theorem cmdStep_rcSvnRaise (h : namesTest s pr = false) (hp : pr.op = 0x35) : cmdStep pr s = some (rcSvnRaise s) := by
  unfold cmdStep; rw [if_neg (fun hc => by simp [h] at hc)]; split <;> first | contradiction | omega | rfl
theorem cmdStep_fwActivate (h : namesTest s pr = false) (hp : pr.op = 0x36) : cmdStep pr s = fwActivate pr s := by
  unfold cmdStep; rw [if_neg (fun hc => by simp [h] at hc)]; split <;> first | contradiction | omega | rfl
theorem cmdStep_selftest (h : namesTest s pr = false) (hp : pr.op = 0x37) : cmdStep pr s = some (selftest pr s) := by
  unfold cmdStep; rw [if_neg (fun hc => by simp [h] at hc)]; split <;> first | contradiction | omega | rfl
theorem cmdStep_warmStart (h : namesTest s pr = false) (hp : pr.op = 0x38) : cmdStep pr s = some (warmCmd s) := by
  unfold cmdStep; rw [if_neg (fun hc => by simp [h] at hc)]; split <;> first | contradiction | omega | rfl
theorem cmdStep_logRead (h : namesTest s pr = false) (hp : pr.op = 0x39) : cmdStep pr s = logRead pr s := by
  unfold cmdStep; rw [if_neg (fun hc => by simp [h] at hc)]; split <;> first | contradiction | omega | rfl
theorem cmdStep_bh (h : namesTest s pr = false) (hp : 0x20 ≤ pr.op ∧ pr.op < 0x30) : cmdStep pr s = bhStep pr s := by
  unfold cmdStep; rw [if_neg (fun hc => by simp [h] at hc)]; split <;> first | omega | exact if_pos hp
theorem cmdStep_pair (h : namesTest s pr = false) (hp : 0x40 ≤ pr.op ∧ pr.op < 0x46) : cmdStep pr s = pairStep pr s := by
  unfold cmdStep; rw [if_neg (fun hc => by simp [h] at hc)]; split <;> first | omega | (rw [if_neg (by omega)]; exact if_pos hp)
theorem cmdStep_reserved (h : namesTest s pr = false) (hp : 0x0C < pr.op ∧ pr.op < 0x10 ∨ 0x10 < pr.op ∧ pr.op < 0x20 ∨ 0x39 < pr.op ∧ pr.op < 0x40 ∨ 0x45 < pr.op ∨ pr.op = 0) :
    cmdStep pr s = some (mgrEnd rINVALID 0 s) := by
  have a : ¬(0x20 ≤ pr.op ∧ pr.op < 0x30) := by omega
  have b : ¬(0x40 ≤ pr.op ∧ pr.op < 0x46) := by omega
  unfold cmdStep; rw [if_neg (fun hc => by simp [h] at hc)]; split <;> first | rw [if_neg a, if_neg b] | (rename_i he; rw [he] at hp; exact absurd hp (by decide))
theorem bhStep_bhAttach (h : s.bh.slab.isNone = false) (hp : pr.op = 0x20) : bhStep pr s = some (bhAttach pr s) := by
  unfold bhStep; rw [if_neg (by simp only [h]; decide)]; split <;> first | contradiction | omega | rfl
theorem bhStep_bhDetach (h : s.bh.slab.isNone = false) (hp : pr.op = 0x21) : bhStep pr s = some (bhDetach pr s) := by
  unfold bhStep; rw [if_neg (by simp only [h]; decide)]; split <;> first | contradiction | omega | rfl
theorem bhStep_bhPoolAdd (h : s.bh.slab.isNone = false) (hp : pr.op = 0x22) : bhStep pr s = some (bhPoolAdd pr s) := by
  unfold bhStep; rw [if_neg (by simp only [h]; decide)]; split <;> first | contradiction | omega | rfl
theorem bhStep_bhPoolRemove (h : s.bh.slab.isNone = false) (hp : pr.op = 0x23) : bhStep pr s = some (bhPoolRemove pr s) := by
  unfold bhStep; rw [if_neg (by simp only [h]; decide)]; split <;> first | contradiction | omega | rfl
theorem bhStep_bhNsCreate (h : s.bh.slab.isNone = false) (hp : pr.op = 0x24) : bhStep pr s = some (bhNsCreate pr s) := by
  unfold bhStep; rw [if_neg (by simp only [h]; decide)]; split <;> first | contradiction | omega | rfl
theorem bhStep_bhNsDelete (h : s.bh.slab.isNone = false) (hp : pr.op = 0x25) : bhStep pr s = some (bhNsDelete pr s) := by
  unfold bhStep; rw [if_neg (by simp only [h]; decide)]; split <;> first | contradiction | omega | rfl
theorem bhStep_bhNsAttach (h : s.bh.slab.isNone = false) (hp : pr.op = 0x26) : bhStep pr s = some (bhNsAttach pr s) := by
  unfold bhStep; rw [if_neg (by simp only [h]; decide)]; split <;> first | contradiction | omega | rfl
theorem bhStep_bhNsDetach (h : s.bh.slab.isNone = false) (hp : pr.op = 0x27) : bhStep pr s = bhNsDetach pr s := by
  unfold bhStep; rw [if_neg (by simp only [h]; decide)]; split <;> first | contradiction | omega | rfl
theorem bhStep_bhVfCreate (h : s.bh.slab.isNone = false) (hp : pr.op = 0x28) : bhStep pr s = bhVfCreate pr s := by
  unfold bhStep; rw [if_neg (by simp only [h]; decide)]; split <;> first | contradiction | omega | rfl
theorem bhStep_bhVfDelete (h : s.bh.slab.isNone = false) (hp : pr.op = 0x29) : bhStep pr s = bhVfDelete pr s := by
  unfold bhStep; rw [if_neg (by simp only [h]; decide)]; split <;> first | contradiction | omega | rfl
theorem bhStep_bhVfShare (h : s.bh.slab.isNone = false) (hp : pr.op = 0x2A) : bhStep pr s = some (bhVfShare pr s) := by
  unfold bhStep; rw [if_neg (by simp only [h]; decide)]; split <;> first | contradiction | omega | rfl
theorem bhStep_bhVfFreeze (h : s.bh.slab.isNone = false) (hp : pr.op = 0x2B) : bhStep pr s = bhVfFreeze pr s := by
  unfold bhStep; rw [if_neg (by simp only [h]; decide)]; split <;> first | contradiction | omega | rfl
theorem bhStep_bhVfSave (h : s.bh.slab.isNone = false) (hp : pr.op = 0x2C) : bhStep pr s = bhVfSave pr s := by
  unfold bhStep; rw [if_neg (by simp only [h]; decide)]; split <;> first | contradiction | omega | rfl
theorem bhStep_bhVfRestore (h : s.bh.slab.isNone = false) (hp : pr.op = 0x2D) : bhStep pr s = bhVfRestore pr s := by
  unfold bhStep; rw [if_neg (by simp only [h]; decide)]; split <;> first | contradiction | omega | rfl
theorem bhStep_bhVfThaw (h : s.bh.slab.isNone = false) (hp : pr.op = 0x2E) : bhStep pr s = some (bhVfThaw pr s) := by
  unfold bhStep; rw [if_neg (by simp only [h]; decide)]; split <;> first | contradiction | omega | rfl
theorem bhStep_bhDirtyLog (h : s.bh.slab.isNone = false) (hp : pr.op = 0x2F) : bhStep pr s = bhDirtyLog pr s := by
  unfold bhStep; rw [if_neg (by simp only [h]; decide)]; split <;> first | (exfalso; omega) | rfl

end

/-- A Cox with nothing under way does nothing. -/
theorem coxGo_idle {s : State} (h : CoxIdle s) : coxGo s = s := by
  obtain ⟨h1, h2, h3, h4⟩ := h
  unfold coxGo
  split
  · have hr : coxRun 64 s = s := by
      show coxRun (63 + 1) s = s
      unfold coxRun coxStep
      simp [h1, h2, h3]
    have hc : coxCommands s = s := by
      unfold coxCommands
      rw [h4]
      show { s with cox := { s.cox with cmds := [] } } = s
      rw [← h4]
    unfold coxEnd
    simp only [hr, hc, if_true]
  · rfl

/-- With the Cox at rest, only the alert pins follow a command. -/
theorem after_idle {s : State} (h : CoxIdle s) : after s = settle s := by unfold after; rw [coxGo_idle h]

theorem reg_settle (u : State) (f o : Nat) : reg (settle u) f o = reg u f o := rfl
theorem fbit_settle (u : State) (f o i : Nat) : fbit (settle u) f o i = fbit u f o i := rfl
theorem fld_settle (u : State) (f o l w : Nat) : fld (settle u) f o l w = fld u f o l w := rfl

end Sys2Proof.Machine
end

