-- ==== Sys2Proof/Laws/Memory.lean ====
section
/-! SUPPORT. Memory: a read after a write, and that every memory operation keeps the canonical form. -/

namespace Sys2Proof.Machine

@[simp] theorem rdByte_putByte_self (m : List Host.Cell) (k : Nat) (v : BitVec 8) : rdByte (putByte m k v) k = v := by
  induction m with
  | nil => simp [putByte, rdByte]
  | cons e t ih => simp only [putByte]; repeat' split
                   all_goals simp_all [rdByte]

theorem rdByte_putByte_ne (m : List Host.Cell) {k j : Nat} (v : BitVec 8) (h : j ≠ k) : rdByte (putByte m k v) j = rdByte m j := by
  induction m with
  | nil => simp [putByte, rdByte, Ne.symm h]
  | cons e t ih =>
    simp only [putByte]; repeat' split
    · subst_vars; simp [rdByte, Ne.symm h]
    · simp [rdByte, Ne.symm h]
    · simp only [rdByte, ih]

@[simp] theorem rdByte_dropByte_self (m : List Host.Cell) (k : Nat) : rdByte (dropByte m k) k = memDefault := by
  induction m with
  | nil => rfl
  | cons e t ih => simp only [dropByte]; split <;> simp_all [rdByte]

theorem rdByte_dropByte_ne (m : List Host.Cell) {k j : Nat} (h : j ≠ k) : rdByte (dropByte m k) j = rdByte m j := by
  induction m with
  | nil => rfl
  | cons e t ih =>
    simp only [dropByte]; split
    · subst_vars; simp [rdByte, ih, Ne.symm h]
    · simp only [rdByte, ih]

/-- A byte reads as it was written. -/
@[simp] theorem rdByte_wrByte_self (m : List Host.Cell) (k : Nat) (v : BitVec 8) : rdByte (wrByte m k v) k = v := by
  unfold wrByte
  split <;> simp [*]

/-- A write of one byte leaves every other byte. -/
theorem rdByte_wrByte_ne (m : List Host.Cell) {k j : Nat} (v : BitVec 8) (h : j ≠ k) : rdByte (wrByte m k v) j = rdByte m j := by
  unfold wrByte
  split
  · exact rdByte_dropByte_ne m h
  · exact rdByte_putByte_ne m v h

theorem memWf_le {m : List Host.Cell} {a b : Nat} (h : memWf b m = true) (hab : a ≤ b) : memWf a m = true := by
  cases m with
  | nil => rfl
  | cons e t =>
    obtain ⟨j, w⟩ := e
    simp only [memWf, Bool.and_eq_true, decide_eq_true_eq] at h ⊢
    exact ⟨⟨by omega, h.1.2⟩, h.2⟩

theorem memWf_putByte {m : List Host.Cell} {b k : Nat} {v : BitVec 8} (h : memWf b m = true) (hk : b ≤ k) (hv : v ≠ memDefault) :
    memWf b (putByte m k v) = true := by
  induction m generalizing b with
  | nil => simp [putByte, memWf, *]
  | cons e t ih =>
    obtain ⟨a, w⟩ := e
    simp only [memWf, Bool.and_eq_true, decide_eq_true_eq] at h
    simp only [putByte]
    split
    · subst_vars; simp only [memWf, Bool.and_eq_true, decide_eq_true_eq]; exact ⟨⟨hk, hv⟩, h.2⟩
    · split
      · simp only [memWf, Bool.and_eq_true, decide_eq_true_eq]; exact ⟨⟨hk, hv⟩, ⟨by omega, h.1.2⟩, h.2⟩
      · simp only [memWf, Bool.and_eq_true, decide_eq_true_eq]; exact ⟨h.1, ih h.2 (by omega)⟩

theorem memWf_dropByte {m : List Host.Cell} {b : Nat} (k : Nat) (h : memWf b m = true) : memWf b (dropByte m k) = true := by
  induction m generalizing b with
  | nil => rfl
  | cons e t ih =>
    obtain ⟨a, w⟩ := e
    simp only [memWf, Bool.and_eq_true, decide_eq_true_eq] at h
    simp only [dropByte]
    split
    · exact memWf_le (ih h.2) (by omega)
    · simp only [memWf, Bool.and_eq_true, decide_eq_true_eq]; exact ⟨h.1, ih h.2⟩

/-- Writing one byte keeps the canonical form. -/
theorem wf_wrByte {m : List Host.Cell} (k : Nat) (v : BitVec 8) (h : Memory.wf m = true) : Memory.wf (wrByte m k v) = true := by
  unfold wrByte
  split
  · exact memWf_dropByte k h
  · exact memWf_putByte h (Nat.zero_le k) ‹_›

/-- Writing bytes keeps the canonical form. -/
theorem wf_wrMem {m : List Host.Cell} (a n v : Nat) (h : Memory.wf m = true) : Memory.wf (wrMem m a n v) = true := by
  unfold wrMem
  induction n with
  | zero => exact h
  | succ n ih => rw [List.range_succ, List.foldl_append]; exact wf_wrByte _ _ ih

theorem memWf_filter {m : List Host.Cell} {b : Nat} (q : Host.Cell → Bool) (h : memWf b m = true) : memWf b (m.filter q) = true := by
  induction m generalizing b with
  | nil => rfl
  | cons e t ih =>
    obtain ⟨a, w⟩ := e
    simp only [memWf, Bool.and_eq_true, decide_eq_true_eq] at h
    rw [List.filter_cons]
    split
    · simp only [memWf, Bool.and_eq_true, decide_eq_true_eq]; exact ⟨h.1, ih h.2⟩
    · exact memWf_le (ih h.2) (by omega)

/-- Clearing bytes keeps the canonical form. -/
theorem wf_clearMem {m : List Host.Cell} (a b : Nat) (h : Memory.wf m = true) : Memory.wf (clearMem m a b) = true := memWf_filter _ h

@[simp] theorem wrLine_mem (k : Nat) (d : Line) (p : Bool) (s : State) : (wrLine k d p s).mem = wrMem s.mem k 64 d.toNat := by
  simp only [wrLine]
@[simp] theorem setGranEnt_mem (g t n v : Nat) (s : State) : (setGranEnt g t n v s).mem = wrMem s.mem (entAddr g t n) 4 v := by
  simp only [setGranEnt]

/-- Storing a line keeps the canonical form. -/
theorem wf_wrLine {s : State} (k : Nat) (d : Line) (p : Bool) (h : Memory.wf s.mem = true) : Memory.wf (wrLine k d p s).mem = true := by
  simp only [wrLine_mem]; exact wf_wrMem k 64 d.toNat h

/-- Writing a table entry of a Strata engine keeps the canonical form. -/
theorem wf_setGranEnt {s : State} (g t n v : Nat) (h : Memory.wf s.mem = true) : Memory.wf (setGranEnt g t n v s).mem = true := by
  simp only [setGranEnt_mem]; exact wf_wrMem _ 4 v h

/-- Bytes outside those written keep their values. -/
theorem rdByte_wrMem_out (m : List Host.Cell) {a n j : Nat} (v : Nat) (hj : j < a ∨ a + n ≤ j) : rdByte (wrMem m a n v) j = rdByte m j := by
  unfold wrMem
  induction n with
  | zero => rfl
  | succ n ih =>
    rw [List.range_succ, List.foldl_append, List.foldl_cons, List.foldl_nil, rdByte_wrByte_ne _ _ (by omega)]
    exact ih (by omega)

/-- Byte `i` of those written reads as byte `i` of the number. -/
theorem rdByte_wrMem_in (m : List Host.Cell) {a n i : Nat} (v : Nat) (hi : i < n) :
    rdByte (wrMem m a n v) (a + i) = BitVec.ofNat 8 (v / 256 ^ i) := by
  unfold wrMem
  induction n with
  | zero => omega
  | succ n ih =>
    rw [List.range_succ, List.foldl_append, List.foldl_cons, List.foldl_nil]
    by_cases hin : i = n
    · subst hin; exact rdByte_wrByte_self _ _ _
    · rw [rdByte_wrByte_ne _ _ (by omega)]; exact ih (by omega)

/-- The memory of the state after reset is in canonical form. -/
theorem wf_reset : Memory.wf State.reset.mem = true := rfl

end Sys2Proof.Machine
end

