-- ==== Sys2Proof/WellFormed.lean ====
section
/-! DEFINITION. Well-formed commands: every operand names a unit that the package has and fits its field. The meanings are total:
a command that is not well-formed changes nothing, or names what is not there.
Log entries with the choices and readings made here: 7. -/

namespace Sys2Proof

open Sys2Proof.Machine

/-- A hart (R21). -/
def okHart (h : Nat) : Bool := decide (h < 576)
/-- A compute die, its access point, or a root port (R2, R336). -/
def okDie (d : Nat) : Bool := decide (d < 12)
/-- A partition (R13). -/
def okPart (p : Nat) : Bool := decide (p < 12)
/-- A writer of a register: a partition, or the Cox as 15 (R13, R545). -/
def okWriter (p : Nat) : Bool := decide (p < 12) || decide (p = 15)
/-- A programmable counter of a hart (R532). -/
def okHpm (n : Nat) : Bool := decide (3 ≤ n) && decide (n ≤ 10)
/-- An access point, or root port `n - 16`. -/
def okPort (n : Nat) : Bool := decide (n < 12) || (decide (16 ≤ n) && decide (n < 28))
/-- A destination register: 32 of each kind, a vector register of 32 bytes (R30, R31). -/
def rdOk (r : Rd) : Bool :=
  match r with
  | .none => true
  | .x n _ => decide (n < 32)
  | .f n => decide (n < 32)
  | .v n off => decide (n < 32) && decide (off < 32)
/-- An access of a hart: a size that an instruction has, within the physical address space (R33). -/
def memAccOk (m : MemAcc) : Bool :=
  okHart m.hart && [1, 2, 4, 8, 16, 64].contains m.size && decide (m.pa < 2 ^ 52) && decide (m.pa2 < 2 ^ 52) &&
  (m.x.walk ++ m.x2.walk).all (fun a => decide (a < 2 ^ 52)) && rdOk m.rd
/-- A manager: a partition, or the BMC as 16 (R309). -/
def mgrOk (c : MgrCmd) : Bool := (decide (c.src < 12) || decide (c.src = 16)) && decide (c.seq < 65536)
/-- A TLP of a root port (R336, Table 10.3). -/
def tlpOk (t : Tlp) : Bool := okDie t.rp && decide (t.link < 4) && decide (t.len ≤ 4096) && decide (t.data.length ≤ 512) && decide (t.addr < 2 ^ 64)
/-- A pair frame: the fields of its header fit (R410). -/
def frameOk (f : PairFrame) : Bool := decide (f.ty < 256) && decide (f.part < 16) && decide (f.stream < 64) && decide (f.epoch < 2 ^ 46) && decide (f.data.length ≤ 4096)
/-- A message of one network and one opcode, with fields that fit (R134). -/
def msgOk (n : Net) (op : Nat) (f : Flit) : Bool := flitWf f && decide (f.net = n) && decide (f.op = op)

/-- Is a command well-formed? -/
def wellFormed (i : Instr) : Bool :=
  match i with
  | .load m _ => memAccOk m
  | .store m _ => memAccOk m
  | .amo m _ _ _ _ => memAccOk m
  | .lr m _ _ => memAccOk m
  | .sc m _ _ _ => memAccOk m
  | .amocas m _ _ _ _ => memAccOk m
  | .fence h _ _ => okHart h
  | .fenceI h => okHart h
  | .sfenceWInval h => okHart h
  | .sfenceInvalIr h => okHart h
  | .wfi h => okHart h
  | .cboClean m => memAccOk m
  | .cboFlush m => memAccOk m
  | .cboInval m => memAccOk m
  | .cboZero m => memAccOk m
  | .prefetchI m => memAccOk m
  | .prefetchR m => memAccOk m
  | .prefetchW m => memAccOk m
  | .wrsNto h => okHart h
  | .wrsSto h => okHart h
  | .wrsStoTimeout h => okHart h
  | .storeBufferDrain h _ => okHart h
  | .l1Fill h line _ => okHart h && decide (line < 2 ^ 46)
  | .lrDeferExpire h => okHart h
  | .vendorCsrAccess h csr _ _ => okHart h && decide (csr < 4096)
  | .rnbuoyctlWrite h _ => okHart h
  | .buoyPeriod h => okHart h
  | .mhpmeventWrite h n _ => okHart h && okHpm n
  | .hpmCounterWrite h n _ => okHart h && okHpm n
  | .hpmCounterOverflow h n => okHart h && okHpm n
  | .interruptUpdate f => flitWf f
  | .sliceRequest f => flitWf f
  | .setWaitRelease d sl => okDie d && decide (sl < 24)
  | .l3LockCtlWrite d n _ part => okDie d && decide (n < 4) && okWriter part
  | .l3LockSweepDone d => okDie d
  | .rangeInvalidate d _ _ => okDie d
  | .rangeInvalComplete d => okDie d
  | .rangeTimeout d => okDie d
  | .rangeNoresp d => okDie d
  | .rdshared f => msgOk .req oRdShared f
  | .rdown f => msgOk .req oRdOwn f
  | .upgrade f => msgOk .req oUpgrade f
  | .claimown f => msgOk .req oClaimOwn f
  | .rdonce f => msgOk .req oRdOnce f
  | .rdrgn f => msgOk .req oRdRgn f
  | .wrfull f => msgOk .req oWrFull f
  | .wrbackdirty f => msgOk .req oWrBackDirty f
  | .evictclean f => msgOk .req oEvictClean f
  | .rgnrel f => msgOk .req oRgnRel f
  | .cboclean f => msgOk .req oCboClean f
  | .cboflush f => msgOk .req oCboFlush f
  | .iord f => msgOk .req oIoRd f
  | .iowr f => msgOk .req oIoWr f
  | .cfgrd f => msgOk .req oCfgRd f
  | .cfgwr f => msgOk .req oCfgWr f
  | .intmsg f => msgOk .req oIntMsg f
  | .mail f => msgOk .req oMail f
  | .reservedOpcode f => flitWf f
  | .rsvdId f stop => flitWf f && decide (stop < 108)
  | .regionSplitDone ha g => decide (ha < 32) && decide (g < 2 ^ 40)
  | .snpshared f => msgOk .snp oSnpShared f
  | .snpown f => msgOk .snp oSnpOwn f
  | .snpinv f => msgOk .snp oSnpInv f
  | .snpcur f => msgOk .snp oSnpCur f
  | .snpclean f => msgOk .snp oSnpClean f
  | .backinv f => msgOk .snp oBackInv f
  | .snprgnsplit f => msgOk .snp oSnpRgnSplit f
  | .snprgninv f => msgOk .snp oSnpRgnInv f
  | .comp f => msgOk .rsp oComp f
  | .compack f => msgOk .rsp oCompAck f
  | .snprsp f => msgOk .rsp oSnpRsp f
  | .evictack f => msgOk .rsp oEvictAck f
  | .retry f => msgOk .rsp oRetry f
  | .creditgrant f => msgOk .rsp oCreditGrant f
  | .fault f => msgOk .rsp oFault f
  | .iocomp f => msgOk .rsp oIoComp f
  | .data f => msgOk .dat oData f
  | .datacopy f => msgOk .dat oDataCopy f
  | .snpdata f => msgOk .dat oSnpData f
  | .rgnmap f => msgOk .dat oRgnMap f
  | .iodata f => msgOk .dat oIoData f
  | .snpTimeout ha _ agent => decide (ha < 32) && decide (agent < 4096)
  | .rsvtmo ha _ _ => decide (ha < 32)
  | .teardown ha p => decide (ha < 32) && okPart p
  | .teardownComplete ha p => decide (ha < 32) && okPart p
  | .teardownTimeout ha p => decide (ha < 32) && okPart p
  | .resume ha p => decide (ha < 32) && okPart p
  | .memoryRead pa _ => decide (pa < 2 ^ 52)
  | .memoryWrite pa => decide (pa < 2 ^ 52)
  | .linkFlitSend ap dir f => okDie ap && decide (dir < 2) && flitWf f
  | .linkFlitReceive ap dir q _ _ => okDie ap && decide (dir < 2) && decide (q < 4)
  | .linkcredit ap dir q a b c e => okDie ap && decide (dir < 2) && decide (q.quarter < 4) && [a, b, c, e].all (fun n => decide (n < 1024))
  | .rateCallSend d => okDie d
  | .rateCall d _ => okDie d
  | .rateCallMiss d => okDie d
  | .demand d _ => okDie d
  | .demandMiss d => okDie d
  | .hello d _ => okDie d
  | .helloAck d _ _ => okDie d
  | .trainStep d _ step _ _ => okDie d && decide (step < 32)
  | .trainFail d => okDie d
  | .widthBeaconSend d => okDie d
  | .widthBeacon d _ => okDie d
  | .widthReport d _ => okDie d
  | .repair d _ _ => okDie d
  | .repairAck d _ _ => okDie d
  | .repairSwitch d _ wg => okDie d && decide (wg < 128)
  | .repairWindowEnd d _ => okDie d
  | .autoRecal d _ wg => okDie d && decide (wg < 128)
  | .pwrReq d target => okDie d && decide (target < 8)
  | .pwrAck d _ => okDie d
  | .wakePattern d _ _ => okDie d
  | .sidebandBadFrame d _ _ => okDie d
  | .sidebandResend d _ ty => okDie d && decide (ty < 256)
  | .sbRstNRelease d => okDie d
  | .sbRstNAssert d => okDie d
  | .fclkLoss d q _ => okDie d && decide (q < 4)
  | .sbUpClkLoss d => okDie d
  | .sbFatalN d => okDie d
  | .dieEndClockLoss d => okDie d
  | .retrain d part => okDie d && okWriter part
  | .retrainFull d _ part => okDie d && okWriter part
  | .hold d part => okDie d && okWriter part
  | .recal d part => okDie d && okWriter part
  | .lnkCutWrite d _ _ part => okDie d && okWriter part
  | .lnkErrInjWrite d _ _ part => okDie d && okWriter part
  | .niInject stop f => decide (stop < 96) && flitWf f
  | .disabledStopRefuse stop f => decide (stop < 96) && flitWf f
  | .switch part => okWriter part
  | .oldcntDrained => true
  | .iofStopCtlWrite stop _ part => decide (stop < 96) && okWriter part
  | .routeEntryWrite stop bank e _ part => decide (stop < 96) && decide (bank < 2) && decide (e < 97) && okWriter part
  | .apInboundFlit ap f => okDie ap && flitWf f
  | .softFence port part => okPort port && okWriter part
  | .fenced port => okPort port
  | .fenceTimeout port => okPort port
  | .hardFence port part => okPort port && okWriter part
  | .fenceLift port part => okPort port && okWriter part
  | .coxcmdFence d => okDie d
  | .unfence d => okDie d
  | .parkFlit ap f => okDie ap && flitWf f
  | .parkfullFall ap => okDie ap
  | .parkRelease ap => okDie ap
  | .probeSelect stop port _ f => decide (stop < 96) && okPort port && flitWf f
  | .prbCntWrite k _ part => decide (k < 16) && okWriter part
  | .memSetcmd _ part => okWriter part
  | .memSlabentWrite _ part => okWriter part
  | .slabUpdateDone => true
  | .seAccess pa _ => decide (pa < 2 ^ 52)
  | .cntDecay g => decide (g < 4)
  | .promotion g => decide (g < 4)
  | .moveChunkCopy g _ => decide (g < 4)
  | .moveComplete g _ => decide (g < 4)
  | .pin p pa => okPart p && decide (pa < 2 ^ 52)
  | .unpin p pa => okPart p && decide (pa < 2 ^ 52)
  | .promote p pa => okPart p && decide (pa < 2 ^ 52)
  | .restore p pa => okPart p && decide (pa < 2 ^ 52)
  | .remapRebuilt g => decide (g < 4)
  | .sePolicyWrite g off _ part => decide (g < 4) && (off = 0 || off = 8) && okWriter part
  | .scrubRead g tier _ _ => decide (g < 4) && decide (tier < 2)
  | .pageRetirement g tier _ => decide (g < 4) && decide (tier < 2)
  | .retirementTimeout => true
  | .channelFail _ n => decide (n < 16)
  | .slabStepTimeout => true
  | .partCreate c => mgrOk c
  | .partStart c => mgrOk c
  | .partStop c => mgrOk c
  | .partReset c => mgrOk c
  | .partDelete c => mgrOk c
  | .dieEvacuate c => mgrOk c
  | .dieAdd c => mgrOk c
  | .slabAssign c => mgrOk c
  | .slabRelease c => mgrOk c
  | .rpAssign c => mgrOk c
  | .rpRelease c => mgrOk c
  | .partQuery c => mgrOk c
  | .mgrCmdReserved c op => mgrOk c && decide (op < 256)
  | .lifecycleStepTimeout => true
  | .selfrst p => okPart p
  | .park p h => okPart p && okHart h
  | .start p h => okPart p && okHart h
  | .parkTimeout h => okHart h
  | .send p dst => okPart p && decide (dst < 16)
  | .mbxRxpop p => okPart p
  | .mbxRxirqWrite p _ => okPart p
  | .dmaWrite t => tlpOk t
  | .dmaRead t => tlpOk t
  | .atomicop t _ _ _ => tlpOk t
  | .msi t => tlpOk t
  | .zeroLengthRead t => tlpOk t
  | .completionTlp rp tag _ _ => okDie rp && decide (tag < 256)
  | .cplTimeout rp tag => okDie rp && decide (tag < 256)
  | .cxlRdcurr rp pa => okDie rp && decide (pa < 2 ^ 52)
  | .cxlRdshared rp pa => okDie rp && decide (pa < 2 ^ 52)
  | .cxlRdown rp pa => okDie rp && decide (pa < 2 ^ 52)
  | .cxlRdownnodata rp pa => okDie rp && decide (pa < 2 ^ 52)
  | .cxlItomwr rp pa _ _ => okDie rp && decide (pa < 2 ^ 52)
  | .cxlDirtyevict rp pa _ _ => okDie rp && decide (pa < 2 ^ 52)
  | .cxlCleanevict rp pa => okDie rp && decide (pa < 2 ^ 52)
  | .cxlSnoopTimeout rp pa => okDie rp && decide (pa < 2 ^ 52)
  | .cxlMemTimeout rp pa => okDie rp && decide (pa < 2 ^ 52)
  | .linkDownDpc rp link => okDie rp && decide (link < 4)
  | .slotControlWrite rp link _ => okDie rp && decide (link < 4)
  | .slotPinChange rp link pin _ => okDie rp && decide (link < 4) && decide (pin < 4)
  | .imsicClaim h file sel _ _ => okHart h && decide (file < 9) && decide (sel < 256)
  | .aplicSource p src _ => okPart p && (decide (0 < src) && decide (src < 256))
  | .gpioInput pin _ => decide (pin < 32)
  | .mgtBar0Access _ off _ => (decide (off < 0x100000) && decide (off % 8 = 0))
  | .tapInstruction _ hart => okHart hart
  | .sqTailDoorbell part vf _ _ => okWriter part && decide (vf < 1024)
  | .cqHeadDoorbell part vf _ _ => okWriter part && decide (vf < 1024)
  | .ccEnSet part vf _ _ => okWriter part && decide (vf < 1024)
  | .controllerReset part vf => okWriter part && decide (vf < 1024)
  | .bqeAdmission vf q _ _ => decide (vf < 1024) && decide (q ≤ 128)
  | .deleteIoSq vf => decide (vf < 1024)
  | .createIoSq vf => decide (vf < 1024)
  | .getLogPage vf => decide (vf < 1024)
  | .deleteIoCq vf => decide (vf < 1024)
  | .createIoCq vf => decide (vf < 1024)
  | .identify vf => decide (vf < 1024)
  | .abort vf => decide (vf < 1024)
  | .setFeatures vf => decide (vf < 1024)
  | .getFeatures vf => decide (vf < 1024)
  | .asynchronousEventRequest vf => decide (vf < 1024)
  | .nvmeInvalidOpcode vf _ => decide (vf < 1024)
  | .flush _ => true
  | .write _ => true
  | .read _ => true
  | .compare _ => true
  | .writeZeroes _ => true
  | .datasetManagement _ => true
  | .rangeLockGrant _ => true
  | .backingCompletion _ _ => true
  | .backingTimeout _ => true
  | .mapCommitComplete nsid _ _ => (decide (0 < nsid) && decide (nsid ≤ 2048))
  | .flr vf => decide (vf < 1024)
  | .ps1Entry vf => decide (vf < 1024)
  | .proxyAccess rp rid page off _ _ => okDie rp && decide (rid < 65536) && decide (page < 262144) && decide (off < 4096)
  | .driveLost _ => true
  | .poolRebuildDone p _ => okPart p
  | .bhDriveAttach c _ => mgrOk c
  | .bhDriveDetach c => mgrOk c
  | .bhPoolAdd c => mgrOk c
  | .bhPoolRemove c => mgrOk c
  | .bhNsCreate c => mgrOk c
  | .bhNsDelete c => mgrOk c
  | .bhNsAttach c => mgrOk c
  | .bhNsDetach c => mgrOk c
  | .bhVfCreate c => mgrOk c
  | .bhVfDelete c => mgrOk c
  | .bhVfShare c => mgrOk c
  | .bhVfFreeze c => mgrOk c
  | .vfFreezeTimeout vf => decide (vf < 1024)
  | .bhVfSave c => mgrOk c
  | .bhVfRestore c => mgrOk c
  | .bhVfThaw c => mgrOk c
  | .bhDirtyLog c => mgrOk c
  | .bhFwActivate c => mgrOk c
  | .bhActivationAbandon => true
  | .pairHelloSend => true
  | .pairHello _ _ => true
  | .mirror f => frameOk f
  | .bulk f => frameOk f
  | .hartFrame f => frameOk f
  | .ctrlFrame f => frameOk f
  | .bqeFrame f => frameOk f
  | .blkFrame f => frameOk f
  | .epochEnd f => frameOk f
  | .commit f => frameOk f
  | .fatal f => frameOk f
  | .handover f => frameOk f
  | .taken f => frameOk f
  | .pairFrameReserved f => frameOk f
  | .epochClose p => okPart p
  | .ckpt p _ => okPart p
  | .epochCloseTimeout p => okPart p
  | .sendLogFull => true
  | .sendLogDrained => true
  | .pairLinkLoss => true
  | .pairLinkReturn => true
  | .autotakeTimeout => true
  | .takeoverStepTimeout p _ => okPart p
  | .pairProtect c => mgrOk c
  | .pairUnprotect c => mgrOk c
  | .pairSwitch c => mgrOk c
  | .pairTakeover c => mgrOk c
  | .pairRelease c => mgrOk c
  | .pairQuery c => mgrOk c
  | .pwrokRise _ => true
  | .pkgRstNRise _ => true
  | .pkgRstNFall _ => true
  | .pwrokFall => true
  | .startStepFail step => decide (step < 32)
  | .rcWrite c => mgrOk c
  | .rcVerify c => mgrOk c
  | .rcDisarm c => mgrOk c
  | .rcRollback c => mgrOk c
  | .rcRead c => mgrOk c
  | .rcSvnRaise c => mgrOk c
  | .coxFwActivate c => mgrOk c
  | .heartbeatMiss => true
  | .probationEnd => true
  | .lockstepMiscompare _ => true
  | .warmStart c => mgrOk c
  | .logRead c => mgrOk c
  | .dieBist c => mgrOk c
  | .linkFull c => mgrOk c
  | .memTest c => mgrOk c
  | .rpMargin c => mgrOk c
  | .wgRecal c => mgrOk c
  | .l3Bank c => mgrOk c
  | .selftestComplete result _ _ => decide (result < 3)
  | .errInject c => mgrOk c
  | .ppaAllocation _ _ _ => true
  | .railSettled d => okDie d
  | .avsTimeout d => okDie d
  | .powerEstimate d _ _ => okDie d
  | .throttleLevelDown d => okDie d
  | .sensorRead sensor _ => decide (sensor < 17)
  | .thermalStep d => okDie d
  | .thermalPersist d => okDie d
  | .d3Entry d => okDie d
  | .d3EntryAbort d => okDie d
  | .k3Entry => true
  | .k3Wake src => (decide (src < 4) || (decide (16 ≤ src) && decide (src < 28)))
  | .timerCompare h => okHart h
  | .refLoss => true
  | .railFail rail => decide (rail < 21)
  | .faultRecordService frame => decide (frame < 4096)
  | .incidentClose => true
  | .ceRateWindow => true
  | .fltPpop p => okPart p
  | .fltPirqWrite p _ => okPart p
  | .fltPkgWrite _ part => (okWriter part || decide (part = 16))
  | .errInjWrite frame _ part => decide (frame < 4096) && okWriter part
  | .injectionFire frame _ => decide (frame < 4096)
  | .windowBoundary => true
  | .iofWinCtlWrite _ part => okWriter part
  | .registerWrite frame off _ part => decide (frame < 4096) && (decide (off < 65536) && decide (off % 8 = 0)) && okWriter part
  | .alwaysOnRailRemoved => true
  | .epochDrainTimeout => true
  | .interruptCoalescingTime vf => decide (vf < 1024)
  | .cxlSnoopAnswer rp pa _ _ _ => okDie rp && decide (pa < 2 ^ 52)
  | .cxlMemAnswer rp pa _ _ _ => okDie rp && decide (pa < 2 ^ 52)
  | .pcieLinkUp rp link speed _ _ => okDie rp && decide (link < 4) && decide (speed < 8)
  | .coxActivationTimeout step => decide (step < 32)
  | .crosslinkLoss n => decide (n < 2)
  | .atsTranslationRequest rp rid _ _ => okDie rp && decide (rid < 65536)
  | .pageRequestMessage rp rid _ _ => okDie rp && decide (rid < 65536)

end Sys2Proof
end

