-- ==== Sys2Proof/Tests/Slice0.lean ====
section
/-! SUPPORT. Tests: each check of well-formedness refuses an ill-formed command; the spec's worked examples; a few single steps; and for
every statement that has hypotheses a concrete state and operands that meet them, clause by clause. -/

namespace Sys2Proof.Tests

open Sys2Proof Sys2Proof.Machine

set_option maxRecDepth 20000
set_option linter.unusedVariables false

/-! ### Small states -/

/-- A package that has power and has started, with its BMC as manager. -/
def wOn : State := { State.reset with pins := { State.reset.pins with pwrok := true, everUp := true, pkgRst := true }, card := { State.reset.card with up := true }, bmcMgr := true }
/-- Partition 0 runs on die 0 with root port 0, and owns slab 0, an HBM set of one. -/
def wVis : Vis := { dieP := 0 :: List.replicate 11 15, rpP := 0 :: List.replicate 11 15 }
def w0 : State := { wOn with parts := [(0, { st := .running, dies := 1, rps := 1 })], dies := [(0, { asg := some 0 })], slab := [(0, 2)], vis := wVis }
/-- Its hart 0. -/
def wH (x : Hart) : State := { w0 with harts := [(0, x)] }
/-- A running hart 0. -/
def wR : State := wH { st := .run }
/-- Flash contents whose slot directory names a CURRENT, a PENDING and a WRITING slot, and whose CURRENT image has SVN 64 (R445). -/
def wFlA : List Host.Cell := flashOf [(8, [1, 3, 5]), (4092, [0xF3, 0xF7, 0x93, 0x63]), (0x01000010, [64]), (0x0500001D, [1])]
/-- Flash contents whose slot directory names a CURRENT and a PREVIOUS slot, the second with SVN 64 (R445). -/
def wFlB : List Host.Cell := flashOf [(8, [1, 2, 0]), (4092, [0xB7, 0x3E, 0x38, 0x2D]), (0x05000010, [64])]
/-- The package with those flash contents. -/
def wFl (x : List Host.Cell) : State := { w0 with card := { w0.card with cs0 := x } }
theorem wFlA_dir : dirCopy wFlA = some 0 := by decide +kernel
theorem wFlB_dir : dirCopy wFlB = some 0 := by decide +kernel
theorem wFl_floor (x : List Host.Cell) : svnFloor (wFl x) < 64 := by
  have h := Config.factorySvn.isLt
  show max Config.factorySvn.toNat 0 < 64
  omega
/-- The die's link is up. -/
def wL : State := setLinkSt 0 lL0 w0
/-- A flit, and another of its way that was sent before it. -/
def wBehind (f : Flit) : State := { wL with wires := [{ f with txn := 1 }, f] }
/-- A home keeps a way of set 0 for a request that it refused. -/
def wKept : State := { wL with homes := [(0, { rsv := [{ src := sliceAgent 0 0, cause := .set false 0 }] })] }

/-! ### Well-formedness: each check refuses an ill-formed command -/

theorem test_wf_accepts : wellFormed (.fenceI 575) = true ∧ wellFormed (.load { size := 8 } false) = true ∧ wellFormed (.mail { net := .req, op := oMail }) = true := by decide
theorem test_wf_hart : wellFormed (.fenceI 576) = false := by decide
theorem test_wf_die : wellFormed (.l3LockSweepDone 12) = false := by decide
theorem test_wf_partition : wellFormed (.selfrst 12) = false := by decide
theorem test_wf_writer : wellFormed (.l3LockCtlWrite 0 0 0 12) = false := by decide
theorem test_wf_counter : wellFormed (.hpmCounterWrite 0 2 0) = false ∧ wellFormed (.hpmCounterWrite 0 11 0) = false := by decide
theorem test_wf_port : wellFormed (.probeSelect 0 12 0 {}) = false := by decide
theorem test_wf_access_size : wellFormed (.load { size := 3 } false) = false := by decide
theorem test_wf_access_address : wellFormed (.load { size := 8, pa := 2 ^ 52 } false) = false := by decide
theorem test_wf_manager : wellFormed (.partStop { src := 12 }) = false := by decide
theorem test_wf_tlp : wellFormed (.dmaRead { rp := 0, len := 4097 }) = false := by decide
theorem test_wf_frame : wellFormed (.mirror { part := 16 }) = false := by decide
theorem test_wf_network : wellFormed (.mail { net := .snp, op := oMail }) = false := by decide
theorem test_wf_opcode : wellFormed (.mail { net := .req, op := oIntMsg }) = false := by decide
theorem test_wf_flit_source : wellFormed (.niInject 0 { src := 4096 }) = false := by decide
theorem test_wf_flit_address : wellFormed (.niInject 0 { net := .req, addr := 2 ^ 52 }) = false := by decide
theorem test_wf_flit_txn : wellFormed (.niInject 0 { txn := 4096 }) = false := by decide
theorem test_wf_flit_part : wellFormed (.niInject 0 { part := 16 }) = false := by decide
theorem test_wf_stop : wellFormed (.niInject 96 {}) = false := by decide
theorem test_wf_line : wellFormed (.l1Fill 0 (2 ^ 46) false) = false := by decide
theorem test_wf_csr : wellFormed (.vendorCsrAccess 0 4096 false 0) = false := by decide
theorem test_wf_slice : wellFormed (.setWaitRelease 0 24) = false := by decide
theorem test_wf_lock : wellFormed (.l3LockCtlWrite 0 4 0 15) = false := by decide
theorem test_wf_home : wellFormed (.teardown 32 0) = false := by decide
theorem test_wf_region : wellFormed (.regionSplitDone 0 (2 ^ 40)) = false := by decide
theorem test_wf_agent : wellFormed (.snpTimeout 0 0 4096) = false := by decide
theorem test_wf_memory : wellFormed (.memoryWrite (2 ^ 52)) = false := by decide
theorem test_wf_direction : wellFormed (.linkFlitSend 0 2 {}) = false := by decide
theorem test_wf_queue : wellFormed (.linkFlitReceive 0 0 4 .req []) = false := by decide
theorem test_wf_train_step : wellFormed (.trainStep 0 true 32 true []) = false := by decide
theorem test_wf_wire_group : wellFormed (.repairSwitch 0 true 128) = false := by decide
theorem test_wf_power_state : wellFormed (.pwrReq 0 8) = false := by decide
theorem test_wf_sideband_type : wellFormed (.sidebandResend 0 true 256) = false := by decide
theorem test_wf_quarter : wellFormed (.fclkLoss 0 4 0) = false := by decide
theorem test_wf_route_bank : wellFormed (.routeEntryWrite 0 2 0 0 15) = false := by decide
theorem test_wf_route_entry : wellFormed (.routeEntryWrite 0 0 97 0 15) = false := by decide
theorem test_wf_probe_counter : wellFormed (.prbCntWrite 16 0 15) = false := by decide
theorem test_wf_group : wellFormed (.cntDecay 4) = false := by decide
theorem test_wf_tier : wellFormed (.scrubRead 0 2 0 .none) = false := by decide
theorem test_wf_policy : wellFormed (.sePolicyWrite 0 16 0 15) = false := by decide
theorem test_wf_channel : wellFormed (.channelFail true 16) = false := by decide
theorem test_wf_manager_code : wellFormed (.mgrCmdReserved { src := 16 } 256) = false := by decide
theorem test_wf_mail_target : wellFormed (.send 0 16) = false := by decide
theorem test_wf_tag : wellFormed (.cplTimeout 0 256) = false := by decide
theorem test_wf_link : wellFormed (.linkDownDpc 0 4) = false := by decide
theorem test_wf_speed : wellFormed (.pcieLinkUp 0 0 8 1 false) = false := by decide
theorem test_wf_slot_pin : wellFormed (.slotPinChange 0 0 4 true) = false := by decide
theorem test_wf_file : wellFormed (.imsicClaim 0 9 0 false 0) = false := by decide
theorem test_wf_source : wellFormed (.aplicSource 0 0 true) = false ∧ wellFormed (.aplicSource 0 256 true) = false := by decide
theorem test_wf_pin : wellFormed (.gpioInput 32 true) = false := by decide
theorem test_wf_bar : wellFormed (.mgtBar0Access false 4 0) = false := by decide
theorem test_wf_function : wellFormed (.flr 1024) = false := by decide
theorem test_wf_queue_number : wellFormed (.bqeAdmission 0 129 {} false) = false := by decide
theorem test_wf_namespace : wellFormed (.mapCommitComplete 0 0 true) = false := by decide
theorem test_wf_proxy : wellFormed (.proxyAccess 0 0 0 4096 true []) = false := by decide
theorem test_wf_requester : wellFormed (.atsTranslationRequest 0 65536 0 none) = false := by decide
theorem test_wf_start_step : wellFormed (.startStepFail 32) = false := by decide
theorem test_wf_result : wellFormed (.selftestComplete 3 0 []) = false := by decide
theorem test_wf_sensor : wellFormed (.sensorRead 17 0) = false := by decide
theorem test_wf_wake : wellFormed (.k3Wake 4) = false ∧ wellFormed (.k3Wake 28) = false := by decide
theorem test_wf_rail : wellFormed (.railFail 21) = false := by decide
theorem test_wf_frame_number : wellFormed (.faultRecordService 4096) = false := by decide
theorem test_wf_register : wellFormed (.registerWrite 0 4 0 15) = false := by decide
theorem test_wf_crosslink : wellFormed (.crosslinkLoss 2) = false := by decide

theorem test_wf_walk : wellFormed (.load { size := 8, x := { walk := [2 ^ 52] } } false) = false := by decide
theorem test_wf_destination : wellFormed (.load { size := 8, rd := .f 32 } false) = false ∧ wellFormed (.load { size := 8, rd := .v 0 32 } false) = false := by decide
theorem test_wf_reserved_stop : wellFormed (.rsvdId { net := .req } 108) = false := by decide
theorem test_wf_sequence : wellFormed (.partStop { src := 16, seq := 65536 }) = false := by decide
theorem test_wf_payload : wellFormed (.mirror { data := List.replicate 4097 0 }) = false := by decide
theorem test_wf_credits : wellFormed (.linkcredit 0 0 {} 1024 0 0 0) = false := by decide
theorem test_wf_flit_index : wellFormed (.niInject 0 { net := .dat, idx := 64 }) = false := by decide
theorem test_wf_flit_count : wellFormed (.niInject 0 { net := .rsp, ndata := 128 }) = false := by decide

/-! ### The spec's own examples -/

/-- Hart 301: agent 0x60D, its slice 0x646, its Stroke unit 0x664 (after R21). -/
theorem test_hart301_agents : hartAgent 301 = 0x60D ∧ sliceAgent 6 6 = 0x646 ∧ agent 6 100 = 0x664 ∧ agHart 0x60D = 301 := by decide
/-- Its line lies at slice 3, set 0x035, die-region-table set 0xC0 (after R89). -/
theorem test_line_on_the_die : sliceOf 0x1043A2C0 = 3 ∧ dirSet (lineOf 0x01043A2C0D40) = 0x035 ∧ dieRset 0x1043A2C0 = 0xC0 := by decide
/-- Its home is HA21, region-table set 0x516, line-table set 0x5B5 (after R124). -/
theorem test_line_at_its_home : homeOf 0x1043A2C0 = 21 ∧ homeRset 0x1043A2C0 = 0x516 ∧ homeLset (lineOf 0x01043A2C0D40) = 0x5B5 := by decide
/-- Slabs 1,040 to 1,043 of partition 3 as a Flat HBM set with LW 2, DSLAB 5 (after R271). -/
def wEx : State := { w0 with slab := [(1040, 41998), (1041, 44046), (1042, 46094), (1043, 48142)] }
theorem test_entries : (List.range 4).all (fun k => slState (slabEnt wEx (1040 + k)) = 2 ∧ slOwner (slabEnt wEx (1040 + k)) = 3 ∧ slKind (slabEnt wEx (1040 + k)) = 0 ∧ slLw (slabEnt wEx (1040 + k)) = 2 ∧ slGrp (slabEnt wEx (1040 + k)) = k ∧ slDslab (slabEnt wEx (1040 + k)) = 5) = true := by decide
/-- The line lies in column 2 at medium address 0x1_4E8B_0D40, channel 15, pseudo-channel 0. -/
theorem test_medium_address : colSlab 0x01043A2C0D40 2 = 1042 ∧ mediumOf wEx 0x01043A2C0D40 = 0x14E8B0D40 ∧ hbmPc 0x14E8B0D40 = 30 := by decide
/-- The address of the exchange of Table 8.10 lies in column 1. -/
theorem test_tiered_column : colSlab 0x010800004100 2 = 1057 := by decide
/-- VF 130 has routing ID 0x0182, and its configuration space is at 0x0000_1000_C018_2000 (after R365). -/
theorem test_vf130 : vfRid 130 = 0x0182 ∧ ioTarget 0x1000C0182000 = .vfCfg 130 0 := by decide
/-- Hart 301's S-level interrupt file (chapter 10). -/
theorem test_imsic301 : imAddr 301 1 = 0x000FFFF0092D1000 ∧ imOf 0x000FFFF0092D1000 = some (301, 1) := by decide
/-- Duo D6 of a compute die is at (0,2), and slice D3 at (3,1) (after R89). -/
theorem test_die_stops : cdStop 13 = (0, 2) ∧ cdStop 0x43 = (3, 1) := by decide
/-- The XY route of RP3 at (11,2) to IC2 at (6,5) passes BH1 at (6,3) (after R245). -/
theorem test_xy_route : (xyPath (11, 2) (6, 5)).contains (6, 3) = true ∧ (xyPath (11, 2) (6, 5)).length = 8 := by decide
/-- VREF_NOM 34, VREF_MIN 28, VREF_MAX 40 and VREF_OFS +8 give 40 (R209). -/
theorem test_vref : effCode 34 8 28 40 6 = 40 := by decide
/-- With group 53 failed, quarter 2 inbound keeps two DAT, one SNP and three RSP channels, on groups 48 to 52 and 54 to 71 (after R216). -/
theorem test_width : chans { maskI := [0, 0, 32, 0, 0, 0, 0, 0] } false false 2 = some (2, 1, 3) ∧
    (List.range 9).map (laneWg { maskI := [0, 0, 32, 0, 0, 0, 0, 0] } false false 2 .dat 0) = [48, 49, 50, 51, 52, 54, 55, 56, 57] ∧
    laneWg { maskI := [0, 0, 32, 0, 0, 0, 0, 0] } false false 2 .dat 1 8 = 66 ∧ laneWg { maskI := [0, 0, 32, 0, 0, 0, 0, 0] } false false 2 .snp 0 0 = 67 ∧
    (List.range 3).map (fun ch => laneWg { maskI := [0, 0, 32, 0, 0, 0, 0, 0] } false false 2 .rsp ch 0) = [69, 70, 71] := by decide
/-- The published check value of CRC-32C. -/
theorem test_crc32c : crc32c [0x31, 0x32, 0x33, 0x34, 0x35, 0x36, 0x37, 0x38, 0x39] = 0xE3069283 := by decide
/-- A data bit inverted is corrected; two are not (R190). -/
theorem test_lane_code : decodeSyn (syndrome 0x8000000000000000 0) = .fixed 63 ∧ decodeSyn (syndrome 3 0) = .bad := by decide

/-! ### Steps -/

/-- What a step answers, or the state before it. -/
def nextOr (o : Host.Outcome State Fault Refusal) (s : State) : State :=
  match o with
  | .next t => t
  | _ => s
/-- The state after a step with a command at the front. -/
def stepOf (c : Instr) (s : State) : State := nextOr (step { s with pending := [c] }) s

/-- Without power nothing happens (R569). -/
theorem test_no_power : stepOf (.selfrst 0) State.reset = State.reset := by decide
/-- A manager's PART_STOP is ignored while it does not hold the role (R309). -/
theorem test_no_role : (stepOf (.partStop { src := 1 }) w0).cox.queue = [] ∧ (stepOf (.partStop { src := 1 }) w0).cox.cur = none := by decide
/-- A message that the matrix does not allow is DENIED (R329). -/
theorem test_mail_denied : fld (stepOf (.mail { net := .req, op := oMail, src := sliceAgent 0 0, dst := coxAgent, part := 0, addr := 5 }) wL) (frMail 0) 0x048 1 3 = 1 := by decide
/-- SWITCH with a flit of the old epoch left sets REFUSED and leaves the bank (R245). -/
theorem test_switch_refused : fbit (stepOf (.switch 15) { w0 with live := [{ epoch := true }] }) frIof 0x008 1 = true ∧ bank (stepOf (.switch 15) { w0 with live := [{ epoch := true }] }) = 0 := by decide
/-- SWITCH with none left changes the bank (R244). -/
theorem test_switch : bank (stepOf (.switch 15) w0) = 1 := by decide
/-- A partition's write of the fault window has no effect (R531). -/
theorem test_fault_window : (stepOf (.fltPkgWrite 2 0) (setBit frFlt 0 1 w0)).regs = (setBit frFlt 0 1 w0).regs := by decide

/-- A flit that names a reserved agent is discarded at a stop of the compute die too, with a record of the die (R20). -/
theorem test_reserved_agent : fld (stepOf (.rsvdId { dst := 4095, part := 0 } 96) { wL with wires := [{ dst := 4095, part := 0 }] }) (frDlog 0) 0x518 0 16 = 9 ∧
    (stepOf (.rsvdId { dst := 4095, part := 0 } 96) { wL with wires := [{ dst := 4095, part := 0 }] }).wires = [] := by decide
/-- A request that another of its way was sent before stays where it is (R82). -/
theorem test_order : (stepOf (.rdshared { net := .req, op := oRdShared, src := hartAgent 0, dst := sliceAgent 0 0, part := 0 })
      { wL with wires := [{ net := .req, op := oRdOwn, src := hartAgent 0, dst := sliceAgent 0 0, part := 0 }, { net := .req, op := oRdShared, src := hartAgent 0, dst := sliceAgent 0 0, part := 0 }] }).wires.length = 2 := by decide
/-- A store's operation joins the window, and a load of a vacant address traps with cause 5 (R33). -/
theorem test_vacant_load : ((hart (stepOf (.load { size := 8, pa := memTop - 8 } false) wR) 0).done.map (·.cause)) = [some 5] := by decide
/-- `cbo.zero` is no access to I/O: 0xC0000000 traps with cause 7 (R66). -/
theorem test_cbo_io : ((hart (stepOf (.cboZero { size := 64, pa := 0xC0000000 }) wR) 0).done.map (·.cause)) = [some 7] := by decide

/-! ### States and operands that meet the hypotheses of the statements -/

theorem wit_HartAccessesIssue :
    (∃ (m : MemAcc) (nt : Bool) (s : State), running s m.hart = true ∧ accTrap s m false 0 = none) ∧
    (∃ (m : MemAcc) (v : Line) (s : State), running s m.hart = true ∧ accTrap s m true 1 = none) ∧
    (∃ (m : MemAcc) (op : AmoOp) (v : Word) (aq rl : Bool) (s : State), running s m.hart = true ∧ accTrap s m true 3 = none) ∧
    (∃ (m : MemAcc) (aq rl : Bool) (s : State), running s m.hart = true ∧ accTrap s m false 2 = none) ∧
    (∃ (m : MemAcc) (v : Word) (aq rl : Bool) (s : State), running s m.hart = true ∧ accTrap s m true 3 = none) ∧
    (∃ (m : MemAcc) (cmp new : BitVec 128) (aq rl : Bool) (s : State), running s m.hart = true ∧ accTrap s m true 3 = none) ∧
    (∃ (m : MemAcc) (s : State), running s m.hart = true ∧ accTrap s { m with size := 1 } false 4 = none) ∧
    (∃ (m : MemAcc) (s : State), running s m.hart = true ∧ accTrap s { m with size := 1 } false 4 = none) ∧
    (∃ (m : MemAcc) (s : State), running s m.hart = true ∧ ((hart s m.hart).cbie = true ∨ (hart s m.hart).priv = .m) ∧ accTrap s { m with size := 1 } false 4 = none) ∧
    (∃ (m : MemAcc) (s : State), running s m.hart = true ∧ accTrap s { m with size := 1 } true 4 = none) :=
  ⟨⟨({ size := 8 }), (false), (wR), by decide, by decide⟩,
    ⟨({ size := 8 }), (0), (wR), by decide, by decide⟩,
    ⟨({ size := 8 }), (.swap), (0), (false), (false), (wR), by decide, by decide⟩,
    ⟨({ size := 8 }), (false), (false), (wR), by decide, by decide⟩,
    ⟨({ size := 8 }), (0), (false), (false), (wR), by decide, by decide⟩,
    ⟨({ size := 8 }), (0), (0), (false), (false), (wR), by decide, by decide⟩,
    ⟨({ size := 8 }), (wR), by decide, by decide⟩,
    ⟨({ size := 8 }), (wR), by decide, by decide⟩,
    ⟨({ size := 8 }), (wR), by decide, by decide, by decide⟩,
    ⟨({ size := 8 }), (wR), by decide, by decide⟩⟩
theorem wit_HartWaitsAndFencesIssue :
    (∃ (h : Nat) (fs : FenceSet) (tso : Bool) (s : State), running s h = true) ∧
    (∃ (h : Nat) (s : State), running s h = true) ∧
    (∃ (h : Nat) (s : State), running s h = true) ∧
    (∃ (h : Nat) (s : State), running s h = true) ∧
    (∃ (h : Nat) (s : State), running s h = true ∧ ((hart s h).tw = false ∨ (hart s h).priv = .m) ∧ ((hart s h).vtw = false ∨ (hart s h).priv ≠ .vs)) ∧
    (∃ (h : Nat) (s : State), running s h = true) ∧
    (∃ (h : Nat) (s : State), running s h = true) ∧
    (∃ (m : MemAcc) (s : State), running s m.hart = true) ∧
    (∃ (m : MemAcc) (s : State), running s m.hart = true) ∧
    (∃ (m : MemAcc) (s : State), running s m.hart = true) :=
  ⟨⟨(0), ({}), (false), (wR), by decide⟩,
    ⟨(0), (wR), by decide⟩,
    ⟨(0), (wR), by decide⟩,
    ⟨(0), (wR), by decide⟩,
    ⟨(0), (wR), by decide, by decide, by decide⟩,
    ⟨(0), (wR), by decide⟩,
    ⟨(0), (wR), by decide⟩,
    ⟨({ size := 8 }), (wR), by decide⟩,
    ⟨({ size := 8 }), (wR), by decide⟩,
    ⟨({ size := 8 }), (wR), by decide⟩⟩
theorem wit_HartEventsAct :
    (∃ (h : Nat) (timer : Bool) (s : State), drainDue s h timer = true) ∧
    (∃ (h line : Nat) (ifetch : Bool) (e : Nat × Nat) (s : State), (if ifetch then (hart s h).fmb else (hart s h).mb).find? (fun e => decide (e.1 = line)) = some e ∧ l2St (hart s h) line ≠ .i ∧ (hart s h).inq.any (fun q => decide (q.line = line)) = false) ∧
    (∃ (h csr : Nat) (wr : Bool) (v : Word) (s : State), running s h = true) ∧
    (∃ (h : Nat) (v : Word) (s : State), running s h = true) ∧
    (∃ (h n : Nat) (s : State), (hart s h).st = .run ∧ (hart s h).rnbuoyctl.getLsbD 0 = true ∧ (hart s h).buoy.left = 0 ∧ n = 64 * bits (hart s h).rnbuoyctl.toNat 8 12) ∧
    (∃ (h n : Nat) (v : Word) (s : State), running s h = true) ∧
    (∃ (h n : Nat) (v : Word) (s : State), running s h = true) ∧
    (∃ (h n : Nat) (s : State), (hart s h).st = .run ∧ 3 ≤ n ∧ n ≤ 10 ∧ (mget (hart s h).hpm n).cnt = BitVec.allOnes 64 ∧ bits (mget (hart s h).hpm n).ev.toNat 0 10 ≠ 0 ∧ evInhibited (mget (hart s h).hpm n).ev (hart s h).priv = false ∧ (hart s h).mcountinhibit.getLsbD n = false) ∧
    (∃ (f : Flit) (s : State), f.net = .req ∧ f.op = oIntMsg ∧ isCore f.dst = true ∧ f.addr / 4096 % 16 < 9) :=
  ⟨⟨(0), (true), (wH { st := .run, sb := [{}] }), by decide⟩,
    ⟨(0), (0), (false), ((0, 0)), (wH { st := .run, mb := [(0, 0)], l2 := [(0, { st := .s })] }), by decide, by decide, by decide⟩,
    ⟨(0), (0x5C0), (false), (0), (wR), by decide⟩,
    ⟨(0), (0), (wR), by decide⟩,
    ⟨(0), (64 * bits (hart (wH { st := .run, rnbuoyctl := 0x10001 } : State) (0 : Nat)).rnbuoyctl.toNat 8 12), (wH { st := .run, rnbuoyctl := 0x10001 }), by decide, by decide, by decide, rfl⟩,
    ⟨(0), (0), (0), (wR), by decide⟩,
    ⟨(0), (0), (0), (wR), by decide⟩,
    ⟨(0), (3), (wH { st := .run, hpm := [(3, { ev := 1, cnt := BitVec.allOnes 64 })] }), by decide, by decide, by decide, by decide, by decide, by decide, by decide⟩,
    ⟨({ net := .req, op := oIntMsg, dst := hartAgent 0 }), (w0), by decide, by decide, by decide, by decide⟩⟩
theorem wit_HomeEventsAct :
    (∃ (ha g : Nat) (s : State), Live s ∧ ha < 32 ∧ ((home s ha).split.find? (fun p => decide (p.g = g) && p.ready)).isSome = true) ∧
    (∃ (ha txn ag l : Nat) (s : State), Live s ∧ ha < 32 ∧ (12 ≤ agDie ag ∨ parking s (agDie ag) = false) ∧ awaited (home s ha) txn ag = some l) ∧
    (∃ (ha src txn : Nat) (r : RqEnt) (s : State), Live s ∧ ha < 32 ∧ (home s ha).rsv.find? (fun r => decide (r.src = src) && decide (r.txn = txn)) = some r) ∧
    (∃ (ha p : Nat) (s : State), Live s ∧ ha < 32 ∧ p < 12 ∧ (part s p).tearing.contains ha = true ∧ (home s ha).tear.contains p = false) ∧
    (∃ (ha p : Nat) (s : State), Live s ∧ (home s ha).tear.contains p = true ∧ s.memq.any (fun q => decide (q.ha = ha) && decide (q.tear = some p)) = false) ∧
    (∃ (ha p : Nat) (s : State), Live s ∧ p < 12 ∧ (part s p).tearing.contains ha = true) ∧
    (∃ (ha p : Nat) (pr : Proc) (s : State), Live s ∧ s.cox.cur = some pr ∧ ha < 32 ∧ p < 12 ∧ (pr.op = 0x03 ∨ pr.op = 0x04) ∧ pr.step = 4 ∧ pr.p = p) :=
  ⟨⟨(0), (0), ({ w0 with homes := [(0, { split := [{ ready := true }] })] }), by decide, by decide, by decide⟩,
    ⟨(0), (0), (agent 12 0x30), (0), ({ w0 with homes := [(0, { trk := [{ pend := [agent 12 0x30] }] })] }), by decide, by decide, by decide, by decide⟩,
    ⟨(0), (0), (0), ({}), ({ w0 with homes := [(0, { rsv := [{}] })] }), by decide, by decide, by decide⟩,
    ⟨(0), (0), ({ w0 with parts := [(0, { st := .down, tearing := [0] })] }), by decide, by decide, by decide, by decide, by decide⟩,
    ⟨(0), (0), ({ w0 with homes := [(0, { tear := [0] })] }), by decide, by decide, by decide⟩,
    ⟨(0), (0), ({ w0 with parts := [(0, { st := .down, tearing := [0] })] }), by decide, by decide, by decide⟩,
    ⟨(0), (0), ({ op := 3, step := 4 }), ({ w0 with cox := { w0.cox with cur := some { op := 3, step := 4 } } }), by decide, by decide, by decide, by decide, by decide, by decide, by decide⟩⟩
theorem wit_DieOperationsAct :
    (∃ (d sl i : Nat) (f : Flit) (s : State), Live s ∧ d < 12 ∧ sl < 24 ∧ freeTx (slice s d sl) = some i ∧ (slice s d sl).setWait.find? (fun f => (dirKey (slice s d sl) (lineOf f.addr)).isSome || (dirWay (slice s d sl) (lineOf f.addr)).isSome) = some f) ∧
    (∃ (d n : Nat) (v : Word) (part : Nat) (s : State), Live s ∧ d < 12 ∧ n < 4 ∧ MayWrite s part (frDie d) ∧ lockRefused s d n (bits v.toNat 0 12) (bit v.toNat 16) = false) ∧
    (∃ (d n : Nat) (t : List Nat) (s : State), Live s ∧ d < 12 ∧ (die s d).sweep = n :: t) ∧
    (∃ (d lo hi : Nat) (s : State), Live s ∧ d < 12 ∧ lo ≤ hi ∧ (die (arrive (rangeFlit d lo hi) s) d).ri = none) ∧
    (∃ (d : Nat) (s : State), Live s ∧ d < 12 ∧ (die s d).ri.isSome = true ∧ (List.range 24).all (fun k => rangeDone s d k) = true) ∧
    (∃ (d : Nat) (s : State), Live s ∧ d < 12 ∧ (die s d).ri.isSome = true) ∧
    (∃ (d : Nat) (s : State), Live s ∧ d < 12 ∧ rangeAt s d = true) :=
  ⟨⟨(0), (0), (0), ({}), ({ w0 with slices := [(0, { setWait := [{}] })] }), by decide, by decide, by decide, by decide, by decide⟩,
    ⟨(0), (0), (0), (15), (w0), by decide, by decide, by decide, by decide, by decide⟩,
    ⟨(0), (0), ([]), ({ w0 with dies := [(0, { sweep := [0] })] }), by decide, by decide, by decide⟩,
    ⟨(0), (0), (0), (w0), by decide, by decide, by decide, by decide⟩,
    ⟨(0), ({ w0 with dies := [(0, { ri := some {} })] }), by decide, by decide, by decide, by decide⟩,
    ⟨(0), ({ w0 with dies := [(0, { ri := some {} })] }), by decide, by decide, by decide⟩,
    ⟨(0), ({ w0 with dies := [(0, { ri := some {} })] }), by decide, by decide, by decide⟩⟩
theorem wit_MemoryCommandsAct :
    (∃ (v : Word) (part : Nat) (s : State), Live s ∧ part = 15 ∧ slabBusy s = false) ∧
    (∃ (v : Word) (part : Nat) (s : State), Live s ∧ part = 15 ∧ slabBusy s = false ∧ slState (slabEnt s (fld s frMem 0 0 14)) < 2) ∧
    (∃ (s : State), Live s ∧ s.slabWait = []) ∧
    (∃ (pa : Nat) (tblUc : Bool) (q : MemReq) (t s : State), Live s ∧ memFirst s pa (fun q => q.loc.isNone) = some q ∧ t = slabLook (seAgent (slGrp (entOf s q.pa))) s) ∧
    (∃ (g : Nat) (s : State), Live s ∧ g < 4) ∧
    (∃ (g nom : Nat) (t : List Nat) (s : State), Live s ∧ g < 4 ∧ (se s g).pq = nom :: t ∧ fbit s (frSe g) 0 0 = true ∧ (se s g).moves.length < fld s (frSe g) 8 26 2 + 1) ∧
    (∃ (g gran : Nat) (m : Move) (s : State), Live s ∧ g < 4 ∧ moveByD s g gran = some m ∧ m.ptr < 256 ∧ chunkBusy s g m = false) ∧
    (∃ (g gran : Nat) (m : Move) (s : State), Live s ∧ g < 4 ∧ moveByD s g gran = some m ∧ 256 ≤ m.ptr) ∧
    (∃ (p pa : Nat) (s : State), Live s ∧ p < 12 ∧ mget s.strCmd p = none) ∧
    (∃ (p pa : Nat) (s : State), Live s ∧ p < 12 ∧ mget s.strCmd p = none) ∧
    (∃ (p pa : Nat) (s : State), Live s ∧ p < 12 ∧ mget s.strCmd p = none) ∧
    (∃ (p pa : Nat) (s : State), Live s ∧ p < 12 ∧ mget s.strCmd p = none) ∧
    (∃ (g : Nat) (s : State), Live s ∧ g < 4 ∧ (se s g).rebuild ≠ []) ∧
    (∃ (g off : Nat) (v : Word) (part : Nat) (s : State), Live s ∧ part = 15 ∧ g < 4 ∧ off = 0 ∧ bits v.toNat 8 8 ≠ 0) ∧
    (∃ (g off : Nat) (v : Word) (part : Nat) (s : State), Live s ∧ part = 15 ∧ g < 4 ∧ off = 0 ∧ bits v.toNat 8 8 = 0) ∧
    (∃ (g off : Nat) (v : Word) (part : Nat) (s : State), Live s ∧ part = 15 ∧ g < 4 ∧ off = 8 ∧ bits v.toNat 5 5 < bits v.toNat 0 5) ∧
    (∃ (g off : Nat) (v : Word) (part : Nat) (s : State), Live s ∧ part = 15 ∧ g < 4 ∧ off = 8 ∧ (bits v.toNat 0 5 = 0 ∨ bits v.toNat 0 5 ≤ bits v.toNat 5 5)) ∧
    (∃ (g tier ma k : Nat) (err : CellErr) (s : State), Live s ∧ g < 4 ∧ tier < 2 ∧ k = locKey g tier (ma / 64 * 64) ∧ locOk s k = true) ∧
    (∃ (g tier ma k pa p i : Nat) (s : State), Live s ∧ g < 4 ∧ tier < 2 ∧ k = locKey g tier (ma / 4096 * 4096) ∧ locOk s k = true ∧ poisonMap s k ≠ 0 ∧ (retiring s).contains k = false ∧ mfind (se s g).retire (pageKey tier ma) = none ∧ paOfLoc s k = some pa ∧ slabOwner s pa = some p ∧ spareFree s g tier = some i) ∧
    (∃ (pr : Proc) (s : State), Live s ∧ s.cox.bg.find? (fun pr => pr.op = 0x1001) = some pr) ∧
    (∃ (ddr : Bool) (n : Nat) (s : State), Live s ∧ n < (if ddr then 16 else 4)) ∧
    (∃ (pr : Proc) (s : State), Live s ∧ s.cox.cur = some pr ∧ pr.step ≠ 0 ∧ (pr.op = 0x08 ∨ pr.op = 0x09)) :=
  ⟨⟨(0), (15), (w0), by decide, rfl, by decide⟩,
    ⟨(0), (15), (wOn), by decide, rfl, by decide, by decide⟩,
    ⟨(w0), by decide, by decide⟩,
    ⟨(0), (false), ({}), (slabLook (seAgent (slGrp (entOf ({ w0 with memq := [{}] } : State) ({} : MemReq).pa))) ({ w0 with memq := [{}] } : State)), ({ w0 with memq := [{}] }), by decide, by decide, rfl⟩,
    ⟨(0), (w0), by decide, by decide⟩,
    ⟨(0), (0), ([]), (setBit (frSe 0) 0 0 { w0 with strata := [(0, { pq := [0] })] }), by decide, by decide, by decide, by decide, by decide⟩,
    ⟨(0), (0), ({}), ({ w0 with strata := [(0, { moves := [{}] })] }), by decide, by decide, by decide, by decide, by decide⟩,
    ⟨(0), (0), ({ ptr := 256 }), ({ w0 with strata := [(0, { moves := [{ ptr := 256 }] })] }), by decide, by decide, by decide, by decide⟩,
    ⟨(0), (0), (w0), by decide, by decide, by decide⟩,
    ⟨(0), (0), (w0), by decide, by decide, by decide⟩,
    ⟨(0), (0), (w0), by decide, by decide, by decide⟩,
    ⟨(0), (0), (w0), by decide, by decide, by decide⟩,
    ⟨(0), ({ w0 with strata := [(0, { rebuild := [(false, 0)] })] }), by decide, by decide, by decide⟩,
    ⟨(0), (0), (0x100), (15), (w0), by decide, rfl, by decide, rfl, by decide⟩,
    ⟨(0), (0), (1), (15), (w0), by decide, rfl, by decide, rfl, by decide⟩,
    ⟨(0), (8), (2), (15), (w0), by decide, rfl, by decide, rfl, by decide⟩,
    ⟨(0), (8), (0), (15), (w0), by decide, rfl, by decide, rfl, by decide⟩,
    ⟨(0), (0), (0), (locKey (0 : Nat) (0 : Nat) ((0 : Nat) / 64 * 64)), (.none), (w0), by decide, by decide, by decide, rfl, by decide⟩,
    ⟨(0), (0), (0), (locKey (0 : Nat) (0 : Nat) ((0 : Nat) / 4096 * 4096)), (0), (0), (0), ({ w0 with poison := [(0, true)] }), by decide, by decide, by decide, rfl, by decide, by decide, by decide, by decide, by decide, by decide, by decide⟩,
    ⟨({ op := 0x1001 }), ({ w0 with cox := { w0.cox with bg := [{ op := 0x1001 }] } }), by decide, by decide⟩,
    ⟨(false), (0), (w0), by decide, by decide⟩,
    ⟨({ op := 8, step := 1 }), ({ w0 with cox := { w0.cox with cur := some { op := 8, step := 1 } } }), by decide, by decide, by decide, by decide⟩⟩
theorem wit_LinkFlitsAndTrainingAct :
    (∃ (ap : Nat) (f : Flit) (s : State), Live s ∧ ap < 12 ∧ agDie f.dst = ap ∧ waitsOnWay s f = false ∧ hardFenced s ap = false ∧ apOffline s ap = false ∧ stopState s (unitStop (0x20 + ap)) = 0 ∧ parking s ap = false) ∧
    (∃ (ap : Nat) (f : Flit) (s : State), Live s ∧ ap < 12 ∧ agDie f.src = ap ∧ agDie f.dst ≠ ap ∧ linkSt s ap true = lL0) ∧
    (∃ (ap dir q : Nat) (net : Net) (errs : List LaneErr) (s : State), Live s ∧ ap < 12 ∧ dir < 2 ∧ q < 4 ∧ ((lnk s ap).fly.find? (fun x => x.out == decide (dir = 1) && decide (x.q = q) && decide (x.f.net = net))).isSome = true) ∧
    (∃ (ap dir : Nat) (q : CreditVia) (nreq nsnp nrsp ndat : Nat) (s : State), Live s ∧ ap < 12 ∧ dir < 2 ∧ q.quarter < 4) ∧
    (∃ (d : Nat) (body : BitVec 48) (t s : State), Live s ∧ sbWorks s d = true ∧ t = sbTake d true 0x08 body.toNat s ∧ linkSt t d false = lSBUP ∧ (lnk t d).tstep = 1 ∧ t.dieIds.getD d (0, 0) = (bits body.toNat 0 16, bits body.toNat 16 16)) ∧
    (∃ (d pos : Nat) (t s : State), Live s ∧ sbWorks s d = true ∧ t = answered d true 0x08 (sbTake d false 0x09 (pos + 16) s) ∧ linkSt t d true = lSBUP ∧ (lnk t d).tstep = 1 ∧ (lnk t d).warm = false) ∧
    (∃ (d : Nat) (dieEnd : Bool) (step : Nat) (pass : Bool) (finds : List WgFind) (s : State), Live s ∧ sbWorks s d = true ∧ step ≠ 0 ∧ (lnk s d).tstep = step) ∧
    (∃ (d : Nat) (s : State), Live s ∧ sbWorks s d = true ∧ (lnk s d).tstep ≠ 0 ∧ (lnk s d).waking = false) ∧
    (∃ (d : Nat) (s : State), Live s ∧ sbWorks s d = true ∧ (lnk s d).tstep ≠ 0 ∧ (lnk s d).waking = true) ∧
    (∃ (d : Nat) (s : State), Live s ∧ sbWorks s d = true ∧ linkSt s d false = lL0) ∧
    (∃ (d : Nat) (body : BitVec 48) (t s : State), Live s ∧ sbWorks s d = true ∧ t = sbTake d false 0x10 body.toNat s ∧ ((lnk t d).tstep = 8 ∨ linkSt t d true = lL0)) ∧
    (∃ (d : Nat) (body : BitVec 48) (t s : State), Live s ∧ sbWorks s d = true ∧ t = sbTake d true 0x11 body.toNat s ∧ ((lnk t d).tstep = 6 ∨ (lnk t d).tstep = 8 ∨ linkSt t d false = lL0)) ∧
    (∃ (d : Nat) (dieEnd : Bool) (body : BitVec 48) (t s : State), Live s ∧ sbWorks s d = true ∧ t = sbTake d (!dieEnd) 0x18 body.toNat s ∧ bits body.toNat 0 7 < 96 ∧ dieEnd = bit body.toNat 7 ∧ bits body.toNat 8 6 ≤ 36 ∧ (bit body.toNat 15 = true ∨ (lnk t d).tstep = 5) ∧ ((lnk t d).tstep = 5 ∨ ahead (bits body.toNat 16 32) (lcc t d) = true)) ∧
    (∃ (d : Nat) (dieEnd : Bool) (body : BitVec 48) (s : State), Live s ∧ sbWorks s d = true) ∧
    (∃ (d : Nat) (dieEnd : Bool) (wg : Nat) (s : State), Live s ∧ d < 12 ∧ wg < 96 ∧ ((lnk s d).pend.find? (fun p => p.key = wgKey (!dieEnd) wg)).isSome = true) ∧
    (∃ (d : Nat) (dieEnd : Bool) (s : State), Live s ∧ d < 12) ∧
    (∃ (d : Nat) (dieEnd : Bool) (wg : Nat) (s : State), Live s ∧ d < 12 ∧ wg < 96 ∧ fbit s (frEnd d dieEnd) 0x408 16 = true ∧ fld s (frEnd d dieEnd) 0x408 24 5 ≠ 0 ∧ (drift s d (wgKey (!dieEnd) wg)).all (fun x => decide (16 * fld s (frEnd d dieEnd) 0x408 24 5 ≤ x)) = true) ∧
    (∃ (d target : Nat) (s : State), Live s ∧ sbWorks s d = true ∧ linkSt s d true = lL0 ∧ target < 2) ∧
    (∃ (d : Nat) (grant : Bool) (s : State), Live s ∧ sbWorks s d = true ∧ (lnk s d).pwr = true) ∧
    (∃ (d : Nat) (fromDie : Bool) (s : State), Live s ∧ sbWorks s d = true ∧ linkSt s d false = lLP) ∧
    (∃ (d : Nat) (fromDie : Bool) (pat : BitVec 8) (s : State), Live s ∧ sbWorks s d = true ∧ pat ≠ 0xCA#8) ∧
    (∃ (d : Nat) (dieEnd : Bool) (frame : BitVec 64) (s : State), Live s ∧ sbWorks s d = true ∧ frameGood frame.toNat = false) ∧
    (∃ (d : Nat) (dieEnd : Bool) (ty : Nat) (s : State), Live s ∧ sbWorks s d = true ∧ awaits s d dieEnd ty = true ∧ mget (lnk s d).unans (ty + b2n dieEnd * 256) < 7) ∧
    (∃ (d : Nat) (s : State), Live s ∧ d < 12 ∧ linkSt s d false = lOFF) ∧
    (∃ (d : Nat) (s : State), Live s ∧ d < 12 ∧ dieEvac s d = true) ∧
    (∃ (d q groups : Nat) (s : State), Live s ∧ d < 12 ∧ q < 4 ∧ (linkSt s d false = lL0 ∨ linkSt s d false = lWAKE) ∧ 4 ≤ popcount 24 groups) ∧
    (∃ (d : Nat) (s : State), Live s ∧ sbWorks s d = true) ∧
    (∃ (d : Nat) (s : State), Live s ∧ sbWorks s d = true) ∧
    (∃ (d : Nat) (s : State), Live s ∧ d < 12 ∧ linkSt s d true ≠ lOFF) :=
  ⟨⟨(0), ({ dst := hartAgent 0 }), (setLinkSt 0 lL0 w0), by decide, by decide, by decide, by decide, by decide, by decide, by decide, by decide⟩,
    ⟨(0), ({ src := hartAgent 0, dst := agent 12 0 }), (setLinkSt 0 lL0 w0), by decide, by decide, by decide, by decide, by decide⟩,
    ⟨(0), (0), (0), (.req), ([]), ({ w0 with links := [(0, { fly := [{}] })] }), by decide, by decide, by decide, by decide, by decide⟩,
    ⟨(0), (0), ({}), (0), (0), (0), (0), (w0), by decide, by decide, by decide, by decide⟩,
    ⟨(0), (0x05760A53), (sbTake (0 : Nat) true 0x08 (0x05760A53 : BitVec 48).toNat (setLinkSt 0 lSBUP { w0 with links := [(0, { tstep := 1 })] } : State)), (setLinkSt 0 lSBUP { w0 with links := [(0, { tstep := 1 })] }), by decide, by decide, rfl, by decide, by decide, by decide⟩,
    ⟨(0), (0), (answered (0 : Nat) true 0x08 (sbTake (0 : Nat) false 0x09 ((0 : Nat) + 16) (setLinkSt 0 lSBUP { w0 with links := [(0, { tstep := 1 })] } : State))), (setLinkSt 0 lSBUP { w0 with links := [(0, { tstep := 1 })] }), by decide, by decide, rfl, by decide, by decide, by decide⟩,
    ⟨(0), (false), (2), (false), ([]), (setLinkSt 0 lTRAIN { w0 with links := [(0, { tstep := 2 })] }), by decide, by decide, by decide, by decide⟩,
    ⟨(0), (setLinkSt 0 lTRAIN { w0 with links := [(0, { tstep := 2 })] }), by decide, by decide, by decide, by decide⟩,
    ⟨(0), (setLinkSt 0 lTRAIN { w0 with links := [(0, { tstep := 2, waking := true })] }), by decide, by decide, by decide, by decide⟩,
    ⟨(0), (setLinkSt 0 lL0 w0), by decide, by decide, by decide⟩,
    ⟨(0), (0), (sbTake (0 : Nat) false 0x10 (0 : BitVec 48).toNat (setLinkSt 0 lL0 w0 : State)), (setLinkSt 0 lL0 w0), by decide, by decide, rfl, by decide⟩,
    ⟨(0), (0), (sbTake (0 : Nat) true 0x11 (0 : BitVec 48).toNat (setLinkSt 0 lL0 w0 : State)), (setLinkSt 0 lL0 w0), by decide, by decide, rfl, by decide⟩,
    ⟨(0), (false), (0x18000), (sbTake (0 : Nat) (!(false : Bool)) 0x18 (0x18000 : BitVec 48).toNat (setLinkSt 0 lL0 w0 : State)), (setLinkSt 0 lL0 w0), by decide, by decide, rfl, by decide, rfl, by decide, by decide, by decide⟩,
    ⟨(0), (false), (0), (setLinkSt 0 lL0 w0), by decide, by decide⟩,
    ⟨(0), (false), (0), ({ w0 with links := [(0, { pend := [{ key := wgKey true 0 }] })] }), by decide, by decide, by decide, by decide⟩,
    ⟨(0), (false), (w0), by decide, by decide⟩,
    ⟨(0), (false), (0), (setReg (frAp 0) 0x408 0x1010000 w0), by decide, by decide, by decide, by decide, by decide, by decide⟩,
    ⟨(0), (0), (setLinkSt 0 lL0 w0), by decide, by decide, by decide, by decide⟩,
    ⟨(0), (false), (setLinkSt 0 lL0 { w0 with links := [(0, { pwr := true })] }), by decide, by decide, by decide⟩,
    ⟨(0), (true), (setLinkSt 0 lLP w0), by decide, by decide, by decide⟩,
    ⟨(0), (true), (0), (setLinkSt 0 lLP w0), by decide, by decide, by decide⟩,
    ⟨(0), (false), (0), (setLinkSt 0 lL0 w0), by decide, by decide, by decide⟩,
    ⟨(0), (true), (0x08), (setLinkSt 0 lSBUP { w0 with links := [(0, { tstep := 1 })] }), by decide, by decide, by decide, by decide⟩,
    ⟨(0), (setLinkSt 0 lOFF w0), by decide, by decide, by decide⟩,
    ⟨(0), (wOn), by decide, by decide, by decide⟩,
    ⟨(0), (0), (15), (setLinkSt 0 lL0 w0), by decide, by decide, by decide, by decide, by decide⟩,
    ⟨(0), (setLinkSt 0 lL0 w0), by decide, by decide⟩,
    ⟨(0), (setLinkSt 0 lL0 w0), by decide, by decide⟩,
    ⟨(0), (setLinkSt 0 lL0 w0), by decide, by decide, by decide⟩⟩
theorem wit_LinkRegistersAct :
    (∃ (d : Nat) (t s : State), Live s ∧ d < 12 ∧ linkSt s d false = lL0 ∧ t = genWrite (frAp d) 0x408 (setBits (reg s (frAp d) 0x408).toNat 0 5 1) s) ∧
    (∃ (d : Nat) (clr : Bool) (t s : State), Live s ∧ d < 12 ∧ (linkSt s d false = lL0 ∨ linkSt s d false = lHOLD) ∧ t = genWrite (frAp d) 0x408 (setBits (reg s (frAp d) 0x408).toNat 0 5 (2 + 16 * b2n clr)) s) ∧
    (∃ (d : Nat) (t s : State), Live s ∧ d < 12 ∧ t = genWrite (frAp d) 0x408 (setBits (reg s (frAp d) 0x408).toNat 0 5 3) s) ∧
    (∃ (d : Nat) (t s : State), Live s ∧ d < 12 ∧ fld s (frAp d) 0x420 0 7 < 96 ∧ t = genWrite (frAp d) 0x408 (setBits (reg s (frAp d) 0x408).toNat 0 5 4) s) ∧
    (∃ (d : Nat) (out : Bool) (v : Word) (s : State), Live s ∧ d < 12 ∧ s.lockOpen = true) ∧
    (∃ (d : Nat) (dieEnd : Bool) (v : Word) (s : State), Live s ∧ d < 12 ∧ fbit s frFlt 8 0 = true ∧ injRefused (frEnd d dieEnd) v.toNat = false) :=
  ⟨⟨(0), (genWrite (frAp (0 : Nat)) 0x408 (setBits (reg (setLinkSt 0 lL0 w0 : State) (frAp (0 : Nat)) 0x408).toNat 0 5 1) (setLinkSt 0 lL0 w0 : State)), (setLinkSt 0 lL0 w0), by decide, by decide, by decide, rfl⟩,
    ⟨(0), (false), (genWrite (frAp (0 : Nat)) 0x408 (setBits (reg (setLinkSt 0 lL0 w0 : State) (frAp (0 : Nat)) 0x408).toNat 0 5 (2 + 16 * b2n (false : Bool))) (setLinkSt 0 lL0 w0 : State)), (setLinkSt 0 lL0 w0), by decide, by decide, by decide, rfl⟩,
    ⟨(0), (genWrite (frAp (0 : Nat)) 0x408 (setBits (reg (w0 : State) (frAp (0 : Nat)) 0x408).toNat 0 5 3) (w0 : State)), (w0), by decide, by decide, rfl⟩,
    ⟨(0), (genWrite (frAp (0 : Nat)) 0x408 (setBits (reg (w0 : State) (frAp (0 : Nat)) 0x408).toNat 0 5 4) (w0 : State)), (w0), by decide, by decide, by decide, rfl⟩,
    ⟨(0), (false), (0), (w0), by decide, by decide, by decide⟩,
    ⟨(0), (false), (0), (setBit frFlt 8 0 w0), by decide, by decide, by decide, by decide⟩⟩
theorem wit_FabricCommandsAct :
    (∃ (stop : Nat) (f : Flit) (t s : State), Live s ∧ idsOk f = true ∧ inOrder s f = true ∧ stop < 96 ∧ waitsOnWay s f = false ∧ f.sys = true ∧ bit (routeEnt s (bank s) stop (dstStop f.dst)) 52 = true ∧ bit (routeEnt s (bank s) stop (dstStop f.dst)) (36 + f.part) = true ∧ t = { s with live := s.live ++ [{ f with epoch := decide (bank s = 1) }], wires := swapFlit f { f with epoch := decide (bank s = 1) } s.wires } ∧ mustHoldNi t stop { f with epoch := decide (bank s = 1) } = false) ∧
    (∃ (stop : Nat) (f : Flit) (s : State), Live s ∧ stop < 96 ∧ stopState s stop = 2 ∧ f.sys = true) ∧
    (∃ (s : State), Live s ∧ oldCnt s = 0) ∧
    (∃ (s : State), Live s ∧ oldCnt s = 0) ∧
    (∃ (stop : Nat) (v : Word) (s : State), Live s ∧ stop < 96 ∧ v.toNat % 4 ≠ 3 ∧ (v.toNat % 4 ≠ 2 ∨ oldCnt s = 0)) ∧
    (∃ (stop bk e : Nat) (v : Word) (s : State), Live s ∧ stop < 96 ∧ bk < 2 ∧ e < 97 ∧ bk ≠ bank s ∧ (bit v.toNat 52 = false ∨ routeBad stop e v.toNat = false)) ∧
    (∃ (ap : Nat) (f : Flit) (s : State), Live s ∧ ap < 12 ∧ agDie f.src = ap ∧ hardFenced s ap = false ∧ admits s ap f = true ∧ (port s ap).fenced = false) ∧
    (∃ (pt : Nat) (s : State), Live s ∧ portOk pt = true) ∧
    (∃ (pt : Nat) (s : State), Live s ∧ 12 ≤ pt ∧ portOk pt = true ∧ (port s pt).soft = true ∧ (port s pt).opentx = []) ∧
    (∃ (pt : Nat) (s : State), Live s ∧ pt < 12 ∧ (port s pt).soft = true ∧ (port s pt).opentx = [] ∧ (die s pt).gate = true ∧ (lnk s pt).fly.all (fun x => !x.out) = true ∧ leaving s pt = []) ∧
    (∃ (pt : Nat) (t s : State), Live s ∧ portOk pt = true ∧ (port s pt).soft = true ∧ t = setBit (frPort pt) 0x608 1 (fenceLift pt s)) ∧
    (∃ (pt : Nat) (s : State), Live s ∧ portOk pt = true) ∧
    (∃ (pt : Nat) (s : State), Live s ∧ portOk pt = true ∧ ((port s pt).fenced = true ∨ (port s pt).soft = true)) ∧
    (∃ (d : Nat) (s : State), Live s ∧ d < 12) ∧
    (∃ (d : Nat) (s : State), Live s ∧ d < 12) ∧
    (∃ (ap : Nat) (f : Flit) (s : State), Live s ∧ ap < 12 ∧ agDie f.dst = ap ∧ waitsOnWay s f = false ∧ hardFenced s ap = false ∧ apOffline s ap = false ∧ stopState s (unitStop (0x20 + ap)) = 0 ∧ parking s ap = true ∧ parkFull s ap = false ∧ s.wires.contains f = true ∧ linkSt s ap false ≠ lLP) ∧
    (∃ (ap : Nat) (s : State), Live s ∧ ap < 12 ∧ parkFull s ap = false) ∧
    (∃ (ap : Nat) (s : State), Live s ∧ ap < 12) ∧
    (∃ (stop pt : Nat) (f : Flit) (s : State), Live s ∧ (passInputs s f).contains (ioStop stop, pt) = true) ∧
    (∃ (k : Nat) (v : Word) (s : State), Live s ∧ k < 16) :=
  ⟨⟨(0), ({ net := .req, op := oIoRd, src := hartAgent 0, dst := agent 12 0x30, sys := true, part := 0 }), ({ ({ w0 with fab := { w0.fab with ents := mins [] (entKey 0 0 (dstStop (agent 12 0x30))) (BitVec.ofNat 64 (2 ^ 52 + 2 ^ 36)) } } : State) with live := ({ w0 with fab := { w0.fab with ents := mins [] (entKey 0 0 (dstStop (agent 12 0x30))) (BitVec.ofNat 64 (2 ^ 52 + 2 ^ 36)) } } : State).live ++ [{ ({ net := .req, op := oIoRd, src := hartAgent 0, dst := agent 12 0x30, sys := true, part := 0 } : Flit) with epoch := decide (bank ({ w0 with fab := { w0.fab with ents := mins [] (entKey 0 0 (dstStop (agent 12 0x30))) (BitVec.ofNat 64 (2 ^ 52 + 2 ^ 36)) } } : State) = 1) }], wires := swapFlit ({ net := .req, op := oIoRd, src := hartAgent 0, dst := agent 12 0x30, sys := true, part := 0 } : Flit) { ({ net := .req, op := oIoRd, src := hartAgent 0, dst := agent 12 0x30, sys := true, part := 0 } : Flit) with epoch := decide (bank ({ w0 with fab := { w0.fab with ents := mins [] (entKey 0 0 (dstStop (agent 12 0x30))) (BitVec.ofNat 64 (2 ^ 52 + 2 ^ 36)) } } : State) = 1) } ({ w0 with fab := { w0.fab with ents := mins [] (entKey 0 0 (dstStop (agent 12 0x30))) (BitVec.ofNat 64 (2 ^ 52 + 2 ^ 36)) } } : State).wires }), ({ w0 with fab := { w0.fab with ents := mins [] (entKey 0 0 (dstStop (agent 12 0x30))) (BitVec.ofNat 64 (2 ^ 52 + 2 ^ 36)) } }), by decide, by decide, by decide, by decide, by decide, by decide, by decide, by decide, rfl, by decide⟩,
    ⟨(0), ({ sys := true }), (setFld frIof 0x100 0 2 2 w0), by decide, by decide, by decide, by decide⟩,
    ⟨(w0), by decide, by decide⟩,
    ⟨(w0), by decide, by decide⟩,
    ⟨(0), (0), (w0), by decide, by decide, by decide, by decide⟩,
    ⟨(0), (1), (0), (0), (w0), by decide, by decide, by decide, by decide, by decide, by decide⟩,
    ⟨(0), ({ src := hartAgent 0, part := 0 }), (w0), by decide, by decide, by decide, by decide, by decide, by decide⟩,
    ⟨(0), (w0), by decide, by decide⟩,
    ⟨(16), ({ w0 with ports := [(16, { soft := true })] }), by decide, by decide, by decide, by decide, by decide⟩,
    ⟨(0), ({ w0 with ports := [(0, { soft := true })], dies := [(0, { asg := some 0, gate := true })] }), by decide, by decide, by decide, by decide, by decide, by decide, by decide⟩,
    ⟨(0), (setBit (frPort (0 : Nat)) 0x608 1 (fenceLift (0 : Nat) ({ w0 with ports := [(0, { soft := true })] } : State))), ({ w0 with ports := [(0, { soft := true })] }), by decide, by decide, by decide, rfl⟩,
    ⟨(0), (w0), by decide, by decide⟩,
    ⟨(0), ({ w0 with ports := [(0, { soft := true })] }), by decide, by decide, by decide⟩,
    ⟨(0), (w0), by decide, by decide⟩,
    ⟨(0), (w0), by decide, by decide⟩,
    ⟨(0), ({ src := haAgent 0, dst := hartAgent 0, part := 0 }), (setLinkSt 0 lL0 { w0 with wires := [{ src := haAgent 0, dst := hartAgent 0, part := 0 }], ports := [(0, { wait := [{}] })] }), by decide, by decide, by decide, by decide, by decide, by decide, by decide, by decide, by decide, by decide, by decide⟩,
    ⟨(0), (w0), by decide, by decide, by decide⟩,
    ⟨(0), (w0), by decide, by decide⟩,
    ⟨(dstStop (agent 12 0x30)), (4), ({ src := agent 12 0x30, dst := haAgent 0 }), (w0), by decide, by decide⟩,
    ⟨(0), (0), (w0), by decide, by decide⟩⟩
theorem wit_PowerCommandsAct :
    (∃ (d : Nat) (s : State), Live s ∧ hasCalls s d = true) ∧
    (∃ (d : Nat) (body : BitVec 48) (s : State), Live s ∧ hasCalls s d = true ∧ bits body.toNat 12 3 ≤ 6 ∧ bits body.toNat 15 3 ≤ 6) ∧
    (∃ (d : Nat) (s : State), Live s ∧ hasCalls s d = true ∧ (lnk s d).missed < 3) ∧
    (∃ (d : Nat) (s : State), Live s ∧ hasCalls s d = true ∧ (lnk s d).missed = 3) ∧
    (∃ (d : Nat) (s : State), Live s ∧ hasCalls s d = true ∧ 4 ≤ (lnk s d).missed) ∧
    (∃ (d : Nat) (body : BitVec 48) (t s : State), Live s ∧ hasCalls s d = true ∧ bits body.toNat 12 3 ≤ 6 ∧ bits body.toNat 15 3 ≤ 6 ∧ bit body.toNat 26 = false ∧ t = updCard (fun c => { c with dem := mset c.dem d (body.toNat % 2 ^ 48 + 1) }) (setFld frPpa (0x100 + 8 * d) 18 3 (bits body.toNat 15 3)
        (setFld frPpa (0x100 + 8 * d) 24 12 (bits body.toNat 0 12) (setFld frPpa (0x100 + 8 * d) 37 1 0 (sbTake d true 0x02 body.toNat s))))) ∧
    (∃ (d : Nat) (s : State), Live s ∧ hasCalls s d = true ∧ (die s d).d3 = false ∧ fbit s frPpa (0x100 + 8 * d) 37 = false) ∧
    (∃ (pIod pHbm pkg : Nat) (s : State), Live s) ∧
    (∃ (d l : Nat) (s : State), Live s ∧ mget s.card.railTo d = l + 1) ∧
    (∃ (d : Nat) (s : State), Live s ∧ mget s.card.railTo d ≠ 0) ∧
    (∃ (d est avg : Nat) (t s : State), Live s ∧ d < 12 ∧ (die s d).d3 = false ∧ avg < fld s (frDie d) 0x208 32 12 ∧ t = setFld (frDie d) 0x208 16 5 (min 16 (fld s (frDie d) 0x208 16 5 + 1)) s) ∧
    (∃ (d est avg : Nat) (t s : State), Live s ∧ d < 12 ∧ (die s d).d3 = false ∧ fld s (frDie d) 0x208 32 12 < avg ∧ t = setFld (frDie d) 0x208 16 5 (max 8 (fld s (frDie d) 0x208 16 5 - 1)) s) ∧
    (∃ (d : Nat) (s : State), Live s ∧ d < 12 ∧ fld s (frDie d) 0x208 16 5 = 8) ∧
    (∃ (d i : Nat) (temp now : Int) (s : State), Live s ∧ d < 12 ∧ i < 8 ∧ hottest (updCard (fun c => { c with temp := mins c.temp (16 * d + i) (temp + 2 ^ 15).toNat }) s) d = some now ∧ 1600 ≤ now ∧ now < 1840 ∧ (lnk s d).therm = false) ∧
    (∃ (d i : Nat) (temp now : Int) (s : State), Live s ∧ d < 12 ∧ i < 8 ∧ hottest (updCard (fun c => { c with temp := mins c.temp (16 * d + i) (temp + 2 ^ 15).toNat }) s) d = some now ∧ now ≤ 1520 ∧ (lnk s d).therm = true) ∧
    (∃ (d : Nat) (s : State), Live s ∧ d < 12 ∧ (lnk s d).therm = true ∧ (die s d).d3 = false) ∧
    (∃ (d : Nat) (s : State), Live s ∧ d < 12 ∧ (lnk s d).therm = true ∧ (die s d).therm = 6) :=
  ⟨⟨(0), (setLinkSt 0 lL0 w0), by decide, by decide⟩,
    ⟨(0), (0), (setLinkSt 0 lL0 w0), by decide, by decide, by decide, by decide⟩,
    ⟨(0), (setLinkSt 0 lL0 w0), by decide, by decide, by decide⟩,
    ⟨(0), (setLinkSt 0 lL0 { w0 with links := [(0, { missed := 3 })] }), by decide, by decide, by decide⟩,
    ⟨(0), (setLinkSt 0 lL0 { w0 with links := [(0, { missed := 4 })] }), by decide, by decide, by decide⟩,
    ⟨(0), (0x30000), (updCard (fun c => { c with dem := mset c.dem (0 : Nat) ((0x30000 : BitVec 48).toNat % 2 ^ 48 + 1) }) (setFld frPpa (0x100 + 8 * (0 : Nat)) 18 3 (bits (0x30000 : BitVec 48).toNat 15 3)
        (setFld frPpa (0x100 + 8 * (0 : Nat)) 24 12 (bits (0x30000 : BitVec 48).toNat 0 12) (setFld frPpa (0x100 + 8 * (0 : Nat)) 37 1 0 (sbTake (0 : Nat) true 0x02 (0x30000 : BitVec 48).toNat (setFld frPpa 0x100 15 3 6 (setLinkSt 0 lL0 w0) : State)))))), (setFld frPpa 0x100 15 3 6 (setLinkSt 0 lL0 w0)), by decide, by decide, by decide, by decide, by decide, rfl⟩,
    ⟨(0), (setLinkSt 0 lL0 w0), by decide, by decide, by decide, by decide⟩,
    ⟨(0), (0), (0), (w0), by decide⟩,
    ⟨(0), (0), ({ w0 with card := { w0.card with railTo := [(0, 1)] } }), by decide, by decide⟩,
    ⟨(0), ({ w0 with card := { w0.card with railTo := [(0, 1)] } }), by decide, by decide⟩,
    ⟨(0), (0), (0), (setFld (frDie (0 : Nat)) 0x208 16 5 (min 16 (fld (setFld (frDie 0) 0x208 32 12 10 w0 : State) (frDie (0 : Nat)) 0x208 16 5 + 1)) (setFld (frDie 0) 0x208 32 12 10 w0 : State)), (setFld (frDie 0) 0x208 32 12 10 w0), by decide, by decide, by decide, by decide, rfl⟩,
    ⟨(0), (0), (4000), (setFld (frDie (0 : Nat)) 0x208 16 5 (max 8 (fld (setFld (frDie 0) 0x208 32 12 10 w0 : State) (frDie (0 : Nat)) 0x208 16 5 - 1)) (setFld (frDie 0) 0x208 32 12 10 w0 : State)), (setFld (frDie 0) 0x208 32 12 10 w0), by decide, by decide, by decide, by decide, rfl⟩,
    ⟨(0), (setFld (frDie 0) 0x208 16 5 8 w0), by decide, by decide, by decide⟩,
    ⟨(0), (0), (1700), (1700), (w0), by decide, by decide, by decide, by decide, by decide, by decide, by decide⟩,
    ⟨(0), (0), (100), (100), ({ w0 with links := [(0, { therm := true })] }), by decide, by decide, by decide, by decide, by decide, by decide⟩,
    ⟨(0), ({ w0 with links := [(0, { therm := true })] }), by decide, by decide, by decide, by decide⟩,
    ⟨(0), ({ w0 with links := [(0, { therm := true })], dies := [(0, { therm := 6 })] }), by decide, by decide, by decide, by decide⟩⟩
theorem wit_SleepAndPowerLossAct :
    (∃ (d : Nat) (s : State), Live s ∧ d3Ready s d = true) ∧
    (∃ (d : Nat) (s : State), Live s ∧ ((die s d).d3step = 1 ∨ (die s d).d3step = 2)) ∧
    (∃ (d : Nat) (s : State), Live s ∧ 3 ≤ (die s d).d3step) ∧
    (∃ (s : State), Live s ∧ k3Ready s = true) ∧
    (∃ (src : Nat) (s : State), Live s ∧ src < 4 ∧ s.card.k3 = true) ∧
    (∃ (d : Nat) (s : State), Live s ∧ d < 12 ∧ (die (k3Wake s) d).d3 = true) ∧
    (∃ (h : Nat) (t s : State), Live s ∧ h < 576 ∧ (hart s h).st ≠ .parked ∧ t = k3Wake (updHart h (fun x => { x with timer := true }) s) ∧ (die t (h / 48)).d3 = false ∧ (die t (h / 48)).d3step = 0) ∧
    (∃ (h : Nat) (t s : State), Live s ∧ h < 576 ∧ (hart s h).st ≠ .parked ∧ t = k3Wake (updHart h (fun x => { x with timer := true }) s) ∧ (die t (h / 48)).d3 = false ∧ (die t (h / 48)).d3step ≠ 0) ∧
    (∃ (h : Nat) (t s : State), Live s ∧ h < 576 ∧ (hart s h).st ≠ .parked ∧ t = k3Wake (updHart h (fun x => { x with timer := true }) s) ∧ (die t (h / 48)).d3 = true) ∧
    (∃ (s : State), Live s) ∧
    (∃ (rail : Nat) (s : State), Live s ∧ (rail < 13 ∨ (16 ≤ rail ∧ rail < 19))) ∧
    (∃ (s : State), Live s ∧ s.card.winLen ≠ 0 ∧ s.card.k3 = false) ∧
    (∃ (v : Word) (part : Nat) (s : State), Live s ∧ part = 15 ∧ s.card.winLen ≠ 0) ∧
    (∃ (v : Word) (part : Nat) (s : State), Live s ∧ part = 15 ∧ s.card.winLen = 0) :=
  ⟨⟨(0), (setLinkSt 0 lL0 w0), by decide, by decide⟩,
    ⟨(0), ({ w0 with dies := [(0, { d3step := 1 })] }), by decide, by decide⟩,
    ⟨(0), ({ w0 with dies := [(0, { d3step := 3 })] }), by decide, by decide⟩,
    ⟨(w0), by decide, by decide⟩,
    ⟨(0), ({ w0 with card := { w0.card with k3 := true } }), by decide, by decide, by decide⟩,
    ⟨(0), ({ w0 with dies := [(0, { d3 := true })] }), by decide, by decide, by decide⟩,
    ⟨(0), (k3Wake (updHart (0 : Nat) (fun x => { x with timer := true }) ({ w0 with harts := [(0, { st := .run })] } : State))), ({ w0 with harts := [(0, { st := .run })] }), by decide, by decide, by decide, rfl, by decide, by decide⟩,
    ⟨(0), (k3Wake (updHart (0 : Nat) (fun x => { x with timer := true }) ({ w0 with harts := [(0, { st := .run })], dies := [(0, { asg := some 0, d3step := 1 })] } : State))), ({ w0 with harts := [(0, { st := .run })], dies := [(0, { asg := some 0, d3step := 1 })] }), by decide, by decide, by decide, rfl, by decide, by decide⟩,
    ⟨(0), (k3Wake (updHart (0 : Nat) (fun x => { x with timer := true }) ({ w0 with harts := [(0, { st := .run })], dies := [(0, { asg := some 0, d3 := true })] } : State))), ({ w0 with harts := [(0, { st := .run })], dies := [(0, { asg := some 0, d3 := true })] }), by decide, by decide, by decide, rfl, by decide⟩,
    ⟨(w0), by decide⟩,
    ⟨(0), (w0), by decide, by decide⟩,
    ⟨(w0), by decide, by decide, by decide⟩,
    ⟨(0), (15), (w0), by decide, rfl, by decide⟩,
    ⟨(0), (15), ({ w0 with card := { w0.card with winLen := 0 } }), by decide, rfl, by decide⟩⟩
theorem wit_LifecycleCommandsRun :
    (∃ (c : MgrCmd) (u : State) (pr : Proc) (s t : State), pr = { op := 0x01, c := c } ∧ t = cmdTaken pr s ∧ CoxTakes pr s ∧ argP pr < 12 ∧ argD pr < 12 ∧ (part t (argP pr)).st = .none ∧ dieSpare t (argD pr) = true ∧ drained t = true ∧ u = updPart (argP pr) (fun x => { x with st := .stopped, dies := 2 ^ argD pr }) (updDie (argD pr) (fun x => { x with asg := some (argP pr) }) t) ∧ routesExist (routeSet u (nowVis u)) = true) ∧
    (∃ (c : MgrCmd) (pr : Proc) (s t : State), pr = { op := 0x02, c := c } ∧ t = cmdTaken pr s ∧ CoxTakes pr s ∧ argP pr < 12 ∧ (part t (argP pr)).st = .stopped ∧ (part t (argP pr)).dies ≠ 0 ∧ isShadow t (argP pr) = false) ∧
    (∃ (c : MgrCmd) (pr : Proc) (s t : State), pr = { op := 0x03, c := c } ∧ t = cmdTaken pr s ∧ CoxTakes pr s ∧ argP pr < 12 ∧ (part t (argP pr)).st = .running) ∧
    (∃ (c : MgrCmd) (pr : Proc) (s t : State), pr = { op := 0x04, c := c } ∧ t = cmdTaken pr s ∧ CoxTakes pr s ∧ argP pr < 12 ∧ (part t (argP pr)).st = .running) ∧
    (∃ (c : MgrCmd) (pr : Proc) (s t : State), pr = { op := 0x05, c := c } ∧ t = cmdTaken pr s ∧ CoxTakes pr s ∧ argP pr < 12 ∧ (part t (argP pr)).st = .stopped) ∧
    (∃ (c : MgrCmd) (pr : Proc) (s t : State), pr = { op := 0x06, c := c } ∧ t = cmdTaken pr s ∧ CoxTakes pr s ∧ argP pr < 12 ∧ argD pr < 12 ∧ (part t (argP pr)).st = .running ∧ 2 ≤ (diesOf t (argP pr)).length ∧ ownsDie t (argP pr) (argD pr) = true ∧ isShadow t (argP pr) = false ∧ (List.range 48).all (fun c => (hart t (48 * argD pr + c)).st = .parked) = true) ∧
    (∃ (c : MgrCmd) (u : State) (pr : Proc) (s t : State), pr = { op := 0x07, c := c } ∧ t = cmdTaken pr s ∧ CoxTakes pr s ∧ argP pr < 12 ∧ argD pr < 12 ∧ (part t (argP pr)).st = .stopped ∧ dieSpare t (argD pr) = true ∧ isShadow t (argP pr) = false ∧ drained t = true ∧ u = updDie (argD pr) (fun x => { x with asg := some (argP pr) }) (updPart (argP pr) (fun x => { x with dies := putBit x.dies (argD pr) true }) t) ∧ routesExist (routeSet u (nowVis u)) = true) ∧
    (∃ (c : MgrCmd) (b : Nat) (pr : Proc) (s t : State), pr = { op := 0x08, c := c } ∧ t = cmdTaken pr s ∧ CoxTakes pr s ∧ argP pr < 12 ∧ b = setBase t (argS pr) ∧ (part t (argP pr)).st ≠ .none ∧ setBad t b = false ∧ slState (slabEnt t b) = slFREE ∧ isShadow t (argP pr) = false ∧ (slKind (slabEnt t b) ≠ 2 ∨ ownsRp t (argP pr) (slDslab (slabEnt t b) % 16) = true)) ∧
    (∃ (c : MgrCmd) (b : Nat) (pr : Proc) (s t : State), pr = { op := 0x09, c := c } ∧ t = cmdTaken pr s ∧ CoxTakes pr s ∧ b = setBase t (argS pr) ∧ setBad t b = false ∧ slState (slabEnt t b) = slOWNED ∧ isShadow t (slOwner (slabEnt t b)) = false) ∧
    (∃ (c : MgrCmd) (u : State) (pr : Proc) (s t : State), pr = { op := 0x0A, c := c } ∧ t = cmdTaken pr s ∧ CoxTakes pr s ∧ argP pr < 12 ∧ argD pr < 12 ∧ (part t (argP pr)).st ≠ .none ∧ rpPart t (argD pr) = 15 ∧ fbit t (frRp (argD pr)) 0 3 = false ∧ bhPort t (argD pr) = false ∧ drained t = true ∧ u = updPart (argP pr) (fun x => { x with rps := putBit x.rps (argD pr) true }) t ∧ routesExist (routeSet u (nowVis u)) = true) ∧
    (∃ (c : MgrCmd) (pr : Proc) (s t : State), pr = { op := 0x0B, c := c } ∧ t = cmdTaken pr s ∧ CoxTakes pr s ∧ argD pr < 12 ∧ rpPart t (argD pr) ≠ 15) ∧
    (∃ (c : MgrCmd) (pr : Proc) (s t : State), pr = { op := 0x0C, c := c } ∧ t = cmdTaken pr s ∧ CoxTakes pr s ∧ argP pr < 12) ∧
    (∃ (c : MgrCmd) (pr : Proc) (s t : State), pr = { op := 0x10, c := c } ∧ t = cmdTaken pr s ∧ CoxTakes pr s ∧ fbit t frFlt 8 0 = true ∧ hasErrBank (frameKind (bits (arg0 pr) 0 12)).1 = true ∧ injRefused (bits (arg0 pr) 0 12) (arg1 pr) = false) :=
  ⟨⟨({ src := 16, a0 := 0, a1 := 0 }), (updPart (argP ({ op := 0x01, c := ({ src := 16, a0 := 0, a1 := 0 } : MgrCmd) })) (fun x => { x with st := .stopped, dies := 2 ^ argD ({ op := 0x01, c := ({ src := 16, a0 := 0, a1 := 0 } : MgrCmd) }) }) (updDie (argD ({ op := 0x01, c := ({ src := 16, a0 := 0, a1 := 0 } : MgrCmd) })) (fun x => { x with asg := some (argP ({ op := 0x01, c := ({ src := 16, a0 := 0, a1 := 0 } : MgrCmd) })) }) (cmdTaken ({ op := 0x01, c := ({ src := 16, a0 := 0, a1 := 0 } : MgrCmd) }) (setLinkSt 0 lL0 wOn : State)))), ({ op := 0x01, c := ({ src := 16, a0 := 0, a1 := 0 } : MgrCmd) }), (setLinkSt 0 lL0 wOn), (cmdTaken ({ op := 0x01, c := ({ src := 16, a0 := 0, a1 := 0 } : MgrCmd) }) (setLinkSt 0 lL0 wOn : State)), rfl, rfl, by decide, by decide, by decide, by decide, by decide, by decide, rfl, by decide⟩,
    ⟨({ src := 16, a0 := 0, a1 := 0 }), ({ op := 0x02, c := ({ src := 16, a0 := 0, a1 := 0 } : MgrCmd) }), ({ w0 with parts := [(0, { st := .stopped, dies := 1 })] }), (cmdTaken ({ op := 0x02, c := ({ src := 16, a0 := 0, a1 := 0 } : MgrCmd) }) ({ w0 with parts := [(0, { st := .stopped, dies := 1 })] } : State)), rfl, rfl, by decide, by decide, by decide, by decide, by decide⟩,
    ⟨({ src := 16, a0 := 0, a1 := 0 }), ({ op := 0x03, c := ({ src := 16, a0 := 0, a1 := 0 } : MgrCmd) }), (w0), (cmdTaken ({ op := 0x03, c := ({ src := 16, a0 := 0, a1 := 0 } : MgrCmd) }) (w0 : State)), rfl, rfl, by decide, by decide, by decide⟩,
    ⟨({ src := 16, a0 := 0, a1 := 0 }), ({ op := 0x04, c := ({ src := 16, a0 := 0, a1 := 0 } : MgrCmd) }), (w0), (cmdTaken ({ op := 0x04, c := ({ src := 16, a0 := 0, a1 := 0 } : MgrCmd) }) (w0 : State)), rfl, rfl, by decide, by decide, by decide⟩,
    ⟨({ src := 16, a0 := 0, a1 := 0 }), ({ op := 0x05, c := ({ src := 16, a0 := 0, a1 := 0 } : MgrCmd) }), ({ w0 with parts := [(0, { st := .stopped, dies := 1 })] }), (cmdTaken ({ op := 0x05, c := ({ src := 16, a0 := 0, a1 := 0 } : MgrCmd) }) ({ w0 with parts := [(0, { st := .stopped, dies := 1 })] } : State)), rfl, rfl, by decide, by decide, by decide⟩,
    ⟨({ src := 16, a0 := 0, a1 := 0 }), ({ op := 0x06, c := ({ src := 16, a0 := 0, a1 := 0 } : MgrCmd) }), ({ w0 with parts := [(0, { st := .running, dies := 3 })] }), (cmdTaken ({ op := 0x06, c := ({ src := 16, a0 := 0, a1 := 0 } : MgrCmd) }) ({ w0 with parts := [(0, { st := .running, dies := 3 })] } : State)), rfl, rfl, by decide, by decide, by decide, by decide, by decide, by decide, by decide, by decide⟩,
    ⟨({ src := 16, a0 := 0, a1 := 1 }), (updDie (argD ({ op := 0x07, c := ({ src := 16, a0 := 0, a1 := 1 } : MgrCmd) })) (fun x => { x with asg := some (argP ({ op := 0x07, c := ({ src := 16, a0 := 0, a1 := 1 } : MgrCmd) })) }) (updPart (argP ({ op := 0x07, c := ({ src := 16, a0 := 0, a1 := 1 } : MgrCmd) })) (fun x => { x with dies := putBit x.dies (argD ({ op := 0x07, c := ({ src := 16, a0 := 0, a1 := 1 } : MgrCmd) })) true }) (cmdTaken ({ op := 0x07, c := ({ src := 16, a0 := 0, a1 := 1 } : MgrCmd) }) (setLinkSt 1 lL0 { w0 with parts := [(0, { st := .stopped, dies := 1 })] } : State)))), ({ op := 0x07, c := ({ src := 16, a0 := 0, a1 := 1 } : MgrCmd) }), (setLinkSt 1 lL0 { w0 with parts := [(0, { st := .stopped, dies := 1 })] }), (cmdTaken ({ op := 0x07, c := ({ src := 16, a0 := 0, a1 := 1 } : MgrCmd) }) (setLinkSt 1 lL0 { w0 with parts := [(0, { st := .stopped, dies := 1 })] } : State)), rfl, rfl, by decide, by decide, by decide, by decide, by decide, by decide, by decide, rfl, by decide⟩,
    ⟨({ src := 16, a0 := 0, a1 := 0 }), (setBase (cmdTaken ({ op := 0x08, c := ({ src := 16, a0 := 0, a1 := 0 } : MgrCmd) }) ({ w0 with slab := [(0, 1)] } : State)) (argS ({ op := 0x08, c := ({ src := 16, a0 := 0, a1 := 0 } : MgrCmd) }))), ({ op := 0x08, c := ({ src := 16, a0 := 0, a1 := 0 } : MgrCmd) }), ({ w0 with slab := [(0, 1)] }), (cmdTaken ({ op := 0x08, c := ({ src := 16, a0 := 0, a1 := 0 } : MgrCmd) }) ({ w0 with slab := [(0, 1)] } : State)), rfl, rfl, by decide, by decide, rfl, by decide, by decide, by decide, by decide, by decide⟩,
    ⟨({ src := 16, a0 := 0, a1 := 0 }), (setBase (cmdTaken ({ op := 0x09, c := ({ src := 16, a0 := 0, a1 := 0 } : MgrCmd) }) (w0 : State)) (argS ({ op := 0x09, c := ({ src := 16, a0 := 0, a1 := 0 } : MgrCmd) }))), ({ op := 0x09, c := ({ src := 16, a0 := 0, a1 := 0 } : MgrCmd) }), (w0), (cmdTaken ({ op := 0x09, c := ({ src := 16, a0 := 0, a1 := 0 } : MgrCmd) }) (w0 : State)), rfl, rfl, by decide, rfl, by decide, by decide, by decide⟩,
    ⟨({ src := 16, a0 := 0, a1 := 1 }), (updPart (argP ({ op := 0x0A, c := ({ src := 16, a0 := 0, a1 := 1 } : MgrCmd) })) (fun x => { x with rps := putBit x.rps (argD ({ op := 0x0A, c := ({ src := 16, a0 := 0, a1 := 1 } : MgrCmd) })) true }) (cmdTaken ({ op := 0x0A, c := ({ src := 16, a0 := 0, a1 := 1 } : MgrCmd) }) (w0 : State))), ({ op := 0x0A, c := ({ src := 16, a0 := 0, a1 := 1 } : MgrCmd) }), (w0), (cmdTaken ({ op := 0x0A, c := ({ src := 16, a0 := 0, a1 := 1 } : MgrCmd) }) (w0 : State)), rfl, rfl, by decide, by decide, by decide, by decide, by decide, by decide, by decide, by decide, rfl, by decide⟩,
    ⟨({ src := 16, a0 := 0, a1 := 0 }), ({ op := 0x0B, c := ({ src := 16, a0 := 0, a1 := 0 } : MgrCmd) }), (w0), (cmdTaken ({ op := 0x0B, c := ({ src := 16, a0 := 0, a1 := 0 } : MgrCmd) }) (w0 : State)), rfl, rfl, by decide, by decide, by decide⟩,
    ⟨({ src := 16, a0 := 0, a1 := 0 }), ({ op := 0x0C, c := ({ src := 16, a0 := 0, a1 := 0 } : MgrCmd) }), (w0), (cmdTaken ({ op := 0x0C, c := ({ src := 16, a0 := 0, a1 := 0 } : MgrCmd) }) (w0 : State)), rfl, rfl, by decide, by decide⟩,
    ⟨({ src := 16, a0 := frHa 0, a1 := 0 }), ({ op := 0x10, c := ({ src := 16, a0 := frHa 0, a1 := 0 } : MgrCmd) }), (setBit frFlt 8 0 w0), (cmdTaken ({ op := 0x10, c := ({ src := 16, a0 := frHa 0, a1 := 0 } : MgrCmd) }) (setBit frFlt 8 0 w0 : State)), rfl, rfl, by decide, by decide, by decide, by decide⟩⟩
theorem wit_BoathouseManagerCommandsRun :
    (∃ (c : MgrCmd) (id : DriveId) (pr : Proc) (s t : State), pr = { op := 0x20, c := c, id := id } ∧ t = cmdTaken pr s ∧ CoxTakes pr s ∧ t.bh.slab.isNone = false ∧ bits (arg1 pr) 0 4 < 12 ∧ (mfind t.drives (bits (arg0 pr) 0 6)).isSome = false ∧ rpPart t (bits (arg1 pr) 0 4) = 15 ∧ rpPair t (bits (arg1 pr) 0 4) = false ∧ bhPort t (bits (arg1 pr) 0 4) = true ∧ id.responds = true ∧ (id.bsize = 4096 ∨ id.bsize = 512 ∧ 7 ≤ id.awupf) ∧ (id.volatileCache = false ∨ id.disables = true) ∧ 8 ≤ id.qpairs) ∧
    (∃ (c : MgrCmd) (dv : Drive) (u : State) (pr : Proc) (s t : State), pr = { op := 0x21, c := c } ∧ t = cmdTaken pr s ∧ CoxTakes pr s ∧ t.bh.slab.isNone = false ∧ mfind t.drives (bits (arg0 pr) 0 6) = some dv ∧ t.bh.pools.any (fun e => e.2.drv = bits (arg0 pr) 0 6) = false ∧ u = { t with drives := mdel t.drives (bits (arg0 pr) 0 6), catCopies := mdel t.catCopies (dv.rp * 65536 + dv.rid) } ∧ bhPort u dv.rp = true) ∧
    (∃ (c : MgrCmd) (dv : Drive) (k : Nat) (pr : Proc) (s t : State), pr = { op := 0x22, c := c } ∧ t = cmdTaken pr s ∧ CoxTakes pr s ∧ t.bh.slab.isNone = false ∧ bits (arg0 pr) 0 4 < 12 ∧ bits (arg0 pr) 24 40 ≠ 0 ∧ mfind t.drives (bits (arg0 pr) 8 6) = some dv ∧ (part t (bits (arg0 pr) 0 4)).st ≠ .none ∧ 1024 ≤ bits (arg1 pr) 0 40 ∧ bits (arg1 pr) 0 40 + bits (arg0 pr) 24 40 ≤ dv.blocks ∧ t.bh.pools.any (fun e => decide (e.2.drv = bits (arg0 pr) 8 6) && decide (bits (arg1 pr) 0 40 < e.2.first + e.2.count) && decide (e.2.first < bits (arg1 pr) 0 40 + bits (arg0 pr) 24 40)) = false ∧ t.bh.pools.length < 256 ∧ k = ((List.range 256).find? (fun k => (mfind t.bh.pools k).isNone)).getD 0) ∧
    (∃ (c : MgrCmd) (q : Pool) (pr : Proc) (s t : State), pr = { op := 0x23, c := c } ∧ t = cmdTaken pr s ∧ CoxTakes pr s ∧ t.bh.slab.isNone = false ∧ mfind t.bh.pools (bits (arg0 pr) 0 8) = some q ∧ t.bh.alloc.any (fun e => decide (blkKey q.drv q.first ≤ e.1) && decide (e.1 < blkKey q.drv (q.first + q.count))) = false) ∧
    (∃ (c : MgrCmd) (n nsid : Nat) (got : List Nat) (nd : NsDef) (pr : Proc) (s t : State), pr = { op := 0x24, c := c } ∧ t = cmdTaken pr s ∧ CoxTakes pr s ∧ t.bh.slab.isNone = false ∧ bits (arg0 pr) 0 4 < 12 ∧ arg1 pr ≠ 0 ∧ arg1 pr % 512 = 0 ∧ (part t (bits (arg0 pr) 0 4)).st ≠ .none ∧ n = arg1 pr / 512 ∧ got = freeBlocks t (bits (arg0 pr) 0 4) (n + (n + 511) / 512) ∧ t.bh.nss.length < 2048 ∧ n + (n + 511) / 512 ≤ got.length ∧ nsid = (((List.range 2048).map (· + 1)).find? (fun k => (mfind t.bh.nss k).isNone)).getD 1 ∧ nd = { part := bits (arg0 pr) 0 4, fmt4k := bit (arg0 pr) 8, size := arg1 pr, nsuid := t.bh.nsuid + 1, dir := got.drop n, maps := got.take n }) ∧
    (∃ (c : MgrCmd) (nsid : Nat) (pr : Proc) (s t : State), pr = { op := 0x25, c := c } ∧ t = cmdTaken pr s ∧ CoxTakes pr s ∧ t.bh.slab.isNone = false ∧ nsid = bits (arg0 pr) 0 12 ∧ nsid ≠ 0 ∧ nsid ≤ 2048 ∧ (mfind t.bh.nss nsid).isNone = false ∧ (nsVfs t nsid).isEmpty = true) ∧
    (∃ (c : MgrCmd) (nsid v : Nat) (pr : Proc) (s t : State), pr = { op := 0x26, c := c } ∧ t = cmdTaken pr s ∧ CoxTakes pr s ∧ t.bh.slab.isNone = false ∧ nsid = bits (arg0 pr) 0 12 ∧ v = bits (arg1 pr) 0 10 ∧ nsid ≠ 0 ∧ nsid ≤ 2048 ∧ (mfind t.bh.nss nsid).isNone = false ∧ vfIs t v = true ∧ (nsOf t nsid).part = (vf t v).owner ∧ (vf t v).ns.contains nsid = false ∧ (vf t v).ns.length < 8 ∧ (nsVfs t nsid).length < 8) ∧
    (∃ (c : MgrCmd) (nsid v : Nat) (pr : Proc) (s t : State), pr = { op := 0x27, c := c } ∧ t = cmdTaken pr s ∧ CoxTakes pr s ∧ t.bh.slab.isNone = false ∧ nsid = bits (arg0 pr) 0 12 ∧ v = bits (arg1 pr) 0 10 ∧ nsid ≠ 0 ∧ nsid ≤ 2048 ∧ vfIs t v = true ∧ (vf t v).ns.contains nsid = true ∧ t.bh.slots.any (fun x => decide (x.vf = v) && decide (x.n < 8192) && decide (x.e.nsid = nsid)) = false) ∧
    (∃ (c : MgrCmd) (v : Nat) (u : State) (pr : Proc) (s t : State), pr = { op := 0x28, c := c } ∧ t = cmdTaken pr s ∧ CoxTakes pr s ∧ t.bh.slab.isNone = false ∧ bits (arg0 pr) 0 4 < 12 ∧ 0 < bits (arg0 pr) 8 8 ∧ bits (arg0 pr) 8 8 ≤ 128 ∧ 0 < bits (arg1 pr) 0 14 ∧ bits (arg1 pr) 0 14 ≤ 8192 ∧ bits (arg1 pr) 16 14 ≤ bits (arg1 pr) 0 14 ∧ (part t (bits (arg0 pr) 0 4)).st ≠ .none ∧ t.bh.vfs.length < 1024 ∧ qpSum t + bits (arg0 pr) 8 8 ≤ 4096 ∧ guarSum t + bits (arg1 pr) 16 14 ≤ 8192 ∧ drained t = true ∧ v = ((List.range 1024).find? (fun v => !(vfIs t v))).getD 0 ∧ u = updBh (fun b => { b with vfs := mins b.vfs v { owner := bits (arg0 pr) 0 4, nqp := bits (arg0 pr) 8 8, share := bits (arg1 pr) 0 14, guar := bits (arg1 pr) 16 14, frozen := bit (arg0 pr) 16 } }) t ∧ routesExist (routeSet u (nowVis u)) = true) ∧
    (∃ (c : MgrCmd) (v : Nat) (pr : Proc) (s t : State), pr = { op := 0x29, c := c } ∧ t = cmdTaken pr s ∧ CoxTakes pr s ∧ t.bh.slab.isNone = false ∧ v = bits (arg0 pr) 0 10 ∧ vfIs t v = true ∧ (vf t v).ns.isEmpty = true ∧ drained t = true) ∧
    (∃ (c : MgrCmd) (v : Nat) (pr : Proc) (s t : State), pr = { op := 0x2A, c := c } ∧ t = cmdTaken pr s ∧ CoxTakes pr s ∧ t.bh.slab.isNone = false ∧ v = bits (arg0 pr) 0 10 ∧ 0 < bits (arg1 pr) 0 14 ∧ bits (arg1 pr) 0 14 ≤ 8192 ∧ bits (arg1 pr) 16 14 ≤ bits (arg1 pr) 0 14 ∧ vfIs t v = true ∧ guarSum t - (vf t v).guar + bits (arg1 pr) 16 14 ≤ 8192) ∧
    (∃ (c : MgrCmd) (v : Nat) (pr : Proc) (s t : State), pr = { op := 0x2B, c := c } ∧ t = cmdTaken pr s ∧ CoxTakes pr s ∧ t.bh.slab.isNone = false ∧ v = bits (arg0 pr) 0 10 ∧ vfIs t v = true ∧ (vf t v).frozen = false) ∧
    (∃ (c : MgrCmd) (v : Nat) (w : Nat × State) (pr : Proc) (s t : State), pr = { op := 0x2C, c := c } ∧ t = cmdTaken pr s ∧ CoxTakes pr s ∧ t.bh.slab.isNone = false ∧ v = bits (arg0 pr) 0 10 ∧ vfIs t v = true ∧ (vf t v).frozen = true ∧ imgAddrOk t v (arg1 pr) 16384 = true ∧ w = hostWrite v true (arg1 pr) 16384 (vfImage t v) t) ∧
    (∃ (c : MgrCmd) (v : Nat) (pr : Proc) (s t : State), pr = { op := 0x2D, c := c } ∧ t = cmdTaken pr s ∧ CoxTakes pr s ∧ t.bh.slab.isNone = false ∧ v = bits (arg0 pr) 0 10 ∧ vfIs t v = true ∧ (vf t v).frozen = true ∧ (vf t v).sqs.any (fun e => e.1 ≠ 0) = false ∧ (vf t v).cqs.any (fun e => e.1 ≠ 0) = false ∧ imgAddrOk t v (arg1 pr) 16384 = true) ∧
    (∃ (c : MgrCmd) (v : Nat) (pr : Proc) (s t : State), pr = { op := 0x2E, c := c } ∧ t = cmdTaken pr s ∧ CoxTakes pr s ∧ t.bh.slab.isNone = false ∧ v = bits (arg0 pr) 0 10 ∧ vfIs t v = true ∧ (vf t v).frozen = true) ∧
    (∃ (c : MgrCmd) (v : Nat) (pr : Proc) (s t : State), pr = { op := 0x2F, c := c } ∧ t = cmdTaken pr s ∧ CoxTakes pr s ∧ t.bh.slab.isNone = false ∧ v = bits (arg0 pr) 0 10 ∧ vfIs t v = true ∧ bit (arg0 pr) 16 = true ∧ imgAddrOk t v (arg1 pr) 64 = true) :=
  ⟨⟨({ src := 16, a0 := 1, a1 := 1 }), ({}), ({ op := 0x20, c := ({ src := 16, a0 := 1, a1 := 1 } : MgrCmd), id := ({} : DriveId) }), ({ w0 with bh := { w0.bh with slab := some 0 }, drives := [(0, { rp := 1, blocks := 4096 })] }), (cmdTaken ({ op := 0x20, c := ({ src := 16, a0 := 1, a1 := 1 } : MgrCmd), id := ({} : DriveId) }) ({ w0 with bh := { w0.bh with slab := some 0 }, drives := [(0, { rp := 1, blocks := 4096 })] } : State)), rfl, rfl, by decide, by decide, by decide, by decide, by decide, by decide, by decide, by decide, by decide, by decide, by decide⟩,
    ⟨({ src := 16, a0 := 0, a1 := 0 }), ({ rp := 1 }), ({ (cmdTaken ({ op := 0x21, c := ({ src := 16, a0 := 0, a1 := 0 } : MgrCmd) }) ({ w0 with bh := { w0.bh with slab := some 0 }, drives := [(0, { rp := 1 }), (1, { rp := 1 })] } : State)) with drives := mdel (cmdTaken ({ op := 0x21, c := ({ src := 16, a0 := 0, a1 := 0 } : MgrCmd) }) ({ w0 with bh := { w0.bh with slab := some 0 }, drives := [(0, { rp := 1 }), (1, { rp := 1 })] } : State)).drives (bits (arg0 ({ op := 0x21, c := ({ src := 16, a0 := 0, a1 := 0 } : MgrCmd) })) 0 6), catCopies := mdel (cmdTaken ({ op := 0x21, c := ({ src := 16, a0 := 0, a1 := 0 } : MgrCmd) }) ({ w0 with bh := { w0.bh with slab := some 0 }, drives := [(0, { rp := 1 }), (1, { rp := 1 })] } : State)).catCopies (({ rp := 1 } : Drive).rp * 65536 + ({ rp := 1 } : Drive).rid) }), ({ op := 0x21, c := ({ src := 16, a0 := 0, a1 := 0 } : MgrCmd) }), ({ w0 with bh := { w0.bh with slab := some 0 }, drives := [(0, { rp := 1 }), (1, { rp := 1 })] }), (cmdTaken ({ op := 0x21, c := ({ src := 16, a0 := 0, a1 := 0 } : MgrCmd) }) ({ w0 with bh := { w0.bh with slab := some 0 }, drives := [(0, { rp := 1 }), (1, { rp := 1 })] } : State)), rfl, rfl, by decide, by decide, by decide, by decide, rfl, by decide⟩,
    ⟨({ src := 16, a0 := 2 ^ 24, a1 := 1024 }), ({ rp := 1, blocks := 4096 }), (((List.range 256).find? (fun k => (mfind (cmdTaken ({ op := 0x22, c := ({ src := 16, a0 := 2 ^ 24, a1 := 1024 } : MgrCmd) }) ({ w0 with bh := { w0.bh with slab := some 0 }, drives := [(0, { rp := 1, blocks := 4096 })] } : State)).bh.pools k).isNone)).getD 0), ({ op := 0x22, c := ({ src := 16, a0 := 2 ^ 24, a1 := 1024 } : MgrCmd) }), ({ w0 with bh := { w0.bh with slab := some 0 }, drives := [(0, { rp := 1, blocks := 4096 })] }), (cmdTaken ({ op := 0x22, c := ({ src := 16, a0 := 2 ^ 24, a1 := 1024 } : MgrCmd) }) ({ w0 with bh := { w0.bh with slab := some 0 }, drives := [(0, { rp := 1, blocks := 4096 })] } : State)), rfl, rfl, by decide, by decide, by decide, by decide, by decide, by decide, by decide, by decide, by decide, by decide, rfl⟩,
    ⟨({ src := 16, a0 := 0, a1 := 0 }), ({}), ({ op := 0x23, c := ({ src := 16, a0 := 0, a1 := 0 } : MgrCmd) }), ({ w0 with bh := { w0.bh with slab := some 0, pools := [(0, {})] } }), (cmdTaken ({ op := 0x23, c := ({ src := 16, a0 := 0, a1 := 0 } : MgrCmd) }) ({ w0 with bh := { w0.bh with slab := some 0, pools := [(0, {})] } } : State)), rfl, rfl, by decide, by decide, by decide, by decide⟩,
    ⟨({ src := 16, a0 := 0, a1 := 512 }), (arg1 ({ op := 0x24, c := ({ src := 16, a0 := 0, a1 := 512 } : MgrCmd) }) / 512), ((((List.range 2048).map (· + 1)).find? (fun k => (mfind (cmdTaken ({ op := 0x24, c := ({ src := 16, a0 := 0, a1 := 512 } : MgrCmd) }) ({ w0 with bh := { w0.bh with slab := some 0, pools := [(0, { part := 0, drv := 0, first := 1024, count := 2 })] }, drives := [(0, { rp := 1, blocks := 4096 })] } : State)).bh.nss k).isNone)).getD 1), (freeBlocks (cmdTaken ({ op := 0x24, c := ({ src := 16, a0 := 0, a1 := 512 } : MgrCmd) }) ({ w0 with bh := { w0.bh with slab := some 0, pools := [(0, { part := 0, drv := 0, first := 1024, count := 2 })] }, drives := [(0, { rp := 1, blocks := 4096 })] } : State)) (bits (arg0 ({ op := 0x24, c := ({ src := 16, a0 := 0, a1 := 512 } : MgrCmd) })) 0 4) ((arg1 ({ op := 0x24, c := ({ src := 16, a0 := 0, a1 := 512 } : MgrCmd) }) / 512) + ((arg1 ({ op := 0x24, c := ({ src := 16, a0 := 0, a1 := 512 } : MgrCmd) }) / 512) + 511) / 512)), ({ part := bits (arg0 ({ op := 0x24, c := ({ src := 16, a0 := 0, a1 := 512 } : MgrCmd) })) 0 4, fmt4k := bit (arg0 ({ op := 0x24, c := ({ src := 16, a0 := 0, a1 := 512 } : MgrCmd) })) 8, size := arg1 ({ op := 0x24, c := ({ src := 16, a0 := 0, a1 := 512 } : MgrCmd) }), nsuid := (cmdTaken ({ op := 0x24, c := ({ src := 16, a0 := 0, a1 := 512 } : MgrCmd) }) ({ w0 with bh := { w0.bh with slab := some 0, pools := [(0, { part := 0, drv := 0, first := 1024, count := 2 })] }, drives := [(0, { rp := 1, blocks := 4096 })] } : State)).bh.nsuid + 1, dir := (freeBlocks (cmdTaken ({ op := 0x24, c := ({ src := 16, a0 := 0, a1 := 512 } : MgrCmd) }) ({ w0 with bh := { w0.bh with slab := some 0, pools := [(0, { part := 0, drv := 0, first := 1024, count := 2 })] }, drives := [(0, { rp := 1, blocks := 4096 })] } : State)) (bits (arg0 ({ op := 0x24, c := ({ src := 16, a0 := 0, a1 := 512 } : MgrCmd) })) 0 4) ((arg1 ({ op := 0x24, c := ({ src := 16, a0 := 0, a1 := 512 } : MgrCmd) }) / 512) + ((arg1 ({ op := 0x24, c := ({ src := 16, a0 := 0, a1 := 512 } : MgrCmd) }) / 512) + 511) / 512)).drop (arg1 ({ op := 0x24, c := ({ src := 16, a0 := 0, a1 := 512 } : MgrCmd) }) / 512), maps := (freeBlocks (cmdTaken ({ op := 0x24, c := ({ src := 16, a0 := 0, a1 := 512 } : MgrCmd) }) ({ w0 with bh := { w0.bh with slab := some 0, pools := [(0, { part := 0, drv := 0, first := 1024, count := 2 })] }, drives := [(0, { rp := 1, blocks := 4096 })] } : State)) (bits (arg0 ({ op := 0x24, c := ({ src := 16, a0 := 0, a1 := 512 } : MgrCmd) })) 0 4) ((arg1 ({ op := 0x24, c := ({ src := 16, a0 := 0, a1 := 512 } : MgrCmd) }) / 512) + ((arg1 ({ op := 0x24, c := ({ src := 16, a0 := 0, a1 := 512 } : MgrCmd) }) / 512) + 511) / 512)).take (arg1 ({ op := 0x24, c := ({ src := 16, a0 := 0, a1 := 512 } : MgrCmd) }) / 512) }), ({ op := 0x24, c := ({ src := 16, a0 := 0, a1 := 512 } : MgrCmd) }), ({ w0 with bh := { w0.bh with slab := some 0, pools := [(0, { part := 0, drv := 0, first := 1024, count := 2 })] }, drives := [(0, { rp := 1, blocks := 4096 })] }), (cmdTaken ({ op := 0x24, c := ({ src := 16, a0 := 0, a1 := 512 } : MgrCmd) }) ({ w0 with bh := { w0.bh with slab := some 0, pools := [(0, { part := 0, drv := 0, first := 1024, count := 2 })] }, drives := [(0, { rp := 1, blocks := 4096 })] } : State)), rfl, rfl, by decide, by decide, by decide, by decide, by decide, by decide, rfl, rfl, by decide, by decide, rfl, rfl⟩,
    ⟨({ src := 16, a0 := 1, a1 := 0 }), (bits (arg0 ({ op := 0x25, c := ({ src := 16, a0 := 1, a1 := 0 } : MgrCmd) })) 0 12), ({ op := 0x25, c := ({ src := 16, a0 := 1, a1 := 0 } : MgrCmd) }), ({ w0 with bh := { w0.bh with slab := some 0, nss := [(1, { part := 0, size := 512 })] } }), (cmdTaken ({ op := 0x25, c := ({ src := 16, a0 := 1, a1 := 0 } : MgrCmd) }) ({ w0 with bh := { w0.bh with slab := some 0, nss := [(1, { part := 0, size := 512 })] } } : State)), rfl, rfl, by decide, by decide, rfl, by decide, by decide, by decide, by decide⟩,
    ⟨({ src := 16, a0 := 1, a1 := 0 }), (bits (arg0 ({ op := 0x26, c := ({ src := 16, a0 := 1, a1 := 0 } : MgrCmd) })) 0 12), (bits (arg1 ({ op := 0x26, c := ({ src := 16, a0 := 1, a1 := 0 } : MgrCmd) })) 0 10), ({ op := 0x26, c := ({ src := 16, a0 := 1, a1 := 0 } : MgrCmd) }), ({ w0 with bh := { w0.bh with slab := some 0, nss := [(1, { part := 0, size := 512 })], vfs := [(0, { owner := 0 })] } }), (cmdTaken ({ op := 0x26, c := ({ src := 16, a0 := 1, a1 := 0 } : MgrCmd) }) ({ w0 with bh := { w0.bh with slab := some 0, nss := [(1, { part := 0, size := 512 })], vfs := [(0, { owner := 0 })] } } : State)), rfl, rfl, by decide, by decide, rfl, rfl, by decide, by decide, by decide, by decide, by decide, by decide, by decide, by decide⟩,
    ⟨({ src := 16, a0 := 1, a1 := 0 }), (bits (arg0 ({ op := 0x27, c := ({ src := 16, a0 := 1, a1 := 0 } : MgrCmd) })) 0 12), (bits (arg1 ({ op := 0x27, c := ({ src := 16, a0 := 1, a1 := 0 } : MgrCmd) })) 0 10), ({ op := 0x27, c := ({ src := 16, a0 := 1, a1 := 0 } : MgrCmd) }), ({ w0 with bh := { w0.bh with slab := some 0, nss := [(1, { part := 0, size := 512 })], vfs := [(0, { owner := 0, ns := [1] })] } }), (cmdTaken ({ op := 0x27, c := ({ src := 16, a0 := 1, a1 := 0 } : MgrCmd) }) ({ w0 with bh := { w0.bh with slab := some 0, nss := [(1, { part := 0, size := 512 })], vfs := [(0, { owner := 0, ns := [1] })] } } : State)), rfl, rfl, by decide, by decide, rfl, rfl, by decide, by decide, by decide, by decide, by decide⟩,
    ⟨({ src := 16, a0 := 256, a1 := 1 }), (((List.range 1024).find? (fun v => !(vfIs (cmdTaken ({ op := 0x28, c := ({ src := 16, a0 := 256, a1 := 1 } : MgrCmd) }) ({ w0 with bh := { w0.bh with slab := some 0 } } : State)) v))).getD 0), (updBh (fun b => { b with vfs := mins b.vfs (((List.range 1024).find? (fun v => !(vfIs (cmdTaken ({ op := 0x28, c := ({ src := 16, a0 := 256, a1 := 1 } : MgrCmd) }) ({ w0 with bh := { w0.bh with slab := some 0 } } : State)) v))).getD 0) { owner := bits (arg0 ({ op := 0x28, c := ({ src := 16, a0 := 256, a1 := 1 } : MgrCmd) })) 0 4, nqp := bits (arg0 ({ op := 0x28, c := ({ src := 16, a0 := 256, a1 := 1 } : MgrCmd) })) 8 8, share := bits (arg1 ({ op := 0x28, c := ({ src := 16, a0 := 256, a1 := 1 } : MgrCmd) })) 0 14, guar := bits (arg1 ({ op := 0x28, c := ({ src := 16, a0 := 256, a1 := 1 } : MgrCmd) })) 16 14, frozen := bit (arg0 ({ op := 0x28, c := ({ src := 16, a0 := 256, a1 := 1 } : MgrCmd) })) 16 } }) (cmdTaken ({ op := 0x28, c := ({ src := 16, a0 := 256, a1 := 1 } : MgrCmd) }) ({ w0 with bh := { w0.bh with slab := some 0 } } : State))), ({ op := 0x28, c := ({ src := 16, a0 := 256, a1 := 1 } : MgrCmd) }), ({ w0 with bh := { w0.bh with slab := some 0 } }), (cmdTaken ({ op := 0x28, c := ({ src := 16, a0 := 256, a1 := 1 } : MgrCmd) }) ({ w0 with bh := { w0.bh with slab := some 0 } } : State)), rfl, rfl, by decide, by decide, by decide, by decide, by decide, by decide, by decide, by decide, by decide, by decide, by decide, by decide, by decide, rfl, rfl, by decide⟩,
    ⟨({ src := 16, a0 := 0, a1 := 0 }), (bits (arg0 ({ op := 0x29, c := ({ src := 16, a0 := 0, a1 := 0 } : MgrCmd) })) 0 10), ({ op := 0x29, c := ({ src := 16, a0 := 0, a1 := 0 } : MgrCmd) }), ({ w0 with bh := { w0.bh with slab := some 0, vfs := [(0, { owner := 0 })] } }), (cmdTaken ({ op := 0x29, c := ({ src := 16, a0 := 0, a1 := 0 } : MgrCmd) }) ({ w0 with bh := { w0.bh with slab := some 0, vfs := [(0, { owner := 0 })] } } : State)), rfl, rfl, by decide, by decide, rfl, by decide, by decide, by decide⟩,
    ⟨({ src := 16, a0 := 0, a1 := 1 }), (bits (arg0 ({ op := 0x2A, c := ({ src := 16, a0 := 0, a1 := 1 } : MgrCmd) })) 0 10), ({ op := 0x2A, c := ({ src := 16, a0 := 0, a1 := 1 } : MgrCmd) }), ({ w0 with bh := { w0.bh with slab := some 0, vfs := [(0, { owner := 0 })] } }), (cmdTaken ({ op := 0x2A, c := ({ src := 16, a0 := 0, a1 := 1 } : MgrCmd) }) ({ w0 with bh := { w0.bh with slab := some 0, vfs := [(0, { owner := 0 })] } } : State)), rfl, rfl, by decide, by decide, rfl, by decide, by decide, by decide, by decide, by decide⟩,
    ⟨({ src := 16, a0 := 0, a1 := 0 }), (bits (arg0 ({ op := 0x2B, c := ({ src := 16, a0 := 0, a1 := 0 } : MgrCmd) })) 0 10), ({ op := 0x2B, c := ({ src := 16, a0 := 0, a1 := 0 } : MgrCmd) }), ({ w0 with bh := { w0.bh with slab := some 0, vfs := [(0, { owner := 0 })] } }), (cmdTaken ({ op := 0x2B, c := ({ src := 16, a0 := 0, a1 := 0 } : MgrCmd) }) ({ w0 with bh := { w0.bh with slab := some 0, vfs := [(0, { owner := 0 })] } } : State)), rfl, rfl, by decide, by decide, rfl, by decide, by decide⟩,
    ⟨({ src := 16, a0 := 0, a1 := 0 }), (bits (arg0 ({ op := 0x2C, c := ({ src := 16, a0 := 0, a1 := 0 } : MgrCmd) })) 0 10), (hostWrite (bits (arg0 ({ op := 0x2C, c := ({ src := 16, a0 := 0, a1 := 0 } : MgrCmd) })) 0 10) true (arg1 ({ op := 0x2C, c := ({ src := 16, a0 := 0, a1 := 0 } : MgrCmd) })) 16384 (vfImage (cmdTaken ({ op := 0x2C, c := ({ src := 16, a0 := 0, a1 := 0 } : MgrCmd) }) ({ w0 with bh := { w0.bh with slab := some 0, vfs := [(0, { owner := 0, frozen := true })] } } : State)) (bits (arg0 ({ op := 0x2C, c := ({ src := 16, a0 := 0, a1 := 0 } : MgrCmd) })) 0 10)) (cmdTaken ({ op := 0x2C, c := ({ src := 16, a0 := 0, a1 := 0 } : MgrCmd) }) ({ w0 with bh := { w0.bh with slab := some 0, vfs := [(0, { owner := 0, frozen := true })] } } : State))), ({ op := 0x2C, c := ({ src := 16, a0 := 0, a1 := 0 } : MgrCmd) }), ({ w0 with bh := { w0.bh with slab := some 0, vfs := [(0, { owner := 0, frozen := true })] } }), (cmdTaken ({ op := 0x2C, c := ({ src := 16, a0 := 0, a1 := 0 } : MgrCmd) }) ({ w0 with bh := { w0.bh with slab := some 0, vfs := [(0, { owner := 0, frozen := true })] } } : State)), rfl, rfl, by decide, by decide, rfl, by decide, by decide, by decide, rfl⟩,
    ⟨({ src := 16, a0 := 0, a1 := 0 }), (bits (arg0 ({ op := 0x2D, c := ({ src := 16, a0 := 0, a1 := 0 } : MgrCmd) })) 0 10), ({ op := 0x2D, c := ({ src := 16, a0 := 0, a1 := 0 } : MgrCmd) }), ({ w0 with bh := { w0.bh with slab := some 0, vfs := [(0, { owner := 0, frozen := true })] } }), (cmdTaken ({ op := 0x2D, c := ({ src := 16, a0 := 0, a1 := 0 } : MgrCmd) }) ({ w0 with bh := { w0.bh with slab := some 0, vfs := [(0, { owner := 0, frozen := true })] } } : State)), rfl, rfl, by decide, by decide, rfl, by decide, by decide, by decide, by decide, by decide⟩,
    ⟨({ src := 16, a0 := 0, a1 := 0 }), (bits (arg0 ({ op := 0x2E, c := ({ src := 16, a0 := 0, a1 := 0 } : MgrCmd) })) 0 10), ({ op := 0x2E, c := ({ src := 16, a0 := 0, a1 := 0 } : MgrCmd) }), ({ w0 with bh := { w0.bh with slab := some 0, vfs := [(0, { owner := 0, frozen := true })] } }), (cmdTaken ({ op := 0x2E, c := ({ src := 16, a0 := 0, a1 := 0 } : MgrCmd) }) ({ w0 with bh := { w0.bh with slab := some 0, vfs := [(0, { owner := 0, frozen := true })] } } : State)), rfl, rfl, by decide, by decide, rfl, by decide, by decide⟩,
    ⟨({ src := 16, a0 := 2 ^ 16, a1 := 0 }), (bits (arg0 ({ op := 0x2F, c := ({ src := 16, a0 := 2 ^ 16, a1 := 0 } : MgrCmd) })) 0 10), ({ op := 0x2F, c := ({ src := 16, a0 := 2 ^ 16, a1 := 0 } : MgrCmd) }), ({ w0 with bh := { w0.bh with slab := some 0, vfs := [(0, { owner := 0 })] } }), (cmdTaken ({ op := 0x2F, c := ({ src := 16, a0 := 2 ^ 16, a1 := 0 } : MgrCmd) }) ({ w0 with bh := { w0.bh with slab := some 0, vfs := [(0, { owner := 0 })] } } : State)), rfl, rfl, by decide, by decide, rfl, by decide, by decide, by decide⟩⟩
theorem wit_FirmwareAndTestCommandsRun :
    (∃ (c : MgrCmd) (k : Nat) (u : State) (pr : Proc) (s t : State), pr = { op := 0x30, c := c } ∧ t = cmdTaken pr s ∧ CoxTakes pr s ∧ arg0 pr % copySize = 0 ∧ arg0 pr < slotSize ∧ copyArgOk t c.src (arg1 pr) = true ∧ writeSlot t = some k ∧ slotRole t.card.cs0 k ≠ roWRITING ∧ arg1 pr = 0 ∧ u = setRoles ((rolesOf t.card.cs0).set k roWRITING) c.src t) ∧
    (∃ (c : MgrCmd) (k : Nat) (pr : Proc) (s t : State), pr = { op := 0x31, c := c } ∧ t = cmdTaken pr s ∧ CoxTakes pr s ∧ slotOf t.card.cs0 roWRITING = some k) ∧
    (∃ (c : MgrCmd) (k : Nat) (pr : Proc) (s t : State), pr = { op := 0x32, c := c } ∧ t = cmdTaken pr s ∧ CoxTakes pr s ∧ slotOf t.card.cs0 roPENDING = some k) ∧
    (∃ (c : MgrCmd) (k : Nat) (pr : Proc) (s t : State), pr = { op := 0x33, c := c } ∧ t = cmdTaken pr s ∧ CoxTakes pr s ∧ slotOf t.card.cs0 roPREVIOUS = some k ∧ slotOf t.card.cs0 roPENDING = none ∧ slotOf t.card.cs0 roWRITING = none ∧ svnFloor t ≤ slotSvn t k) ∧
    (∃ (c : MgrCmd) (pr : Proc) (s t : State), pr = { op := 0x34, c := c } ∧ t = cmdTaken pr s ∧ CoxTakes pr s ∧ bits (arg0 pr) 0 2 ≠ 3 ∧ bits (arg0 pr) 18 14 * copySize < slotSize ∧ copyArgOk t c.src (arg1 pr) = true) ∧
    (∃ (c : MgrCmd) (k : Nat) (pr : Proc) (s t : State), pr = { op := 0x35, c := c } ∧ t = cmdTaken pr s ∧ CoxTakes pr s ∧ slotOf t.card.cs0 roCURRENT = some k ∧ svnFloor t < slotSvn t k) ∧
    (∃ (c : MgrCmd) (k cu : Nat) (pr : Proc) (s t : State), pr = { op := 0x36, c := { c with a0 := c.a0 ||| 1 } } ∧ t = cmdTaken pr s ∧ CoxTakes pr s ∧ slotOf t.card.cs0 roPENDING = some k ∧ bit (fle t.card.cs0 (slotBase k + 29) 1) 0 = true ∧ slotOf t.card.cs0 roCURRENT = some cu ∧ sectBytes t.card.cs0 (slotBase k) 4 0 = sectBytes t.card.cs0 (slotBase cu) 4 0 ∧ bit (arg0 pr) 0 = true ∧ bit (arg0 pr) 1 = false) ∧
    (∃ (c : MgrCmd) (k cu : Nat) (pr : Proc) (s t : State), pr = { op := 0x36, c := { c with a0 := c.a0 ||| 2 } } ∧ t = cmdTaken pr s ∧ CoxTakes pr s ∧ slotOf t.card.cs0 roPENDING = some k ∧ bit (fle t.card.cs0 (slotBase k + 29) 1) 0 = true ∧ slotOf t.card.cs0 roCURRENT = some cu ∧ sectBytes t.card.cs0 (slotBase k) 3 0 = sectBytes t.card.cs0 (slotBase cu) 3 0 ∧ bit (arg0 pr) 1 = true) ∧
    (∃ (c : MgrCmd) (pr : Proc) (s t : State), pr = { op := 0x37, c := { c with a0 := 1 } } ∧ t = cmdTaken pr s ∧ CoxTakes pr s ∧ testArgOk 1 (arg1 pr) = true ∧ testBusy t 1 (arg1 pr) = false) ∧
    (∃ (c : MgrCmd) (pr : Proc) (s t : State), pr = { op := 0x37, c := { c with a0 := 2 } } ∧ t = cmdTaken pr s ∧ CoxTakes pr s ∧ testArgOk 2 (arg1 pr) = true ∧ testBusy t 2 (arg1 pr) = false) ∧
    (∃ (c : MgrCmd) (pr : Proc) (s t : State), pr = { op := 0x37, c := { c with a0 := 3 } } ∧ t = cmdTaken pr s ∧ CoxTakes pr s ∧ testArgOk 3 (arg1 pr) = true ∧ testBusy t 3 (arg1 pr) = false) ∧
    (∃ (c : MgrCmd) (pr : Proc) (s t : State), pr = { op := 0x37, c := { c with a0 := 4 } } ∧ t = cmdTaken pr s ∧ CoxTakes pr s ∧ testArgOk 4 (arg1 pr) = true ∧ testBusy t 4 (arg1 pr) = false) ∧
    (∃ (c : MgrCmd) (pr : Proc) (s t : State), pr = { op := 0x37, c := { c with a0 := 5 } } ∧ t = cmdTaken pr s ∧ CoxTakes pr s ∧ testArgOk 5 (arg1 pr) = true ∧ testBusy t 5 (arg1 pr) = false ∧ (freeSpare (lnk t (bits (arg1 pr) 0 4)) (wgKey (bit (arg1 pr) 11) (bits (arg1 pr) 4 7))).isNone = false) ∧
    (∃ (c : MgrCmd) (pr : Proc) (s t : State), pr = { op := 0x37, c := { c with a0 := 6 } } ∧ t = cmdTaken pr s ∧ CoxTakes pr s ∧ testArgOk 6 (arg1 pr) = true ∧ testBusy t 6 (arg1 pr) = false) ∧
    (∃ (c : MgrCmd) (pr : Proc) (s t : State), pr = { op := 0x38, c := c } ∧ t = cmdTaken pr s ∧ CoxTakes pr s ∧ ucp t = false) ∧
    (∃ (c : MgrCmd) (pr : Proc) (s t : State), pr = { op := 0x39, c := c } ∧ t = cmdTaken pr s ∧ CoxTakes pr s ∧ arg0 pr % copySize = 0 ∧ arg0 pr < 0x3000000 ∧ copyArgOk t c.src (arg1 pr) = true) :=
  ⟨⟨({ src := 16, a0 := 0, a1 := 0 }), (0), (setRoles ((rolesOf (cmdTaken ({ op := 0x30, c := ({ src := 16, a0 := 0, a1 := 0 } : MgrCmd) }) (w0 : State)).card.cs0).set (0 : Nat) roWRITING) ({ src := 16, a0 := 0, a1 := 0 } : MgrCmd).src (cmdTaken ({ op := 0x30, c := ({ src := 16, a0 := 0, a1 := 0 } : MgrCmd) }) (w0 : State))), ({ op := 0x30, c := ({ src := 16, a0 := 0, a1 := 0 } : MgrCmd) }), (w0), (cmdTaken ({ op := 0x30, c := ({ src := 16, a0 := 0, a1 := 0 } : MgrCmd) }) (w0 : State)), rfl, rfl, by decide, by decide, by decide, by decide, by decide +kernel, by decide +kernel, by decide, rfl⟩,
    ⟨({ src := 16, a0 := 0, a1 := 0 }), (2), ({ op := 0x31, c := ({ src := 16, a0 := 0, a1 := 0 } : MgrCmd) }), (wFl wFlA), (cmdTaken ({ op := 0x31, c := ({ src := 16, a0 := 0, a1 := 0 } : MgrCmd) }) (wFl wFlA : State)), rfl, rfl, by decide, by show slotOf wFlA _ = _; unfold slotOf slotRole; rw [wFlA_dir]; decide⟩,
    ⟨({ src := 16, a0 := 0, a1 := 0 }), (1), ({ op := 0x32, c := ({ src := 16, a0 := 0, a1 := 0 } : MgrCmd) }), (wFl wFlA), (cmdTaken ({ op := 0x32, c := ({ src := 16, a0 := 0, a1 := 0 } : MgrCmd) }) (wFl wFlA : State)), rfl, rfl, by decide, by show slotOf wFlA _ = _; unfold slotOf slotRole; rw [wFlA_dir]; decide⟩,
    ⟨({ src := 16, a0 := 0, a1 := 0 }), (1), ({ op := 0x33, c := ({ src := 16, a0 := 0, a1 := 0 } : MgrCmd) }), (wFl wFlB), (cmdTaken ({ op := 0x33, c := ({ src := 16, a0 := 0, a1 := 0 } : MgrCmd) }) (wFl wFlB : State)), rfl, rfl, by decide, by show slotOf wFlB _ = _; unfold slotOf slotRole; rw [wFlB_dir]; decide, by show slotOf wFlB _ = _; unfold slotOf slotRole; rw [wFlB_dir]; decide, by show slotOf wFlB _ = _; unfold slotOf slotRole; rw [wFlB_dir]; decide, (show svnFloor (wFl wFlB) ≤ 64 from Nat.le_of_lt (wFl_floor wFlB))⟩,
    ⟨({ src := 16, a0 := 0, a1 := 0 }), ({ op := 0x34, c := ({ src := 16, a0 := 0, a1 := 0 } : MgrCmd) }), (w0), (cmdTaken ({ op := 0x34, c := ({ src := 16, a0 := 0, a1 := 0 } : MgrCmd) }) (w0 : State)), rfl, rfl, by decide, by decide, by decide, by decide⟩,
    ⟨({ src := 16, a0 := 0, a1 := 0 }), (0), ({ op := 0x35, c := ({ src := 16, a0 := 0, a1 := 0 } : MgrCmd) }), (wFl wFlA), (cmdTaken ({ op := 0x35, c := ({ src := 16, a0 := 0, a1 := 0 } : MgrCmd) }) (wFl wFlA : State)), rfl, rfl, by decide, by show slotOf wFlA _ = _; unfold slotOf slotRole; rw [wFlA_dir]; decide, wFl_floor wFlA⟩,
    ⟨({ src := 16, a0 := 1, a1 := 0 }), (1), (0), ({ op := 0x36, c := { ({ src := 16, a0 := 1, a1 := 0 } : MgrCmd) with a0 := ({ src := 16, a0 := 1, a1 := 0 } : MgrCmd).a0 ||| 1 } }), (wFl wFlA), (cmdTaken ({ op := 0x36, c := { ({ src := 16, a0 := 1, a1 := 0 } : MgrCmd) with a0 := ({ src := 16, a0 := 1, a1 := 0 } : MgrCmd).a0 ||| 1 } }) (wFl wFlA : State)), rfl, rfl, by decide, by show slotOf wFlA _ = _; unfold slotOf slotRole; rw [wFlA_dir]; decide, by decide, by show slotOf wFlA _ = _; unfold slotOf slotRole; rw [wFlA_dir]; decide, by decide, by decide, by decide⟩,
    ⟨({ src := 16, a0 := 2, a1 := 0 }), (1), (0), ({ op := 0x36, c := { ({ src := 16, a0 := 2, a1 := 0 } : MgrCmd) with a0 := ({ src := 16, a0 := 2, a1 := 0 } : MgrCmd).a0 ||| 2 } }), (wFl wFlA), (cmdTaken ({ op := 0x36, c := { ({ src := 16, a0 := 2, a1 := 0 } : MgrCmd) with a0 := ({ src := 16, a0 := 2, a1 := 0 } : MgrCmd).a0 ||| 2 } }) (wFl wFlA : State)), rfl, rfl, by decide, by show slotOf wFlA _ = _; unfold slotOf slotRole; rw [wFlA_dir]; decide, by decide, by show slotOf wFlA _ = _; unfold slotOf slotRole; rw [wFlA_dir]; decide, by decide, by decide⟩,
    ⟨({ src := 16, a0 := 0, a1 := 1 }), ({ op := 0x37, c := { ({ src := 16, a0 := 0, a1 := 1 } : MgrCmd) with a0 := 1 } }), (setLinkSt 1 lL0 w0), (cmdTaken ({ op := 0x37, c := { ({ src := 16, a0 := 0, a1 := 1 } : MgrCmd) with a0 := 1 } }) (setLinkSt 1 lL0 w0 : State)), rfl, rfl, by decide, by decide, by decide⟩,
    ⟨({ src := 16, a0 := 0, a1 := 1 }), ({ op := 0x37, c := { ({ src := 16, a0 := 0, a1 := 1 } : MgrCmd) with a0 := 2 } }), (setLinkSt 1 lL0 w0), (cmdTaken ({ op := 0x37, c := { ({ src := 16, a0 := 0, a1 := 1 } : MgrCmd) with a0 := 2 } }) (setLinkSt 1 lL0 w0 : State)), rfl, rfl, by decide, by decide, by decide⟩,
    ⟨({ src := 16, a0 := 0, a1 := 0 }), ({ op := 0x37, c := { ({ src := 16, a0 := 0, a1 := 0 } : MgrCmd) with a0 := 3 } }), ({ w0 with slab := [] }), (cmdTaken ({ op := 0x37, c := { ({ src := 16, a0 := 0, a1 := 0 } : MgrCmd) with a0 := 3 } }) ({ w0 with slab := [] } : State)), rfl, rfl, by decide, by decide, by decide⟩,
    ⟨({ src := 16, a0 := 0, a1 := 1 }), ({ op := 0x37, c := { ({ src := 16, a0 := 0, a1 := 1 } : MgrCmd) with a0 := 4 } }), (setLinkSt 1 lL0 w0), (cmdTaken ({ op := 0x37, c := { ({ src := 16, a0 := 0, a1 := 1 } : MgrCmd) with a0 := 4 } }) (setLinkSt 1 lL0 w0 : State)), rfl, rfl, by decide, by decide, by decide⟩,
    ⟨({ src := 16, a0 := 0, a1 := 0 }), ({ op := 0x37, c := { ({ src := 16, a0 := 0, a1 := 0 } : MgrCmd) with a0 := 5 } }), (w0), (cmdTaken ({ op := 0x37, c := { ({ src := 16, a0 := 0, a1 := 0 } : MgrCmd) with a0 := 5 } }) (w0 : State)), rfl, rfl, by decide, by decide, by decide, by decide⟩,
    ⟨({ src := 16, a0 := 0, a1 := 1 }), ({ op := 0x37, c := { ({ src := 16, a0 := 0, a1 := 1 } : MgrCmd) with a0 := 6 } }), (setLinkSt 1 lL0 w0), (cmdTaken ({ op := 0x37, c := { ({ src := 16, a0 := 0, a1 := 1 } : MgrCmd) with a0 := 6 } }) (setLinkSt 1 lL0 w0 : State)), rfl, rfl, by decide, by decide, by decide⟩,
    ⟨({ src := 16, a0 := 0, a1 := 0 }), ({ op := 0x38, c := ({ src := 16, a0 := 0, a1 := 0 } : MgrCmd) }), (w0), (cmdTaken ({ op := 0x38, c := ({ src := 16, a0 := 0, a1 := 0 } : MgrCmd) }) (w0 : State)), rfl, rfl, by decide, by decide⟩,
    ⟨({ src := 16, a0 := 0, a1 := 0 }), ({ op := 0x39, c := ({ src := 16, a0 := 0, a1 := 0 } : MgrCmd) }), (w0), (cmdTaken ({ op := 0x39, c := ({ src := 16, a0 := 0, a1 := 0 } : MgrCmd) }) (w0 : State)), rfl, rfl, by decide, by decide, by decide, by decide⟩⟩
theorem wit_PairManagerCommandsRun :
    (∃ (c : MgrCmd) (p : Nat) (pr : Proc) (s t : State), pr = { op := 0x40, c := c } ∧ t = cmdTaken pr s ∧ CoxTakes pr s ∧ bits (arg0 pr) 0 4 < 12 ∧ p = bits (arg0 pr) 0 4 ∧ (pairSt t p = .off ∨ pairSt t p = .alone) ∧ (pairP t p).matched = true ∧ (part t p).st = .running) ∧
    (∃ (c : MgrCmd) (p : Nat) (pr : Proc) (s t : State), pr = { op := 0x41, c := c } ∧ t = cmdTaken pr s ∧ CoxTakes pr s ∧ bits (arg0 pr) 0 4 < 12 ∧ p = bits (arg0 pr) 0 4 ∧ pairSt t p = .active) ∧
    (∃ (c : MgrCmd) (p : Nat) (pr : Proc) (s t : State), pr = { op := 0x42, c := c } ∧ t = cmdTaken pr s ∧ CoxTakes pr s ∧ bits (arg0 pr) 0 4 < 12 ∧ p = bits (arg0 pr) 0 4 ∧ pairSt t p = .active) ∧
    (∃ (c : MgrCmd) (p : Nat) (pr : Proc) (s t : State), pr = { op := 0x43, c := c } ∧ t = cmdTaken pr s ∧ CoxTakes pr s ∧ bits (arg0 pr) 0 4 < 12 ∧ p = bits (arg0 pr) 0 4 ∧ pairSt t p = .shadow) ∧
    (∃ (c : MgrCmd) (p : Nat) (u : State) (pr : Proc) (s t : State), pr = { op := 0x44, c := c } ∧ t = cmdTaken pr s ∧ CoxTakes pr s ∧ bits (arg0 pr) 0 4 < 12 ∧ p = bits (arg0 pr) 0 4 ∧ pairSt t p = .held ∧ u = updPairP p (fun x => { x with close := 0, told := [], todo := [], switching := false }) (setPairSt p .alone (pairDrop p t))) ∧
    (∃ (c : MgrCmd) (p : Nat) (pr : Proc) (s t : State), pr = { op := 0x45, c := c } ∧ t = cmdTaken pr s ∧ CoxTakes pr s ∧ bits (arg0 pr) 0 4 < 12 ∧ p = bits (arg0 pr) 0 4 ∧ pairSt t p = .shadow) :=
  ⟨⟨({ src := 16, a0 := 0, a1 := 0 }), (bits (arg0 ({ op := 0x40, c := ({ src := 16, a0 := 0, a1 := 0 } : MgrCmd) })) 0 4), ({ op := 0x40, c := ({ src := 16, a0 := 0, a1 := 0 } : MgrCmd) }), ({ w0 with pairP := [(0, { prot := true, matched := true })] }), (cmdTaken ({ op := 0x40, c := ({ src := 16, a0 := 0, a1 := 0 } : MgrCmd) }) ({ w0 with pairP := [(0, { prot := true, matched := true })] } : State)), rfl, rfl, by decide, by decide, rfl, by decide, by decide, by decide⟩,
    ⟨({ src := 16, a0 := 0, a1 := 0 }), (bits (arg0 ({ op := 0x41, c := ({ src := 16, a0 := 0, a1 := 0 } : MgrCmd) })) 0 4), ({ op := 0x41, c := ({ src := 16, a0 := 0, a1 := 0 } : MgrCmd) }), ({ w0 with pairSt := [(0, .active)] }), (cmdTaken ({ op := 0x41, c := ({ src := 16, a0 := 0, a1 := 0 } : MgrCmd) }) ({ w0 with pairSt := [(0, .active)] } : State)), rfl, rfl, by decide, by decide, rfl, by decide⟩,
    ⟨({ src := 16, a0 := 0, a1 := 0 }), (bits (arg0 ({ op := 0x42, c := ({ src := 16, a0 := 0, a1 := 0 } : MgrCmd) })) 0 4), ({ op := 0x42, c := ({ src := 16, a0 := 0, a1 := 0 } : MgrCmd) }), ({ w0 with pairSt := [(0, .active)] }), (cmdTaken ({ op := 0x42, c := ({ src := 16, a0 := 0, a1 := 0 } : MgrCmd) }) ({ w0 with pairSt := [(0, .active)] } : State)), rfl, rfl, by decide, by decide, rfl, by decide⟩,
    ⟨({ src := 16, a0 := 0, a1 := 0 }), (bits (arg0 ({ op := 0x43, c := ({ src := 16, a0 := 0, a1 := 0 } : MgrCmd) })) 0 4), ({ op := 0x43, c := ({ src := 16, a0 := 0, a1 := 0 } : MgrCmd) }), ({ w0 with pairSt := [(0, .shadow)] }), (cmdTaken ({ op := 0x43, c := ({ src := 16, a0 := 0, a1 := 0 } : MgrCmd) }) ({ w0 with pairSt := [(0, .shadow)] } : State)), rfl, rfl, by decide, by decide, rfl, by decide⟩,
    ⟨({ src := 16, a0 := 0, a1 := 0 }), (bits (arg0 ({ op := 0x44, c := ({ src := 16, a0 := 0, a1 := 0 } : MgrCmd) })) 0 4), (updPairP (bits (arg0 ({ op := 0x44, c := ({ src := 16, a0 := 0, a1 := 0 } : MgrCmd) })) 0 4) (fun x => { x with close := 0, told := [], todo := [], switching := false }) (setPairSt (bits (arg0 ({ op := 0x44, c := ({ src := 16, a0 := 0, a1 := 0 } : MgrCmd) })) 0 4) .alone (pairDrop (bits (arg0 ({ op := 0x44, c := ({ src := 16, a0 := 0, a1 := 0 } : MgrCmd) })) 0 4) (cmdTaken ({ op := 0x44, c := ({ src := 16, a0 := 0, a1 := 0 } : MgrCmd) }) ({ w0 with pairSt := [(0, .held)] } : State))))), ({ op := 0x44, c := ({ src := 16, a0 := 0, a1 := 0 } : MgrCmd) }), ({ w0 with pairSt := [(0, .held)] }), (cmdTaken ({ op := 0x44, c := ({ src := 16, a0 := 0, a1 := 0 } : MgrCmd) }) ({ w0 with pairSt := [(0, .held)] } : State)), rfl, rfl, by decide, by decide, rfl, by decide, rfl⟩,
    ⟨({ src := 16, a0 := 0, a1 := 0 }), (bits (arg0 ({ op := 0x45, c := ({ src := 16, a0 := 0, a1 := 0 } : MgrCmd) })) 0 4), ({ op := 0x45, c := ({ src := 16, a0 := 0, a1 := 0 } : MgrCmd) }), ({ w0 with pairSt := [(0, .shadow)] }), (cmdTaken ({ op := 0x45, c := ({ src := 16, a0 := 0, a1 := 0 } : MgrCmd) }) ({ w0 with pairSt := [(0, .shadow)] } : State)), rfl, rfl, by decide, by decide, rfl, by decide⟩⟩
theorem wit_PartitionCommandsAct :
    (∃ (p : Nat) (s : State), Live s ∧ p < 12 ∧ (part s p).st = .running) ∧
    (∃ (p h : Nat) (s : State), Live s ∧ p < 12 ∧ h < 576 ∧ ownsDie s p (h / 48) = true ∧ (hart s h).st = .run) ∧
    (∃ (p h : Nat) (s : State), Live s ∧ p < 12 ∧ h < 576 ∧ ownsDie s p (h / 48) = true ∧ (part s p).st = .running ∧ (port s (h / 48)).fenced = false ∧ (hart s h).st = .parked) ∧
    (∃ (h : Nat) (s : State), Live s ∧ h < 576 ∧ (hart s h).st = .parking ∧ s.cox.cur = none) ∧
    (∃ (p dst : Nat) (s : State), Live s ∧ p < 12 ∧ dst < 12 ∧ fbit (genWrite (frMail p) 0x40 (dst + 256) s) (frMail p) 0x048 0 = false ∧ fld (genWrite (frMail p) 0x40 (dst + 256) s) (frMail p) 0x040 0 4 = dst) ∧
    (∃ (p : Nat) (m : Mbx) (rest : List Mbx) (t s : State), Live s ∧ p < 12 ∧ mbxOf s p = m :: rest ∧ t = (if rest.isEmpty then { s with mbx := mset s.mbx p rest } else queueMsi p (frMail p) 0x0D0 false { s with mbx := mset s.mbx p rest }) ∧ t.mbxSys.find? (fun e => e.1 = p) = none) ∧
    (∃ (p : Nat) (v : Word) (s : State), Live s ∧ p < 12) ∧
    (∃ (s : State), Live s ∧ drained s = false) ∧
    (∃ (pr : Proc) (s : State), Live s ∧ s.cox.cur = some pr ∧ pr.op = 0x06 ∧ pr.step = 1) :=
  ⟨⟨(0), (w0), by decide, by decide, by decide⟩,
    ⟨(0), (0), (wR), by decide, by decide, by decide, by decide, by decide⟩,
    ⟨(0), (0), (wH { st := .parked }), by decide, by decide, by decide, by decide, by decide, by decide, by decide⟩,
    ⟨(0), (wH { st := .parking }), by decide, by decide, by decide, by decide⟩,
    ⟨(0), (0), (w0), by decide, by decide, by decide, by decide, by decide⟩,
    ⟨(0), ({}), ([]), ((if ([] : List Mbx).isEmpty then { ({ w0 with mbx := [(0, [{}])] } : State) with mbx := mset ({ w0 with mbx := [(0, [{}])] } : State).mbx (0 : Nat) ([] : List Mbx) } else queueMsi (0 : Nat) (frMail (0 : Nat)) 0x0D0 false { ({ w0 with mbx := [(0, [{}])] } : State) with mbx := mset ({ w0 with mbx := [(0, [{}])] } : State).mbx (0 : Nat) ([] : List Mbx) })), ({ w0 with mbx := [(0, [{}])] }), by decide, by decide, by decide, rfl, by decide⟩,
    ⟨(0), (0), (w0), by decide, by decide⟩,
    ⟨({ w0 with live := [{ epoch := true }] }), by decide, by decide⟩,
    ⟨({ op := 6, step := 1 }), ({ w0 with cox := { w0.cox with cur := some { op := 6, step := 1 } } }), by decide, by decide, by decide, by decide⟩⟩
theorem wit_FaultCommandsAct :
    (∃ (frame : Nat) (s : State), Live s ∧ coxUp s = true ∧ hasErrBank (frameKind frame).1 = true ∧ fbit s frame 0x500 0 = true ∧ recClass (bankRec s frame) ≠ 0) ∧
    (∃ (s : State), Live s ∧ incOpen s = true ∧ s.flt.openAt + 10000000 < s.tb ∧ bankFrames.any (fun f => fbit s f 0x500 0) = false) ∧
    (∃ (s : State), Live s) ∧
    (∃ (p : Nat) (r : FltRec) (rest : List FltRec) (s : State), Live s ∧ p < 12 ∧ fltQueue s p = r :: rest) ∧
    (∃ (p : Nat) (v : Word) (s : State), Live s ∧ p < 12) ∧
    (∃ (v : Word) (part : Nat) (s : State), Live s ∧ (part = 15 ∨ part = 16 ∧ s.bmcMgr = true) ∧ bit v.toNat 1 = true) ∧
    (∃ (frame : Nat) (v : Word) (s : State), Live s ∧ frame < 4096 ∧ hasErrBank (frameKind frame).1 = true ∧ fbit s frFlt 8 0 = true ∧ injRefused frame v.toNat = false) ∧
    (∃ (frame line : Nat) (s : State), Live s ∧ ((frameKind frame).1 = 0x10 ∨ (frameKind frame).1 = 0x31 ∨ (frameKind frame).1 = 0x07 ∨ (frameKind frame).1 = 0x04)) ∧
    (∃ (frame off : Nat) (v : Word) (part : Nat) (s : State), Live s ∧ part = 15 ∧ frame < 4096 ∧ off < 65536 ∧ off % 8 = 0 ∧ ((frameKind frame).1 ≠ 0x40 ∧ (frameKind frame).1 ≠ 0x41)) :=
  ⟨⟨(frHa 0), (setReg (frHa 0) 0x500 3 w0), by decide, by decide, by decide, by decide, by decide⟩,
    ⟨(setBit frFlt 0x028 28 { w0 with tb := 10000001 }), by decide, by decide, by decide, by decide⟩,
    ⟨(w0), by decide⟩,
    ⟨(0), ({}), ([]), ({ w0 with flt := { w0.flt with queue := [(0, [{}])] } }), by decide, by decide, by decide⟩,
    ⟨(0), (0), (w0), by decide, by decide⟩,
    ⟨(2), (15), (w0), by decide, by decide, by decide⟩,
    ⟨(frHa 0), (0), (setBit frFlt 8 0 w0), by decide, by decide, by decide, by decide, by decide⟩,
    ⟨(frHa 0), (0), (w0), by decide, by decide⟩,
    ⟨(0), (0), (0), (15), (w0), by decide, rfl, by decide, by decide, by decide, by decide⟩⟩
theorem wit_PortRequestsAct :
    (∃ (q : Tlp) (pa : Nat) (v w s : State), Live s ∧ q.rp < 12 ∧ w = k3Wake s ∧ rpGate w q.rp q.link (inProxy q.addr) = some none ∧ tlpXl w q = some pa ∧ rpAllMain q.rp (rpPart w q.rp) pa q.data.length w = (true, v) ∧ q.data.length ≠ 0 ∧ q.poison = false) ∧
    (∃ (q : Tlp) (pa h j : Nat) (v w s : State), Live s ∧ q.rp < 12 ∧ w = k3Wake s ∧ rpGate w q.rp q.link (inProxy q.addr) = some none ∧ tlpXl w q = some pa ∧ rpAllMain q.rp (rpPart w q.rp) pa q.data.length w = (false, v) ∧ q.data.length = 4 ∧ imOf pa = some (h, j) ∧ pa % 4 = 0 ∧ hartPart w h = rpPart w q.rp) ∧
    (∃ (q : Tlp) (pa : Nat) (v w s : State), Live s ∧ q.rp < 12 ∧ w = k3Wake s ∧ rpGate w q.rp q.link (inProxy q.addr) = some none ∧ npRoom w q.rp = true ∧ q.len ≠ 0 ∧ tlpXl w q = some pa ∧ rpAllMain q.rp (rpPart w q.rp) pa q.len w = (true, v) ∧ q.len ≤ 4096) ∧
    (∃ (q : Tlp) (w s : State), Live s ∧ q.rp < 12 ∧ w = k3Wake s ∧ rpGate w q.rp q.link (inProxy q.addr) = some none ∧ npRoom w q.rp = true) ∧
    (∃ (q : Tlp) (op : AtomOp) (opnd cmp : BitVec 128) (pa : Nat) (v w s : State), Live s ∧ q.rp < 12 ∧ w = k3Wake s ∧ rpGate w q.rp q.link (inProxy q.addr) = some none ∧ npRoom w q.rp = true ∧ tlpXl w q = some pa ∧ rpMain q.rp (rpPart w q.rp) pa w = (true, v) ∧ (q.len = 4 ∨ q.len = 8 ∨ op = .cas ∧ q.len = 16) ∧ pa % q.len = 0) ∧
    (∃ (rp pa : Nat) (v w s : State), Live s ∧ rp < 12 ∧ w = k3Wake s ∧ (rpLink (Machine.rp w rp) 0).cxl = true ∧ rpGate w rp 0 false = some none ∧ rpMain rp (rpPart w rp) pa w = (true, v)) ∧
    (∃ (rp pa : Nat) (v w s : State), Live s ∧ rp < 12 ∧ w = k3Wake s ∧ (rpLink (Machine.rp w rp) 0).cxl = true ∧ rpGate w rp 0 false = some none ∧ rpMain rp (rpPart w rp) pa w = (true, v)) ∧
    (∃ (rp pa : Nat) (v w s : State), Live s ∧ rp < 12 ∧ w = k3Wake s ∧ (rpLink (Machine.rp w rp) 0).cxl = true ∧ rpGate w rp 0 false = some none ∧ rpMain rp (rpPart w rp) pa w = (true, v)) ∧
    (∃ (rp pa : Nat) (v w s : State), Live s ∧ rp < 12 ∧ w = k3Wake s ∧ (rpLink (Machine.rp w rp) 0).cxl = true ∧ rpGate w rp 0 false = some none ∧ rpMain rp (rpPart w rp) pa w = (true, v)) ∧
    (∃ (rp pa : Nat) (x : Line) (poison : Bool) (v w s : State), Live s ∧ rp < 12 ∧ w = k3Wake s ∧ (rpLink (Machine.rp w rp) 0).cxl = true ∧ rpGate w rp 0 false = some none ∧ rpMain rp (rpPart w rp) pa w = (true, v)) ∧
    (∃ (rp pa : Nat) (x : Line) (poison : Bool) (v w s : State), Live s ∧ rp < 12 ∧ w = k3Wake s ∧ (rpLink (Machine.rp w rp) 0).cxl = true ∧ rpGate w rp 0 false = some none ∧ rpMain rp (rpPart w rp) pa w = (true, v)) ∧
    (∃ (rp pa : Nat) (v w s : State), Live s ∧ rp < 12 ∧ w = k3Wake s ∧ (rpLink (Machine.rp w rp) 0).cxl = true ∧ rpGate w rp 0 false = some none ∧ rpMain rp (rpPart w rp) pa w = (true, v)) ∧
    (∃ (rp rid iova : Nat) (xl : Option Nat) (w s : State), Live s ∧ rp < 12 ∧ w = k3Wake s ∧ rpGate w rp 0 false = some none ∧ 2 ≤ ioMode w rp) ∧
    (∃ (rp rid iova grp : Nat) (w s : State), Live s ∧ rp < 12 ∧ w = k3Wake s ∧ rpGate w rp 0 false = some none) :=
  ⟨⟨({ data := [0] }), (0), ({ w0 with rps := [(0, { links := [{ dlup := true, cxl := true }], iommu := [(0x10, 1)] })] }), (k3Wake ({ w0 with rps := [(0, { links := [{ dlup := true, cxl := true }], iommu := [(0x10, 1)] })] } : State)), ({ w0 with rps := [(0, { links := [{ dlup := true, cxl := true }], iommu := [(0x10, 1)] })] }), by decide, by decide, rfl, by decide, by decide, by decide, by decide, by decide⟩,
    ⟨({ data := [0, 0, 0, 0], addr := (drsBase + 0x800 * 65536) }), ((drsBase + 0x800 * 65536)), (0), (0), ({ w0 with rps := [(0, { links := [{ dlup := true, cxl := true }], iommu := [(0x10, 1)] })] }), (k3Wake ({ w0 with rps := [(0, { links := [{ dlup := true, cxl := true }], iommu := [(0x10, 1)] })] } : State)), ({ w0 with rps := [(0, { links := [{ dlup := true, cxl := true }], iommu := [(0x10, 1)] })] }), by decide, by decide, rfl, by decide, by decide, by decide, by decide, by decide, by decide, by decide⟩,
    ⟨({ len := 8 }), (0), ({ w0 with rps := [(0, { links := [{ dlup := true, cxl := true }], iommu := [(0x10, 1)] })] }), (k3Wake ({ w0 with rps := [(0, { links := [{ dlup := true, cxl := true }], iommu := [(0x10, 1)] })] } : State)), ({ w0 with rps := [(0, { links := [{ dlup := true, cxl := true }], iommu := [(0x10, 1)] })] }), by decide, by decide, rfl, by decide, by decide, by decide, by decide, by decide, by decide⟩,
    ⟨({}), (k3Wake ({ w0 with rps := [(0, { links := [{ dlup := true, cxl := true }], iommu := [(0x10, 1)] })] } : State)), ({ w0 with rps := [(0, { links := [{ dlup := true, cxl := true }], iommu := [(0x10, 1)] })] }), by decide, by decide, rfl, by decide, by decide⟩,
    ⟨({ len := 8 }), (.swap), (0), (0), (0), ({ w0 with rps := [(0, { links := [{ dlup := true, cxl := true }], iommu := [(0x10, 1)] })] }), (k3Wake ({ w0 with rps := [(0, { links := [{ dlup := true, cxl := true }], iommu := [(0x10, 1)] })] } : State)), ({ w0 with rps := [(0, { links := [{ dlup := true, cxl := true }], iommu := [(0x10, 1)] })] }), by decide, by decide, rfl, by decide, by decide, by decide, by decide, by decide, by decide⟩,
    ⟨(0), (0), ({ w0 with rps := [(0, { links := [{ dlup := true, cxl := true }], iommu := [(0x10, 1)] })] }), (k3Wake ({ w0 with rps := [(0, { links := [{ dlup := true, cxl := true }], iommu := [(0x10, 1)] })] } : State)), ({ w0 with rps := [(0, { links := [{ dlup := true, cxl := true }], iommu := [(0x10, 1)] })] }), by decide, by decide, rfl, by decide, by decide, by decide⟩,
    ⟨(0), (0), ({ w0 with rps := [(0, { links := [{ dlup := true, cxl := true }], iommu := [(0x10, 1)] })] }), (k3Wake ({ w0 with rps := [(0, { links := [{ dlup := true, cxl := true }], iommu := [(0x10, 1)] })] } : State)), ({ w0 with rps := [(0, { links := [{ dlup := true, cxl := true }], iommu := [(0x10, 1)] })] }), by decide, by decide, rfl, by decide, by decide, by decide⟩,
    ⟨(0), (0), ({ w0 with rps := [(0, { links := [{ dlup := true, cxl := true }], iommu := [(0x10, 1)] })] }), (k3Wake ({ w0 with rps := [(0, { links := [{ dlup := true, cxl := true }], iommu := [(0x10, 1)] })] } : State)), ({ w0 with rps := [(0, { links := [{ dlup := true, cxl := true }], iommu := [(0x10, 1)] })] }), by decide, by decide, rfl, by decide, by decide, by decide⟩,
    ⟨(0), (0), ({ w0 with rps := [(0, { links := [{ dlup := true, cxl := true }], iommu := [(0x10, 1)] })] }), (k3Wake ({ w0 with rps := [(0, { links := [{ dlup := true, cxl := true }], iommu := [(0x10, 1)] })] } : State)), ({ w0 with rps := [(0, { links := [{ dlup := true, cxl := true }], iommu := [(0x10, 1)] })] }), by decide, by decide, rfl, by decide, by decide, by decide⟩,
    ⟨(0), (0), (0), (false), ({ w0 with rps := [(0, { links := [{ dlup := true, cxl := true }], iommu := [(0x10, 1)] })] }), (k3Wake ({ w0 with rps := [(0, { links := [{ dlup := true, cxl := true }], iommu := [(0x10, 1)] })] } : State)), ({ w0 with rps := [(0, { links := [{ dlup := true, cxl := true }], iommu := [(0x10, 1)] })] }), by decide, by decide, rfl, by decide, by decide, by decide⟩,
    ⟨(0), (0), (0), (false), ({ w0 with rps := [(0, { links := [{ dlup := true, cxl := true }], iommu := [(0x10, 1)] })] }), (k3Wake ({ w0 with rps := [(0, { links := [{ dlup := true, cxl := true }], iommu := [(0x10, 1)] })] } : State)), ({ w0 with rps := [(0, { links := [{ dlup := true, cxl := true }], iommu := [(0x10, 1)] })] }), by decide, by decide, rfl, by decide, by decide, by decide⟩,
    ⟨(0), (0), ({ w0 with rps := [(0, { links := [{ dlup := true, cxl := true }], iommu := [(0x10, 1)] })] }), (k3Wake ({ w0 with rps := [(0, { links := [{ dlup := true, cxl := true }], iommu := [(0x10, 1)] })] } : State)), ({ w0 with rps := [(0, { links := [{ dlup := true, cxl := true }], iommu := [(0x10, 1)] })] }), by decide, by decide, rfl, by decide, by decide, by decide⟩,
    ⟨(0), (0), (0), (none), (k3Wake ({ w0 with rps := [(0, { links := [{ dlup := true, cxl := true }], iommu := [(0x10, 2)] })] } : State)), ({ w0 with rps := [(0, { links := [{ dlup := true, cxl := true }], iommu := [(0x10, 2)] })] }), by decide, by decide, rfl, by decide, by decide⟩,
    ⟨(0), (0), (0), (0), (k3Wake ({ w0 with rps := [(0, { links := [{ dlup := true, cxl := true }], iommu := [(0x10, 1)] })] } : State)), ({ w0 with rps := [(0, { links := [{ dlup := true, cxl := true }], iommu := [(0x10, 1)] })] }), by decide, by decide, rfl, by decide⟩⟩
theorem wit_PortAnswersAndLinksAct :
    (∃ (rp tag : Nat) (ok : Bool) (x : Word) (o : OutReq) (w s : State), Live s ∧ rp < 12 ∧ w = k3Wake s ∧ (Machine.rp w rp).out.find? (fun o => o.tag = tag) = some o) ∧
    (∃ (rp tag : Nat) (o : OutReq) (w s : State), Live s ∧ rp < 12 ∧ w = k3Wake s ∧ (Machine.rp w rp).out.find? (fun o => o.tag = tag) = some o) ∧
    (∃ (rp pa : Nat) (dirty : Bool) (v : Line) (poison : Bool) (w s : State), Live s ∧ rp < 12 ∧ w = k3Wake s ∧ ((Machine.rp w rp).csnp.any (fun f => lineOf f.addr = lineOf pa) = true ∨ (Machine.rp w rp).recl.contains (lineOf pa) = true)) ∧
    (∃ (rp pa : Nat) (f : Flit) (w s : State), Live s ∧ rp < 12 ∧ w = k3Wake s ∧ (Machine.rp w rp).csnp.find? (fun f => lineOf f.addr = lineOf pa) = some f) ∧
    (∃ (rp pa : Nat) (v : Line) (poison : Bool) (q : MemReq) (w s : State), Live s ∧ rp < 12 ∧ w = k3Wake s ∧ cxlPort w pa = some rp ∧ memFirst w pa (fun q => q.wr) = some q ∧ ((rpLink (Machine.rp w rp) 0).dpc = false ∧ (rpLink (Machine.rp w rp) 0).dlup = true ∧ hdmCovers w rp pa = true) ∧ q.wr = true) ∧
    (∃ (rp pa : Nat) (v : Line) (q : MemReq) (w s : State), Live s ∧ rp < 12 ∧ w = k3Wake s ∧ cxlPort w pa = some rp ∧ memFirst w pa (fun q => !q.wr) = some q ∧ ((rpLink (Machine.rp w rp) 0).dpc = false ∧ (rpLink (Machine.rp w rp) 0).dlup = true ∧ hdmCovers w rp pa = true) ∧ q.wr = false) ∧
    (∃ (rp pa : Nat) (q : MemReq) (w s : State), Live s ∧ rp < 12 ∧ w = k3Wake s ∧ cxlPort w pa = some rp ∧ memFirst w pa (fun _ => true) = some q ∧ q.wr = false) ∧
    (∃ (rp link : Nat) (w s : State), Live s ∧ rp < 12 ∧ w = k3Wake s ∧ (rpLink (Machine.rp w rp) link).dlup = true) ∧
    (∃ (rp link speed width : Nat) (cxl : Bool) (w s : State), Live s ∧ rp < 12 ∧ w = k3Wake s ∧ linkLanes w rp link ≠ 0 ∧ speed ≠ 0 ∧ width ≠ 0) ∧
    (∃ (rp link : Nat) (v : Word) (w s : State), Live s ∧ rp < 12 ∧ w = k3Wake s ∧ linkLanes w rp link ≠ 0 ∧ rpPair w rp = false) ∧
    (∃ (rp link : Nat) (w s : State), Live s ∧ rp < 12 ∧ w = k3Wake s ∧ linkLanes w rp link ≠ 0 ∧ bit (rpLink (Machine.rp w rp) link).pins 0 = false) :=
  ⟨⟨(0), (0), (false), (0), ({}), (k3Wake ({ w0 with rps := [(0, { out := [{}] })] } : State)), ({ w0 with rps := [(0, { out := [{}] })] }), by decide, by decide, rfl, by decide⟩,
    ⟨(0), (0), ({}), (k3Wake ({ w0 with rps := [(0, { out := [{}] })] } : State)), ({ w0 with rps := [(0, { out := [{}] })] }), by decide, by decide, rfl, by decide⟩,
    ⟨(0), (0), (false), (0), (false), (k3Wake ({ w0 with rps := [(0, { csnp := [{}] })] } : State)), ({ w0 with rps := [(0, { csnp := [{}] })] }), by decide, by decide, rfl, by decide⟩,
    ⟨(0), (0), ({}), (k3Wake ({ w0 with rps := [(0, { csnp := [{}] })] } : State)), ({ w0 with rps := [(0, { csnp := [{}] })] }), by decide, by decide, rfl, by decide⟩,
    ⟨(0), (0), (0), (false), ({ wr := true }), (k3Wake ((setFld (frRp 0) 0x208 0 14 1 { w0 with memq := [{ wr := true }], slab := [(0, 2 + 128)], rps := [(0, { links := [{ dlup := true, cxl := true }] })] }) : State)), ((setFld (frRp 0) 0x208 0 14 1 { w0 with memq := [{ wr := true }], slab := [(0, 2 + 128)], rps := [(0, { links := [{ dlup := true, cxl := true }] })] })), by decide, by decide, rfl, by decide, by decide, by decide, by decide⟩,
    ⟨(0), (0), (0), ({}), (k3Wake ((setFld (frRp 0) 0x208 0 14 1 { w0 with memq := [{}], slab := [(0, 2 + 128)], rps := [(0, { links := [{ dlup := true, cxl := true }] })] }) : State)), ((setFld (frRp 0) 0x208 0 14 1 { w0 with memq := [{}], slab := [(0, 2 + 128)], rps := [(0, { links := [{ dlup := true, cxl := true }] })] })), by decide, by decide, rfl, by decide, by decide, by decide, by decide⟩,
    ⟨(0), (0), ({}), (k3Wake ((setFld (frRp 0) 0x208 0 14 1 { w0 with memq := [{}], slab := [(0, 2 + 128)], rps := [(0, { links := [{ dlup := true, cxl := true }] })] }) : State)), ((setFld (frRp 0) 0x208 0 14 1 { w0 with memq := [{}], slab := [(0, 2 + 128)], rps := [(0, { links := [{ dlup := true, cxl := true }] })] })), by decide, by decide, rfl, by decide, by decide, by decide⟩,
    ⟨(0), (0), (k3Wake ({ w0 with rps := [(0, { links := [{ dlup := true, cxl := true }], iommu := [(0x10, 1)] })] } : State)), ({ w0 with rps := [(0, { links := [{ dlup := true, cxl := true }], iommu := [(0x10, 1)] })] }), by decide, by decide, rfl, by decide⟩,
    ⟨(0), (0), (1), (1), (false), (k3Wake (w0 : State)), (w0), by decide, by decide, rfl, by decide, by decide, by decide⟩,
    ⟨(0), (0), (0), (k3Wake (w0 : State)), (w0), by decide, by decide, rfl, by decide, by decide⟩,
    ⟨(0), (0), (k3Wake (w0 : State)), (w0), by decide, by decide, rfl, by decide, by decide⟩⟩
theorem wit_InterruptAndPortPinsAct :
    (∃ (h file sel : Nat) (wr : Bool) (v : Word) (s : State), Live s ∧ running s h = true ∧ file < 9) ∧
    (∃ (p src : Nat) (level : Bool) (a a1 : Aplic) (d : Bool) (s : State), Live s ∧ p < 12 ∧ src < 256 ∧ aplSrcOwned s p src = true ∧ a = aplic s p ∧ d = aplDelegated a src ∧ a1 = { a with wire := putBit a.wire src level } ∧ aplInput a1 d src = true ∧ aplInput a d src = false) ∧
    (∃ (pin : Nat) (level : Bool) (w s : State), Live s ∧ pin < 32 ∧ w = k3Wake s ∧ 12 ≤ bits w.gpioOwn (4 * pin) 4) ∧
    (∃ (pin p : Nat) (level : Bool) (w s : State), Live s ∧ pin < 32 ∧ w = k3Wake s ∧ p = bits w.gpioOwn (4 * pin) 4 ∧ p < 12) ∧
    (∃ (off : Nat) (v : Word) (s : State), Live s ∧ off % 8 = 0 ∧ off < 0x100000) ∧
    (∃ (off : Nat) (v : Word) (s : State), Live s ∧ off % 8 = 0 ∧ off < 0x100000) ∧
    (∃ (hart : Nat) (s : State), Live s) :=
  ⟨⟨(0), (0), (0), (false), (0), (wR), by decide, by decide, by decide⟩,
    ⟨(0), (5), (true), (aplic ({ w0 with aplic := [(0, { m := { cfg := [(5, 4)] } })] } : State) (0 : Nat)), ({ (aplic ({ w0 with aplic := [(0, { m := { cfg := [(5, 4)] } })] } : State) (0 : Nat)) with wire := putBit (aplic ({ w0 with aplic := [(0, { m := { cfg := [(5, 4)] } })] } : State) (0 : Nat)).wire (5 : Nat) (true : Bool) }), (false), ({ w0 with aplic := [(0, { m := { cfg := [(5, 4)] } })] }), by decide, by decide, by decide, by decide, rfl, rfl, rfl, by decide, by decide⟩,
    ⟨(0), (false), (k3Wake (w0 : State)), (w0), by decide, by decide, rfl, by decide⟩,
    ⟨(0), (0), (false), (k3Wake ({ w0 with gpioOwn := 0 } : State)), ({ w0 with gpioOwn := 0 }), by decide, by decide, rfl, rfl, by decide⟩,
    ⟨(0), (0), (w0), by decide, by decide, by decide⟩,
    ⟨(0), (0), (w0), by decide, by decide, by decide⟩,
    ⟨(0), (w0), by decide⟩⟩
theorem wit_ControllerCommandsAct :
    (∃ (part v y n : Nat) (q : Sq) (s : State), Live s ∧ vfIs s v = true ∧ (vf s v).owner = part ∧ mfind (vf s v).sqs y = some q ∧ n < q.size) ∧
    (∃ (part v y n : Nat) (q : Cq) (s : State), Live s ∧ vfIs s v = true ∧ (vf s v).owner = part ∧ mfind (vf s v).cqs y = some q ∧ n < q.size) ∧
    (∃ (part v : Nat) (cc : BitVec 32) (acq : Option Nat) (s : State), Live s ∧ vfIs s v = true ∧ (vf s v).owner = part ∧ bit (vf s v).cc 0 = false ∧ (vf s v).resetting = false ∧ ccBad cc.toNat = false) ∧
    (∃ (part v : Nat) (s : State), Live s ∧ vfIs s v = true ∧ (vf s v).owner = part ∧ bit (vf s v).cc 0 = true) ∧
    (∃ (v q : Nat) (e : Sqe) (s : State), Live s ∧ nextVf s = some v ∧ nextQueue s v = some q ∧ ioMode s (32 + (vf s v).owner) ≠ 0) ∧
    (∃ (v : Nat) (s : State), Live s ∧ vfIs s v = true) ∧
    (∃ (v : Nat) (s : State), Live s ∧ vfIs s v = true ∧ (vf s v).ps1Entry = true) ∧
    (∃ (v : Nat) (s : State), Live s) ∧
    (∃ (r rid page off : Nat) (data : List (BitVec 8)) (s : State), Live s ∧ bhPort s r = true ∧ mfind s.bh.binds page = none) ∧
    (∃ (r rid page off key : Nat) (data : List (BitVec 8)) (b : Bind) (s : State), Live s ∧ bhPort s r = true ∧ mfind s.bh.binds page = some b ∧ (b.rp = r ∧ b.rid = rid ∧ b.wr = true) ∧ off + data.length ≤ 4096 ∧ b.dest = .map key) ∧
    (∃ (drv : Nat) (dv : Drive) (s : State), Live s ∧ mfind s.drives drv = some dv ∧ dv.lost = false) ∧
    (∃ (p : Nat) (maps : List (Nat × Nat × List (BitVec 8))) (s : State), Live s) ∧
    (∃ (s : State), Live s ∧ fwAt s 1 = true) ∧
    (∃ (v : Nat) (pr : Proc) (s : State), Live s ∧ s.cox.cur = some pr ∧ pr.op = 0x2B ∧ pr.step = 1 ∧ pr.n = v) :=
  ⟨⟨(0), (0), (0), (0), ({ size := 2 }), ({ w0 with bh := { w0.bh with vfs := [(0, { owner := 0, sqs := [(0, { size := 2 })] })] } }), by decide, by decide, by decide, by decide, by decide⟩,
    ⟨(0), (0), (0), (0), ({ size := 2 }), ({ w0 with bh := { w0.bh with vfs := [(0, { owner := 0, cqs := [(0, { size := 2 })] })] } }), by decide, by decide, by decide, by decide, by decide⟩,
    ⟨(0), (0), (0x460001), (none), ({ w0 with bh := { w0.bh with vfs := [(0, { owner := 0 })] } }), by decide, by decide, by decide, by decide, by decide, by decide⟩,
    ⟨(0), (0), ({ w0 with bh := { w0.bh with vfs := [(0, { owner := 0, cc := 1 })] } }), by decide, by decide, by decide, by decide⟩,
    ⟨(0), (0), ({}), ({ w0 with rps := [(32, { iommu := [(0x10, 1)] })], bh := { w0.bh with ready := true, vfs := [(0, { owner := 0, rdy := true, cc := 1, cfg := [(0x04, 4)], sqs := [(0, { size := 2, tail := 1 })], cqs := [(0, { size := 2 })] })] } }), by decide, by decide, by decide, by decide⟩,
    ⟨(0), ({ w0 with bh := { w0.bh with vfs := [(0, { owner := 0 })] } }), by decide, by decide⟩,
    ⟨(0), ({ w0 with bh := { w0.bh with vfs := [(0, { owner := 0, ps1Entry := true })] } }), by decide, by decide, by decide⟩,
    ⟨(0), (w0), by decide⟩,
    ⟨(1), (0), (0), (0), ([]), ({ w0 with drives := [(0, { rp := 1, blocks := 4096 })] }), by decide, by decide, by decide⟩,
    ⟨(1), (0), (0), (0), (0), ([]), ({ rp := 1, wr := true, dest := .map 0 }), ({ w0 with bh := { w0.bh with binds := [(0, { rp := 1, wr := true, dest := .map 0 })] }, drives := [(0, { rp := 1, blocks := 4096 })] }), by decide, by decide, by decide, by decide, by decide, by decide⟩,
    ⟨(0), ({ rp := 1, blocks := 4096 }), ({ w0 with drives := [(0, { rp := 1, blocks := 4096 })] }), by decide, by decide, by decide⟩,
    ⟨(0), ([]), (w0), by decide⟩,
    ⟨({ w0 with cox := { w0.cox with cur := some { op := 0x36, step := 1 } } }), by decide, by decide⟩,
    ⟨(0), ({ op := 0x2B, step := 1 }), ({ w0 with cox := { w0.cox with cur := some { op := 0x2B, step := 1 } } }), by decide, by decide, by decide, by decide, by decide⟩⟩
theorem wit_AdminCommandsRun :
    (∃ (v q : Nat) (x : Slot) (s : State), Live s ∧ admin s v 0x00 = some x ∧ q = x.e.cdw10 % 65536 ∧ q ≠ 0 ∧ q ≤ (vf s v).nqp ∧ (mfind (vf s v).sqs q).isNone = false) ∧
    (∃ (v q cq : Nat) (x : Slot) (s : State), Live s ∧ admin s v 0x01 = some x ∧ q = x.e.cdw10 % 65536 ∧ cq = x.e.cdw11 / 65536 % 65536 ∧ q ≠ 0 ∧ q ≤ (vf s v).nqp ∧ (mfind (vf s v).sqs q).isSome = false ∧ cq ≠ 0 ∧ (mfind (vf s v).cqs cq).isNone = false ∧ (vf s v).sqs.any (fun e => e.1 ≠ 0 && decide (e.2.cq = cq)) = false ∧ x.e.cdw10 / 65536 % 65536 + 1 ≤ 1024 ∧ 2 ≤ x.e.cdw10 / 65536 % 65536 + 1 ∧ bit x.e.cdw11 0 = true ∧ x.e.prp1 % 4096 = 0) ∧
    (∃ (v q : Nat) (x : Slot) (s : State), Live s ∧ admin s v 0x04 = some x ∧ q = x.e.cdw10 % 65536 ∧ q ≠ 0 ∧ q ≤ (vf s v).nqp ∧ (mfind (vf s v).cqs q).isNone = false ∧ (vf s v).sqs.any (fun e => e.1 ≠ 0 && decide (e.2.cq = q)) = false) ∧
    (∃ (v q : Nat) (x : Slot) (s : State), Live s ∧ admin s v 0x05 = some x ∧ q = x.e.cdw10 % 65536 ∧ q ≠ 0 ∧ q ≤ (vf s v).nqp ∧ (mfind (vf s v).cqs q).isSome = false ∧ x.e.cdw10 / 65536 % 65536 + 1 ≤ 1024 ∧ 2 ≤ x.e.cdw10 / 65536 % 65536 + 1 ∧ bit x.e.cdw11 0 = true ∧ x.e.cdw11 / 65536 % 65536 ≤ 127 ∧ x.e.prp1 % 4096 = 0) ∧
    (∃ (v : Nat) (x : Slot) (s : State), Live s ∧ admin s v 0x02 = some x ∧ 4 * (x.e.cdw10 / 65536 % 65536 + x.e.cdw11 % 65536 * 65536 + 1) ≤ 2 ^ 21 ∧ x.e.cdw12 % 2 ^ 32 % 4 = 0 ∧ x.e.cdw10 % 256 = 1) ∧
    (∃ (v : Nat) (x : Slot) (s : State), Live s ∧ admin s v 0x06 = some x ∧ x.e.cdw10 % 256 = 0 ∧ x.e.nsid ≠ 0 ∧ x.e.nsid ≤ 2048 ∧ (vf s v).ns.contains x.e.nsid = true) ∧
    (∃ (v : Nat) (x : Slot) (q : Nat × State) (s : State), Live s ∧ admin s v 0x06 = some x ∧ x.e.cdw10 % 256 = 1 ∧ q = drawNat s) ∧
    (∃ (v : Nat) (x y : Slot) (s : State), Live s ∧ admin s v 0x08 = some x ∧ s.bh.slots.find? (fun y => decide (y.vf = v) && decide (y.q = x.e.cdw10 % 65536) && decide (y.e.cid = x.e.cdw10 / 65536 % 65536) && !y.started && !y.drop && y.ph ≠ .post) = some y) ∧
    (∃ (v : Nat) (x : Slot) (s : State), Live s ∧ admin s v 0x09 = some x ∧ bit x.e.cdw10 31 = false ∧ x.e.cdw10 % 256 = 1) ∧
    (∃ (v : Nat) (x : Slot) (s : State), Live s ∧ admin s v 0x0A = some x ∧ [0x01, 0x02, 0x07, 0x08, 0x0B].contains (x.e.cdw10 % 256) = true ∧ x.e.cdw10 / 256 % 8 = 0) ∧
    (∃ (v c : Nat) (l : List Nat) (s : State), Live s ∧ (vf s v).aerIn = c :: l ∧ (vf s v).aers.length < 4 ∧ (vf s v).events = []) :=
  ⟨⟨(0), (({ n := admSlot 0, e := { op := 0x00, cdw10 := 1 }, started := true } : Slot).e.cdw10 % 65536), ({ n := admSlot 0, e := { op := 0x00, cdw10 := 1 }, started := true }), ({ w0 with bh := { w0.bh with vfs := [(0, { owner := 0, nqp := 4, sqs := [(1, { size := 2 })] })], slots := [{ n := admSlot 0, e := { op := 0x00, cdw10 := 1 }, started := true }] } }), by decide, by decide, rfl, by decide, by decide, by decide⟩,
    ⟨(0), (({ n := admSlot 0, e := { op := 0x01, cdw10 := 65536 + 1, cdw11 := 65536 + 1 }, started := true } : Slot).e.cdw10 % 65536), (({ n := admSlot 0, e := { op := 0x01, cdw10 := 65536 + 1, cdw11 := 65536 + 1 }, started := true } : Slot).e.cdw11 / 65536 % 65536), ({ n := admSlot 0, e := { op := 0x01, cdw10 := 65536 + 1, cdw11 := 65536 + 1 }, started := true }), ({ w0 with bh := { w0.bh with vfs := [(0, { owner := 0, nqp := 4, cqs := [(1, { size := 2 })] })], slots := [{ n := admSlot 0, e := { op := 0x01, cdw10 := 65536 + 1, cdw11 := 65536 + 1 }, started := true }] } }), by decide, by decide, rfl, rfl, by decide, by decide, by decide, by decide, by decide, by decide, by decide, by decide, by decide, by decide⟩,
    ⟨(0), (({ n := admSlot 0, e := { op := 0x04, cdw10 := 1 }, started := true } : Slot).e.cdw10 % 65536), ({ n := admSlot 0, e := { op := 0x04, cdw10 := 1 }, started := true }), ({ w0 with bh := { w0.bh with vfs := [(0, { owner := 0, nqp := 4, cqs := [(1, { size := 2 })] })], slots := [{ n := admSlot 0, e := { op := 0x04, cdw10 := 1 }, started := true }] } }), by decide, by decide, rfl, by decide, by decide, by decide, by decide⟩,
    ⟨(0), (({ n := admSlot 0, e := { op := 0x05, cdw10 := 65536 + 1, cdw11 := 1 }, started := true } : Slot).e.cdw10 % 65536), ({ n := admSlot 0, e := { op := 0x05, cdw10 := 65536 + 1, cdw11 := 1 }, started := true }), ({ w0 with bh := { w0.bh with vfs := [(0, { owner := 0, nqp := 4 })], slots := [{ n := admSlot 0, e := { op := 0x05, cdw10 := 65536 + 1, cdw11 := 1 }, started := true }] } }), by decide, by decide, rfl, by decide, by decide, by decide, by decide, by decide, by decide, by decide, by decide⟩,
    ⟨(0), ({ n := admSlot 0, e := { op := 0x02, cdw10 := 1 }, started := true }), ({ w0 with bh := { w0.bh with vfs := [(0, { owner := 0, nqp := 4 })], slots := [{ n := admSlot 0, e := { op := 0x02, cdw10 := 1 }, started := true }] } }), by decide, by decide, by decide, by decide, by decide⟩,
    ⟨(0), ({ n := admSlot 0, e := { op := 0x06, nsid := 1 }, started := true }), ({ w0 with bh := { w0.bh with vfs := [(0, { owner := 0, nqp := 4, ns := [1] })], slots := [{ n := admSlot 0, e := { op := 0x06, nsid := 1 }, started := true }] } }), by decide, by decide, by decide, by decide, by decide, by decide⟩,
    ⟨(0), ({ n := admSlot 0, e := { op := 0x06, cdw10 := 1 }, started := true }), (drawNat ({ w0 with bh := { w0.bh with vfs := [(0, { owner := 0, nqp := 4 })], slots := [{ n := admSlot 0, e := { op := 0x06, cdw10 := 1 }, started := true }] } } : State)), ({ w0 with bh := { w0.bh with vfs := [(0, { owner := 0, nqp := 4 })], slots := [{ n := admSlot 0, e := { op := 0x06, cdw10 := 1 }, started := true }] } }), by decide, by decide, by decide, rfl⟩,
    ⟨(0), ({ n := admSlot 0, e := { op := 0x08, cdw10 := 65536 + 1 }, started := true }), ({ q := 1, e := { cid := 1 } }), ({ w0 with bh := { w0.bh with vfs := [(0, { owner := 0, nqp := 4 })], slots := [{ n := admSlot 0, e := { op := 0x08, cdw10 := 65536 + 1 }, started := true }, { q := 1, e := { cid := 1 } }] } }), by decide, by decide, by decide⟩,
    ⟨(0), ({ n := admSlot 0, e := { op := 0x09, cdw10 := 1 }, started := true }), ({ w0 with bh := { w0.bh with vfs := [(0, { owner := 0, nqp := 4 })], slots := [{ n := admSlot 0, e := { op := 0x09, cdw10 := 1 }, started := true }] } }), by decide, by decide, by decide, by decide⟩,
    ⟨(0), ({ n := admSlot 0, e := { op := 0x0A, cdw10 := 1 }, started := true }), ({ w0 with bh := { w0.bh with vfs := [(0, { owner := 0, nqp := 4 })], slots := [{ n := admSlot 0, e := { op := 0x0A, cdw10 := 1 }, started := true }] } }), by decide, by decide, by decide, by decide⟩,
    ⟨(0), (0), ([]), ({ w0 with bh := { w0.bh with vfs := [(0, { owner := 0, aerIn := [0] })] } }), by decide, by decide, by decide, by decide⟩⟩
theorem wit_BlockCommandsRun :
    (∃ (n : Nat) (x : Slot) (s : State), Live s ∧ atStart s n false 0 = some x ∧ (x.e.nsid = 0xFFFFFFFF ∨ (vf s x.vf).ns.contains x.e.nsid = true) ∧ s.bh.unready.contains x.e.nsid = false) ∧
    (∃ (n : Nat) (x : Slot) (s : State), Live s ∧ atStart s n false 1 = some x ∧ rwError s x = 0 ∧ (spansOf x.e.nsid (byteBlocks (slotBytes s x))).any (fun k => s.bh.lostSp.contains k) = false) ∧
    (∃ (n : Nat) (x : Slot) (s : State), Live s ∧ atStart s n false 2 = some x ∧ rwError s x = 0 ∧ (spansOf x.e.nsid (byteBlocks (slotBytes s x))).any (fun k => s.bh.lostSp.contains k) = false) ∧
    (∃ (n : Nat) (x : Slot) (s : State), Live s ∧ atStart s n false 5 = some x ∧ rwError s x = 0 ∧ (spansOf x.e.nsid (byteBlocks (slotBytes s x))).any (fun k => s.bh.lostSp.contains k) = false) ∧
    (∃ (n : Nat) (x : Slot) (s : State), Live s ∧ atStart s n false 8 = some x ∧ rwError s x = 0 ∧ (spansOf x.e.nsid (byteBlocks (slotBytes s x))).any (fun k => s.bh.lostSp.contains k) = false) ∧
    (∃ (n : Nat) (x : Slot) (s : State), Live s ∧ atStart s n false 9 = some x ∧ rwError s x = 0 ∧ (spansOf x.e.nsid (byteBlocks (slotBytes s x))).any (fun k => s.bh.lostSp.contains k) = false ∧ bit x.e.cdw11 2 = true ∧ (bhXl s (vf s x.vf).owner (x.e.pages.headD (0, none)).1 (x.e.pages.headD (0, none)).2).isSome = true) ∧
    (∃ (v n : Nat) (x : Slot) (s : State), Live s ∧ slot s n = some x ∧ x.vf = v ∧ x.started = true ∧ x.ph = .start ∧ x.q ≠ 0 ∧ [0x00, 0x01, 0x02, 0x05, 0x08, 0x09].contains x.e.op = false) ∧
    (∃ (n : Nat) (x : Slot) (s : State), Live s ∧ slot s n = some x ∧ x.started = false ∧ lockFree s x = true) ∧
    (∃ (n : Nat) (x : Slot) (c : Bcmd) (l : List Bcmd) (s : State), Live s ∧ slot s n = some x ∧ x.bcs = c :: l ∧ c.map = none) ∧
    (∃ (n : Nat) (x : Slot) (c : Bcmd) (l : List Bcmd) (s : State), Live s ∧ slot s n = some x ∧ x.bcs = c :: l ∧ c.map = none) ∧
    (∃ (nsid span : Nat) (ok : Bool) (s : State), Live s ∧ (mget s.bh.commits (spanKey nsid span)).run.isEmpty = false) :=
  ⟨⟨(0), ({ n := 0, vf := 0, q := 1, started := true, e := { nsid := 1, op := 0 } }), ({ w0 with rps := [(32, { iommu := [(0x10, 1)] })], bh := { w0.bh with nss := [(1, { part := 0, size := 512 })], vfs := [(0, { owner := 0, ns := [1] })], slots := [{ n := 0, vf := 0, q := 1, started := true, e := { nsid := 1, op := 0 } }] } }), by decide, by decide, by decide, by decide⟩,
    ⟨(0), ({ n := 0, vf := 0, q := 1, started := true, e := { nsid := 1, op := 1 } }), ({ w0 with rps := [(32, { iommu := [(0x10, 1)] })], bh := { w0.bh with nss := [(1, { part := 0, size := 512 })], vfs := [(0, { owner := 0, ns := [1] })], slots := [{ n := 0, vf := 0, q := 1, started := true, e := { nsid := 1, op := 1 } }] } }), by decide, by decide, by decide, by decide⟩,
    ⟨(0), ({ n := 0, vf := 0, q := 1, started := true, e := { nsid := 1, op := 2 } }), ({ w0 with rps := [(32, { iommu := [(0x10, 1)] })], bh := { w0.bh with nss := [(1, { part := 0, size := 512 })], vfs := [(0, { owner := 0, ns := [1] })], slots := [{ n := 0, vf := 0, q := 1, started := true, e := { nsid := 1, op := 2 } }] } }), by decide, by decide, by decide, by decide⟩,
    ⟨(0), ({ n := 0, vf := 0, q := 1, started := true, e := { nsid := 1, op := 5 } }), ({ w0 with rps := [(32, { iommu := [(0x10, 1)] })], bh := { w0.bh with nss := [(1, { part := 0, size := 512 })], vfs := [(0, { owner := 0, ns := [1] })], slots := [{ n := 0, vf := 0, q := 1, started := true, e := { nsid := 1, op := 5 } }] } }), by decide, by decide, by decide, by decide⟩,
    ⟨(0), ({ n := 0, vf := 0, q := 1, started := true, e := { nsid := 1, op := 8 } }), ({ w0 with rps := [(32, { iommu := [(0x10, 1)] })], bh := { w0.bh with nss := [(1, { part := 0, size := 512 })], vfs := [(0, { owner := 0, ns := [1] })], slots := [{ n := 0, vf := 0, q := 1, started := true, e := { nsid := 1, op := 8 } }] } }), by decide, by decide, by decide, by decide⟩,
    ⟨(0), ({ n := 0, vf := 0, q := 1, started := true, e := { nsid := 1, op := 9, cdw11 := 4 } }), ({ w0 with rps := [(32, { iommu := [(0x10, 1)] })], bh := { w0.bh with nss := [(1, { part := 0, size := 512 })], vfs := [(0, { owner := 0, ns := [1] })], slots := [{ n := 0, vf := 0, q := 1, started := true, e := { nsid := 1, op := 9, cdw11 := 4 } }] } }), by decide, by decide, by decide, by decide, by decide, by decide⟩,
    ⟨(0), (0), ({ n := 0, vf := 0, q := 1, started := true, e := { nsid := 1, op := 3 } }), ({ w0 with rps := [(32, { iommu := [(0x10, 1)] })], bh := { w0.bh with nss := [(1, { part := 0, size := 512 })], vfs := [(0, { owner := 0, ns := [1] })], slots := [{ n := 0, vf := 0, q := 1, started := true, e := { nsid := 1, op := 3 } }] } }), by decide, by decide, by decide, by decide, by decide, by decide, by decide⟩,
    ⟨(0), ({ n := 0, vf := 0, q := 1, e := { nsid := 1, op := 1 } }), ({ w0 with rps := [(32, { iommu := [(0x10, 1)] })], bh := { w0.bh with nss := [(1, { part := 0, size := 512 })], vfs := [(0, { owner := 0, ns := [1] })], slots := [{ n := 0, vf := 0, q := 1, e := { nsid := 1, op := 1 } }] } }), by decide, by decide, by decide, by decide⟩,
    ⟨(0), ({ n := 0, vf := 0, q := 1, bcs := [{}], e := { nsid := 1, op := 1 } }), ({}), ([]), ({ w0 with rps := [(32, { iommu := [(0x10, 1)] })], bh := { w0.bh with nss := [(1, { part := 0, size := 512 })], vfs := [(0, { owner := 0, ns := [1] })], slots := [{ n := 0, vf := 0, q := 1, bcs := [{}], e := { nsid := 1, op := 1 } }] } }), by decide, by decide, by decide, by decide⟩,
    ⟨(0), ({ n := 0, vf := 0, q := 1, bcs := [{}], e := { nsid := 1, op := 1 } }), ({}), ([]), ({ w0 with rps := [(32, { iommu := [(0x10, 1)] })], bh := { w0.bh with nss := [(1, { part := 0, size := 512 })], vfs := [(0, { owner := 0, ns := [1] })], slots := [{ n := 0, vf := 0, q := 1, bcs := [{}], e := { nsid := 1, op := 1 } }] } }), by decide, by decide, by decide, by decide⟩,
    ⟨(1), (0), (false), ({ w0 with bh := { w0.bh with commits := [(spanKey 1 0, { run := [0] })] } }), by decide, by decide⟩⟩
theorem wit_PairFramesAct :
    (∃ (q : Nat × State) (s : State), Live s ∧ s.pair.helloOn = true ∧ pairUp s = true ∧ q = drawNat s ∧ ucp s = false) ∧
    (∃ (pairId : Word) (descs mine : List PairDesc) (s u : State), Live s ∧ s.pair.helloOn = true ∧ pairUp s = true ∧ pairId = s.pair.id ∧ mine = (myProt s).map (myDesc s) ∧ mine.all (fun d => descs.contains d) = true ∧ descs.all (fun d => mine.contains d) = true ∧ u = { s with pair := { s.pair with helloOn := false } } ∧ ucp s = false) ∧
    (∃ (f : PairFrame) (s : State), Live s ∧ f.ty = 2 ∧ f.part < 12 ∧ shadowTakes s f.part = true ∧ ucp s = false) ∧
    (∃ (f : PairFrame) (s : State), Live s ∧ f.ty = 4 ∧ f.part < 12 ∧ shadowTakes s f.part = true ∧ ucp s = false) ∧
    (∃ (f : PairFrame) (s : State), Live s ∧ f.ty = 5 ∧ f.part < 12 ∧ shadowTakes s f.part = true ∧ ucp s = false) ∧
    (∃ (f : PairFrame) (s : State), Live s ∧ f.ty = 6 ∧ f.part < 12 ∧ shadowTakes s f.part = true ∧ ucp s = false) ∧
    (∃ (f : PairFrame) (s : State), Live s ∧ f.ty = 3 ∧ f.part < 12 ∧ pairSt s f.part = .syncShadow ∧ (pairP s f.part).take = 0 ∧ ucp s = false) ∧
    (∃ (f : PairFrame) (s : State), Live s ∧ f.ty = 7 ∧ shadowTakes s f.part = true ∧ s.bh.blkIn = none ∧ ucp s = false) ∧
    (∃ (f : PairFrame) (s : State), Live s ∧ f.ty = 8 ∧ f.part < 12 ∧ shadowTakes s f.part = true ∧ f.stream < 32 ∧ ucp s = false) ∧
    (∃ (f : PairFrame) (s : State), Live s ∧ f.ty = 9 ∧ f.part < 12 ∧ mirrored s f.part = true ∧ pairCommit s f.part < f.epoch ∧ ucp s = false) ∧
    (∃ (f : PairFrame) (s : State), Live s ∧ f.ty = 10 ∧ ucp s = false) ∧
    (∃ (f : PairFrame) (s : State), Live s ∧ f.ty = 11 ∧ f.part < 12 ∧ pairSt s f.part = .shadow ∧ (pairP s f.part).take = 0 ∧ ucp s = false) ∧
    (∃ (f : PairFrame) (s : State), Live s ∧ f.ty = 12 ∧ (pairSt s f.part = .active ∨ pairSt s f.part = .held) ∧ ucp s = false) ∧
    (∃ (f : PairFrame) (s : State), Live s ∧ (f.ty = 0 ∨ 12 < f.ty) ∧ ucp s = false) ∧
    (∃ (p : Nat) (ts : List Nat) (s : State), Live s ∧ mirrored s p = true ∧ (pairP s p).close = 0 ∧ ts = ckptTargets s p ∧ ucp s = false) ∧
    (∃ (p target : Nat) (s : State), Live s ∧ (pairP s p).told.contains target = true ∧ (16 ≤ target ∧ target < 32) ∧ ucp s = false) ∧
    (∃ (p target : Nat) (s : State), Live s ∧ (pairP s p).told.contains target = true ∧ target < 16 ∧ ucp s = false) ∧
    (∃ (p : Nat) (s : State), Live s ∧ (pairP s p).close ≠ 0 ∧ ucp s = false) ∧
    (∃ (s : State), Live s ∧ ucp s = false) ∧
    (∃ (s : State), Live s ∧ ucp s = false) ∧
    (∃ (s : State), Live s) ∧
    (∃ (s : State), Live s ∧ (fbit s (frRp 10) 0 3 = true ∨ fbit s (frRp 11) 0 3 = true)) ∧
    (∃ (n : Nat) (s : State), Live s ∧ n < 2) ∧
    (∃ (s : State), Live s ∧ fbit s frPair 0 8 = true ∧ s.pair.lost = true ∧ ucp s = false) ∧
    (∃ (p : Nat) (s : State), Live s ∧ (pairP s p).take ≠ 0 ∧ ucp s = false) ∧
    (∃ (p : Nat) (s : State), Live s ∧ (pairP s p).take ≠ 0 ∧ ucp s = false) :=
  ⟨⟨(drawNat (setBit frPair 0x008 0 { w0 with pair := { w0.pair with helloOn := true } } : State)), (setBit frPair 0x008 0 { w0 with pair := { w0.pair with helloOn := true } }), by decide, by decide, by decide, rfl, by decide⟩,
    ⟨((setBit frPair 0x008 0 { w0 with pair := { w0.pair with helloOn := true } } : State).pair.id), ([]), ((myProt (setBit frPair 0x008 0 { w0 with pair := { w0.pair with helloOn := true } } : State)).map (myDesc (setBit frPair 0x008 0 { w0 with pair := { w0.pair with helloOn := true } } : State))), (setBit frPair 0x008 0 { w0 with pair := { w0.pair with helloOn := true } }), ({ (setBit frPair 0x008 0 { w0 with pair := { w0.pair with helloOn := true } } : State) with pair := { (setBit frPair 0x008 0 { w0 with pair := { w0.pair with helloOn := true } } : State).pair with helloOn := false } }), by decide, by decide, by decide, rfl, rfl, by decide, by decide, rfl, by decide⟩,
    ⟨({ ty := 2 }), ({ w0 with pairSt := [(0, .shadow)] }), by decide, by decide, by decide, by decide, by decide⟩,
    ⟨({ ty := 4 }), ({ w0 with pairSt := [(0, .shadow)] }), by decide, by decide, by decide, by decide, by decide⟩,
    ⟨({ ty := 5 }), ({ w0 with pairSt := [(0, .shadow)] }), by decide, by decide, by decide, by decide, by decide⟩,
    ⟨({ ty := 6 }), ({ w0 with pairSt := [(0, .shadow)] }), by decide, by decide, by decide, by decide, by decide⟩,
    ⟨({ ty := 3 }), ({ w0 with pairSt := [(0, .syncShadow)] }), by decide, by decide, by decide, by decide, by decide, by decide⟩,
    ⟨({ ty := 7 }), ({ w0 with pairSt := [(0, .shadow)] }), by decide, by decide, by decide, by decide, by decide⟩,
    ⟨({ ty := 8 }), ({ w0 with pairSt := [(0, .shadow)] }), by decide, by decide, by decide, by decide, by decide, by decide⟩,
    ⟨({ ty := 9, epoch := 1 }), ({ w0 with pairSt := [(0, .active)] }), by decide, by decide, by decide, by decide, by decide, by decide⟩,
    ⟨({ ty := 10 }), (w0), by decide, by decide, by decide⟩,
    ⟨({ ty := 11 }), ({ w0 with pairSt := [(0, .shadow)] }), by decide, by decide, by decide, by decide, by decide, by decide⟩,
    ⟨({ ty := 12 }), ({ w0 with pairSt := [(0, .active)] }), by decide, by decide, by decide, by decide⟩,
    ⟨({ ty := 13 }), (w0), by decide, by decide, by decide⟩,
    ⟨(0), (ckptTargets ({ w0 with pairSt := [(0, .active)] } : State) (0 : Nat)), ({ w0 with pairSt := [(0, .active)] }), by decide, by decide, by decide, rfl, by decide⟩,
    ⟨(0), (16), ({ w0 with pairP := [(0, { told := [16] })] }), by decide, by decide, by decide, by decide⟩,
    ⟨(0), (15), ({ w0 with pairP := [(0, { told := [15] })] }), by decide, by decide, by decide, by decide⟩,
    ⟨(0), ({ w0 with pairP := [(0, { close := 1 })] }), by decide, by decide, by decide⟩,
    ⟨(w0), by decide, by decide⟩,
    ⟨(w0), by decide, by decide⟩,
    ⟨(w0), by decide⟩,
    ⟨(setBit (frRp 10) 0 3 w0), by decide, by decide⟩,
    ⟨(0), (w0), by decide, by decide⟩,
    ⟨(setBit frPair 0 8 { w0 with pair := { w0.pair with lost := true } }), by decide, by decide, by decide, by decide⟩,
    ⟨(0), ({ w0 with pairP := [(0, { take := 1 })] }), by decide, by decide, by decide⟩,
    ⟨(0), ({ w0 with pairP := [(0, { take := 1 })] }), by decide, by decide, by decide⟩⟩
theorem wit_PowerPinsAndStartsAct :
    (∃ (hw : Hw) (s u v : State), s.pins.pwrok = false ∧ u = (if s.card.known then s else updCard (fun c => { c with known := true, cs0 := flashOf hw.cs0, cs1 := hw.cs1.map flashOf }) s) ∧ v = updCard (fun c => { c with rail := (railBoot.zipIdx).foldl (fun m e => mset m e.2 e.1) [] }) { u with pins := { u.pins with pwrok := true, aon := true, everUp := true } }) ∧
    (∃ (hw : Hw) (s : State), s.pins.pwrok = true ∧ s.card.rstHeld = false ∧ begun s = false) ∧
    (∃ (ns : Nat) (s u : State), s.pins.pwrok = true ∧ begun s = true ∧ s.card.held = false ∧ 1000 ≤ ns ∧ s.card.start = none ∧ u = { s with pins := { s.pins with pkgRst := false } }) ∧
    (∃ (s : State), s.pins.pwrok = true) ∧
    (∃ (step : Nat) (x : Start) (q : Nat × State) (s : State), Live s ∧ s.card.start = some x ∧ step = x.step + 1 ∧ (1 ≤ step ∧ step ≤ 9 ∨ step = 15 ∨ step = 16) ∧ q = drawNat s) ∧
    (∃ (s : State), Live s ∧ fwAt s 5 = true) ∧
    (∃ (s : State), Live s ∧ fwAt s 5 = true) ∧
    (∃ (step : Nat) (s : State), Live s ∧ (step = 1 ∨ step = 2) ∧ fwAt s (step + 2) = true) ∧
    (∃ (s : State), Live s ∧ s.cox.dead = false) ∧
    (∃ (s : State), Live s ∧ s.cox.dead = false ∧ fwAt s 5 = false ∧ s.cox.standbyBad = false) ∧
    (∃ (s : State), Live s ∧ s.cox.dead = false ∧ fwAt s 5 = false ∧ s.cox.standbyBad = true) ∧
    (∃ (result detail src a : Nat) (pages : List (Nat × Nat)) (s : State), Live s ∧ s.card.test = some (src, 4, a) ∧ src = 16 ∧ result < 3) :=
  ⟨⟨({}), ({ w0 with pins := { w0.pins with pwrok := false } }), ((if ({ w0 with pins := { w0.pins with pwrok := false } } : State).card.known then ({ w0 with pins := { w0.pins with pwrok := false } } : State) else updCard (fun c => { c with known := true, cs0 := flashOf ({} : Hw).cs0, cs1 := ({} : Hw).cs1.map flashOf }) ({ w0 with pins := { w0.pins with pwrok := false } } : State))), (updCard (fun c => { c with rail := (railBoot.zipIdx).foldl (fun m e => mset m e.2 e.1) [] }) { ((if ({ w0 with pins := { w0.pins with pwrok := false } } : State).card.known then ({ w0 with pins := { w0.pins with pwrok := false } } : State) else updCard (fun c => { c with known := true, cs0 := flashOf ({} : Hw).cs0, cs1 := ({} : Hw).cs1.map flashOf }) ({ w0 with pins := { w0.pins with pwrok := false } } : State))) with pins := { ((if ({ w0 with pins := { w0.pins with pwrok := false } } : State).card.known then ({ w0 with pins := { w0.pins with pwrok := false } } : State) else updCard (fun c => { c with known := true, cs0 := flashOf ({} : Hw).cs0, cs1 := ({} : Hw).cs1.map flashOf }) ({ w0 with pins := { w0.pins with pwrok := false } } : State))).pins with pwrok := true, aon := true, everUp := true } }), by decide, rfl, rfl⟩,
    ⟨({}), ({ State.reset with pins := { State.reset.pins with pwrok := true } }), by decide, by decide, by decide⟩,
    ⟨(1000), (w0), ({ (w0 : State) with pins := { (w0 : State).pins with pkgRst := false } }), by decide, by decide, by decide, by decide, by decide, rfl⟩,
    ⟨(w0), by decide⟩,
    ⟨(({} : Start).step + 1), ({}), (drawNat ({ w0 with card := { w0.card with start := some {} } } : State)), ({ w0 with card := { w0.card with start := some {} } }), by decide, by decide, rfl, by decide, rfl⟩,
    ⟨({ w0 with cox := { w0.cox with cur := some { op := 0x36, step := 5 } } }), by decide, by decide⟩,
    ⟨({ w0 with cox := { w0.cox with cur := some { op := 0x36, step := 5 } } }), by decide, by decide⟩,
    ⟨(1), ({ w0 with cox := { w0.cox with cur := some { op := 0x36, step := 3 } } }), by decide, by decide, by decide⟩,
    ⟨(w0), by decide, by decide⟩,
    ⟨(w0), by decide, by decide, by decide, by decide⟩,
    ⟨({ w0 with cox := { w0.cox with standbyBad := true } }), by decide, by decide, by decide, by decide⟩,
    ⟨(0), (0), (16), (0), ([]), ({ w0 with card := { w0.card with test := some (16, 4, 0) } }), by decide, by decide, rfl, by decide⟩⟩

theorem wit_RequestsReachTheirHome_homes : ∀ op ∈ [oRdShared, oRdOwn, oUpgrade, oClaimOwn, oRdOnce, oRdRgn, oWrFull, oCboClean, oCboFlush], ∃ f g : Flit, Live wL ∧ (Arrives .req op f wL ∧ HomeTakes f wL) ∧ Arrives .req op g wKept ∧ HomeKept g { src := sliceAgent 0 0, cause := .set false 0 } wKept := by
  intro op h
  refine ⟨{ net := .req, op := op, src := sliceAgent 0 0, dst := haAgent 0, part := 0 }, { net := .req, op := op, src := sliceAgent 0 0, dst := haAgent 0, part := 0, rsv := true }, ?_⟩
  revert op; decide
theorem wit_RequestsReachTheirHome_slices : ∀ op ∈ [oRdShared, oRdOwn, oUpgrade, oClaimOwn, oRdOnce, oRdRgn, oWrFull, oCboClean, oCboFlush], ∃ f : Flit, Live wL ∧ Arrives .req op f wL ∧ SliceTakes f wL 0 ∧ f.net = .req ∧ isSlice f.dst = true ∧ agDie f.src = agDie f.dst ∧ isCore f.src = true ∧ 1 ≤ f.op ∧ f.op ≤ 12 ∧ f.op ≠ oWrBackDirty ∧ f.op ≠ oEvictClean := by
  intro op h
  refine ⟨{ net := .req, op := op, src := hartAgent 0, dst := sliceAgent 0 0, part := 0 }, ?_⟩
  revert op; decide
theorem wit_EvictionsReachTheirHome : ∀ op ∈ [oWrBackDirty, oEvictClean], ∃ f g : Flit, Live wL ∧ (Arrives .req op f wL ∧ isHome f.dst = true) ∧ (Arrives .req op g wL ∧ isSlice g.dst = true) ∧ agDie g.src = agDie g.dst ∧ isCore g.src = true ∧ (g.op = oWrBackDirty ∨ g.op = oEvictClean) := by
  intro op h
  refine ⟨{ net := .req, op := op, src := sliceAgent 0 0, dst := haAgent 0, part := 0 }, { net := .req, op := op, src := hartAgent 0, dst := sliceAgent 0 0, part := 0 }, ?_⟩
  revert op; decide
theorem wit_EvictionsReachTheirHome_release : ∃ f : Flit, Live wL ∧ Arrives .req oRgnRel f wL ∧ isHome f.dst = true := ⟨{ net := .req, op := oRgnRel, src := sliceAgent 0 0, dst := haAgent 0, part := 0 }, by decide⟩
theorem wit_RequestsReachTheirHome_order : ∀ op ∈ [oRdShared, oRdOwn, oUpgrade, oClaimOwn, oRdOnce, oRdRgn, oWrFull, oCboClean, oCboFlush], ∃ f g : Flit, Live (wBehind f) ∧ isMsg .req op f = true ∧ mayArrive (wBehind f) f = false ∧ Arrives .req op g wL ∧ agDie g.dst = 13 := by
  intro op h
  refine ⟨{ net := .req, op := op, src := sliceAgent 0 0, dst := haAgent 0, part := 0 }, { net := .req, op := op, src := sliceAgent 0 0, dst := agent 13 0, part := 0 }, ?_⟩
  revert op; decide
theorem wit_EvictionsReachTheirHome_order : ∀ op ∈ [oWrBackDirty, oEvictClean, oRgnRel], ∃ f g : Flit, Live (wBehind f) ∧ isMsg .req op f = true ∧ mayArrive (wBehind f) f = false ∧ Arrives .req op g wL ∧ agDie g.dst = 13 := by
  intro op h
  refine ⟨{ net := .req, op := op, src := sliceAgent 0 0, dst := haAgent 0, part := 0 }, { net := .req, op := op, src := sliceAgent 0 0, dst := agent 13 0, part := 0 }, ?_⟩
  revert op; decide
theorem wit_IoAccessesReachTheirBlock_registers : ∀ op ∈ [oIoRd, oCfgRd, oIoWr, oCfgWr], ∃ f : Flit, Live wL ∧ ioTarget f.addr = .drs 0 0 ∧ agDie f.dst ≠ 13 ∧ Arrives .req op f wL := by
  intro op h
  refine ⟨{ net := .req, op := op, src := hartAgent 0, dst := coxAgent, part := 0, addr := drsBase, size := 3 }, ?_⟩
  revert op; decide
theorem wit_IoAccessesReachTheirBlock_ports : ∀ op ∈ [oIoRd, oCfgRd, oIoWr, oCfgWr], ∃ f g : Flit, Live wL ∧ (Arrives .req op f wL ∧ agDie f.dst ≠ 13 ∧ isRp f.dst = true ∧ ∃ a b, ioTarget f.addr = .ecam a b) ∧ Arrives .req op g wL ∧ isRp g.dst = false ∧ ∃ a b e, ioTarget g.addr = .rpMem a b e := by
  intro op h
  refine ⟨{ net := .req, op := op, src := hartAgent 0, dst := agent 12 0x30, part := 0, addr := 0x0000100000000000, size := 3 }, { net := .req, op := op, src := hartAgent 0, dst := coxAgent, part := 0, addr := 0xC0000000, size := 3 }, ?_⟩
  refine ⟨by decide, ⟨?_, (by decide : agDie (agent 12 0x30) ≠ 13), (by decide : isRp (agent 12 0x30) = true), 0, 0, (by decide : ioTarget 0x0000100000000000 = .ecam 0 0)⟩, ?_, (by decide : isRp coxAgent = false), 0, 0, false, (by decide : ioTarget 0xC0000000 = .rpMem 0 0 false)⟩
  all_goals (revert op; decide)
theorem wit_IoAccessesReachTheirBlock_functions : ∀ op ∈ [oIoRd, oCfgRd, oIoWr, oCfgWr], ∃ f : Flit, Live wL ∧ Arrives .req op f wL ∧ agDie f.dst = 12 ∧ 0x68 ≤ agUnit f.dst ∧ agUnit f.dst < 0x6C ∧ ∃ a b, ioTarget f.addr = .vfCfg a b := by
  intro op h
  refine ⟨{ net := .req, op := op, src := hartAgent 0, dst := agent 12 0x68, part := 0, addr := 0x00001000C0100000, size := 3 }, ?_⟩
  refine ⟨by decide, ?_, (by decide : agDie (agent 12 0x68) = 12), (by decide : 0x68 ≤ agUnit (agent 12 0x68)), (by decide : agUnit (agent 12 0x68) < 0x6C), 0, 0, (by decide : ioTarget 0x00001000C0100000 = .vfCfg 0 0)⟩
  revert op; decide
theorem wit_IoAccessesReachTheirBlock_nothing : ∀ op ∈ [oIoRd, oCfgRd, oIoWr, oCfgWr], ∃ f : Flit, Live wL ∧ Arrives .req op f wL ∧ agDie f.dst ≠ 13 ∧ ioTarget f.addr = .none := by
  intro op h
  refine ⟨{ net := .req, op := op, src := hartAgent 0, dst := coxAgent, part := 0, addr := 0, size := 3 }, ?_⟩
  revert op; decide
theorem wit_IoAccessesReachTheirBlock_order : ∀ op ∈ [oIoRd, oCfgRd, oIoWr, oCfgWr], ∃ f g : Flit, Live (wBehind f) ∧ isMsg .req op f = true ∧ mayArrive (wBehind f) f = false ∧ Arrives .req op g wL ∧ agDie g.dst = 13 := by
  intro op h
  refine ⟨{ net := .req, op := op, src := hartAgent 0, dst := coxAgent, part := 0, addr := drsBase, size := 3 }, { net := .req, op := op, src := hartAgent 0, dst := agent 13 0, part := 0, addr := drsBase, size := 3 }, ?_⟩
  revert op; decide
theorem wit_InterruptsAndMailArrive : ∃ f g k : Flit, Live wL ∧ Arrives .req oIntMsg f wL ∧ agDie f.dst = 12 ∧ 0x60 ≤ agUnit f.dst ∧ agUnit f.dst < 0x64 ∧ Arrives .req oMail g wL ∧ g.dst = coxAgent ∧ Arrives .req oMail k wL ∧ agDie k.dst ≠ 13 ∧ k.dst ≠ coxAgent :=
  ⟨{ net := .req, op := oIntMsg, src := agent 12 0x30, dst := agent 12 0x60, part := 0 }, { net := .req, op := oMail, src := sliceAgent 0 0, dst := coxAgent, part := 0 }, { net := .req, op := oMail, src := sliceAgent 0 0, dst := haAgent 0, part := 0 }, by decide⟩
theorem wit_InterruptsAndMailArrive_order : ∀ op ∈ [oIntMsg, oMail], ∃ f g : Flit, Live (wBehind f) ∧ isMsg .req op f = true ∧ mayArrive (wBehind f) f = false ∧ Arrives .req op g wL ∧ agDie g.dst = 13 := by
  intro op h
  refine ⟨{ net := .req, op := op, src := sliceAgent 0 0, dst := coxAgent, part := 0 }, { net := .req, op := op, src := sliceAgent 0 0, dst := agent 13 0, part := 0 }, ?_⟩
  revert op; decide
theorem wit_ReservedFlitsAreAnswered : ∃ f g h : Flit, Live wL ∧ (opOk f.net f.op = false ∧ Arrives f.net f.op f wL ∧ agDie f.dst ≠ 13 ∧ (agBank f.dst).2 = true) ∧ (opOk g.net g.op = false ∧ Arrives g.net g.op g wL ∧ agDie g.dst ≠ 13 ∧ (agBank g.dst).2 = false) ∧ idsOk h = false :=
  ⟨{ op := 0, src := sliceAgent 0 0, dst := haAgent 0, part := 0 }, { op := 0, src := sliceAgent 0 0, dst := coxAgent, part := 0 }, { dst := 4095 }, by decide⟩
theorem wit_SnoopsReachTheirHolder : ∀ op ∈ [oSnpShared, oSnpOwn, oSnpInv, oSnpCur, oSnpClean, oBackInv, oSnpRgnSplit, oSnpRgnInv], ∃ f g h : Flit, Live wL ∧ (Arrives .snp op f wL ∧ isCore f.dst = true) ∧ (Arrives .snp op g wL ∧ isSlice g.dst = true) ∧ Arrives .snp op h wL ∧ isCore h.dst = false ∧ isSlice h.dst = false ∧ engOf h.dst = some 0 := by
  intro op h
  refine ⟨{ net := .snp, op := op, src := haAgent 0, dst := hartAgent 0, part := 0 }, { net := .snp, op := op, src := haAgent 0, dst := sliceAgent 0 0, part := 0 }, { net := .snp, op := op, src := haAgent 0, dst := agent 12 0x30, part := 0 }, ?_⟩
  revert op; decide
theorem wit_SnoopsReachTheirHolder_order : ∀ op ∈ [oSnpShared, oSnpOwn, oSnpInv, oSnpCur, oSnpClean, oBackInv, oSnpRgnSplit, oSnpRgnInv], ∃ f g : Flit, Live (wBehind f) ∧ isMsg .snp op f = true ∧ mayArrive (wBehind f) f = false ∧ Arrives .snp op g wL ∧ agDie g.dst = 13 := by
  intro op h
  refine ⟨{ net := .snp, op := op, src := haAgent 0, dst := sliceAgent 0 0, part := 0 }, { net := .snp, op := op, src := haAgent 0, dst := agent 13 0, part := 0 }, ?_⟩
  revert op; decide
theorem wit_AnswersReachTheirRequester : ∀ c ∈ [(Net.rsp, oComp), (Net.rsp, oEvictAck), (Net.rsp, oRetry), (Net.rsp, oCreditGrant), (Net.rsp, oFault), (Net.rsp, oIoComp), (Net.dat, oData), (Net.dat, oDataCopy), (Net.dat, oIoData)], ∃ f g h : Flit, Live wL ∧ (Arrives c.1 c.2 f wL ∧ isCore f.dst = true) ∧ (Arrives c.1 c.2 g wL ∧ isCore g.dst = false ∧ isSlice g.dst = true) ∧ Arrives c.1 c.2 h wL ∧ isCore h.dst = false ∧ isSlice h.dst = false ∧ engOf h.dst = some 0 := by
  intro c h
  refine ⟨{ net := c.1, op := c.2, src := haAgent 0, dst := hartAgent 0, part := 0 }, { net := c.1, op := c.2, src := haAgent 0, dst := sliceAgent 0 0, part := 0 }, { net := c.1, op := c.2, src := haAgent 0, dst := agent 12 0x30, part := 0 }, ?_⟩
  revert c; decide
theorem wit_AnswersReachTheirRequester_keepers : ∀ c ∈ [(Net.rsp, oCompAck), (Net.rsp, oSnpRsp), (Net.dat, oSnpData), (Net.dat, oRgnMap)], ∃ f g : Flit, Live wL ∧ (Arrives c.1 c.2 f wL ∧ isSlice f.dst = true) ∧ Arrives c.1 c.2 g wL ∧ isSlice g.dst = false ∧ isHome g.dst = true := by
  intro c h
  refine ⟨{ net := c.1, op := c.2, src := hartAgent 0, dst := sliceAgent 0 0, part := 0 }, { net := c.1, op := c.2, src := sliceAgent 0 0, dst := haAgent 0, part := 0 }, ?_⟩
  revert c; decide
theorem wit_AnswersReachTheirRequester_order : ∀ c ∈ [(Net.rsp, oComp), (Net.rsp, oEvictAck), (Net.rsp, oRetry), (Net.rsp, oCreditGrant), (Net.rsp, oFault), (Net.rsp, oIoComp), (Net.dat, oData), (Net.dat, oDataCopy), (Net.dat, oIoData), (Net.rsp, oCompAck), (Net.rsp, oSnpRsp), (Net.dat, oSnpData), (Net.dat, oRgnMap)], ∃ f g : Flit, Live (wBehind f) ∧ isMsg c.1 c.2 f = true ∧ mayArrive (wBehind f) f = false ∧ Arrives c.1 c.2 g wL ∧ agDie g.dst = 13 := by
  intro c h
  refine ⟨{ net := c.1, op := c.2, src := haAgent 0, dst := sliceAgent 0 0, part := 0 }, { net := c.1, op := c.2, src := haAgent 0, dst := agent 13 0, part := 0 }, ?_⟩
  revert c; decide
/-- The L2 of hart 0 owns line 0, with or without a reservation of address 0. -/
def wOwn (r : Option Resv) : State := wH { st := .run, l2 := [(0, { st := .m })], resv := r }
theorem wit_HartInstructionsAct : ∃ (o o1 o2 o3 o4 : HOp) (m : MemAcc) (w : Bool), (∀ r, atomicReady (hart (wOwn r) 0) [] o = true ∧ l2Stalled (hart (wOwn r) 0) = false ∧ l2Owned (hart (wOwn r) 0) (lineOf m.pa) = true ∧ l2Poison (hart (wOwn r) 0) (lineOf m.pa) = false) ∧
    o.ins = .amo m .swap 0 false false ∧ o1.ins = .amocas m 0 0 false false ∧ o2.ins = .lr m false false ∧ (hart (wOwn none) 0).deferred = [] ∧ o3.ins = .sc m 0 false false ∧ (hart (wOwn (some { addr := 0, window := w })) 0).resv = some { addr := m.pa, window := w } ∧
    (hart (wOwn none) 0).resv.all (fun r => decide (r.addr ≠ m.pa)) = true ∧ o4.ins = .imsicClaim 0 0 0 false 0 :=
  ⟨{ ins := .amo { size := 8 } .swap 0 false false }, { ins := .amocas { size := 8 } 0 0 false false }, { ins := .lr { size := 8 } false false }, { ins := .sc { size := 8 } 0 false false }, { ins := .imsicClaim 0 0 0 false 0 }, { size := 8 }, true,
    fun r => by cases r <;> exact ⟨rfl, rfl, rfl, rfl⟩, rfl, rfl, rfl, rfl, rfl, rfl, rfl, rfl⟩
theorem wit_HartInstructionsAct_csrs : (∃ o : HOp, csrTrap (hart wR 0) 0x5C4 true = none ∧ o.ins = .rnbuoyctlWrite 0 0) ∧ (∃ o : HOp, csrTrap (hart wR 0) 0x5C0 false = none ∧ o.ins = .vendorCsrAccess 0 0x5C0 false 0) ∧
    (∃ o : HOp, csrTrap (hart wR 0) (0x320 + 3) true = none ∧ o.ins = .mhpmeventWrite 0 3 0) ∧ ∃ o : HOp, csrTrap (hart wR 0) (0xB00 + 10) true = none ∧ o.ins = .hpmCounterWrite 0 10 0 :=
  ⟨⟨{ ins := .rnbuoyctlWrite 0 0 }, by decide, rfl⟩, ⟨{ ins := .vendorCsrAccess 0 0x5C0 false 0 }, by decide, rfl⟩, ⟨{ ins := .mhpmeventWrite 0 3 0 }, by decide, rfl⟩, ⟨{ ins := .hpmCounterWrite 0 10 0 }, by decide, rfl⟩⟩
theorem wit_HartInstructionsAct_prefetches : ∃ (o o1 o2 : HOp) (m : MemAcc), pma wR (hartPart wR 0) m.pa = .main ∧ (m.x.pte.isSome = true → m.x.a = true) ∧ l2Find (hart wR 0) (lineOf m.pa) = none ∧ hndBusy (hart wR 0) ≤ 56 ∧ l2Stalled (hart wR 0) = false ∧
    lineBusy (hart wR 0) (lineOf m.pa) = false ∧ o.ins = .prefetchI m ∧ (hart wR 0).fmb.length ≤ 6 ∧ (hart wR 0).fmb.any (fun e => decide (e.1 = lineOf m.pa)) = false ∧ o1.ins = .prefetchR m ∧ (hart wR 0).mb.length ≤ 12 ∧ (hart wR 0).mb.any (fun e => decide (e.1 = lineOf m.pa)) = false ∧ o2.ins = .prefetchW m :=
  ⟨{ ins := .prefetchI {} }, { ins := .prefetchR {} }, { ins := .prefetchW {} }, {}, by decide, by decide, by decide, by decide, by decide, by decide, rfl, by decide, by decide, rfl, by decide, by decide, rfl⟩
theorem wit_ManagerCommandsQueue : ∃ (c : MgrCmd) (s s1 : State), Live s ∧ mgrHas s c.src = true ∧ fbit s (mgrFrame c.src) 0x028 0 = false ∧ Live s1 ∧ fbit s1 (mgrFrame c.src) 0x028 0 = true :=
  ⟨{ src := 16 }, w0, setBit (mgrFrame 16) 0x028 0 w0, by decide⟩
theorem wit_ManagerCommandsQueue_reserved : ∀ op ∈ [0, 0x0D, 0x0F, 0x11, 0x1F, 0x3A, 0x3F, 0x46, 0xFF], CoxTakes { op := op, c := { src := 16 } } w0 := by decide
/-- A read and a write of line 0 wait at its controller, located, at the first byte of group 0's HBM or beyond the last. -/
def wM (wr : Bool) (k : Option Nat) : State := { w0 with memq := [{ wr := wr, loc := k }] }
theorem wit_MemoryAccessesAct : ∀ wr : Bool, ∃ (q r : MemReq) (t : State), Live (wM wr (some 0)) ∧ memFirst (wM wr (some 0)) 0 (fun _ => true) = some q ∧ q.wr = wr ∧ (cxlPort (wM wr (some 0)) 0).isSome = false ∧ reqLoc q (wM wr (some 0)) = some (0, t) ∧ locOk t 0 = true ∧ memFirst (cellError 0 (cellFound t 0 .none) false (damageEnd (frCtl 0) 0 t)) 0 (fun _ => true) = some r ∧ memFirst t 0 (fun _ => true) = some r :=
  fun wr => ⟨{ wr := wr, loc := some 0 }, { wr := wr, loc := some 0 }, wM wr (some 0), by revert wr; decide⟩
theorem wit_MemoryAccessesAct_noCell : ∀ wr : Bool, ∃ (q : MemReq) (t : State), Live (wM wr (some (2 ^ 60))) ∧ memFirst (wM wr (some (2 ^ 60))) 0 (fun _ => true) = some q ∧ (cxlPort (wM wr (some (2 ^ 60))) 0).isSome = false ∧ reqLoc q (wM wr (some (2 ^ 60))) = some (2 ^ 60, t) ∧ locOk t (2 ^ 60) = false :=
  fun wr => ⟨{ wr := wr, loc := some (2 ^ 60) }, wM wr (some (2 ^ 60)), by revert wr; decide⟩

theorem wit_StepTakesFrontCommand : ∃ (c : Instr) (rest : List Instr) (s : State), s.pending = c :: rest := ⟨.pwrokFall, [], { w0 with pending := [.pwrokFall] }, rfl⟩
theorem wit_IdleStepPassesANanosecond : ∃ s t u : State, s.pending = [] ∧ ¬Live s ∧ t.pending = [] ∧ Live t ∧ u.pending = [] ∧ Live u ∧ u.card.k3 = true :=
  ⟨State.reset, w0, { w0 with card := { w0.card with k3 := true } }, by decide⟩
theorem wit_AlertsFollowTheRegisters : ∃ s t : State, step s = .next t := ⟨State.reset, settle State.reset, by rfl⟩
theorem wit_FlitBitsRoundTrip : flitWf { net := .req, op := oRdOwn, src := sliceAgent 11 23, dst := haAgent 31, txn := 255, part := 15, addr := 2 ^ 46 - 64 } = true := by decide
theorem wit_EveryCommandAnswers : (∀ (pa : Nat) (e : CellErr), Instr.pwrokFall ≠ .memoryRead pa e) ∧ (∀ pa : Nat, Instr.pwrokFall ≠ .memoryWrite pa) := ⟨fun _ _ h => Instr.noConfusion h, fun _ h => Instr.noConfusion h⟩
theorem wit_NothingActsWithoutPower : ∃ (c : Instr) (s : State), ¬Live s ∧ NeedsPower c := ⟨.epochClose 0, State.reset, by decide, trivial⟩
theorem wit_LinesReadAsWritten : ∃ (k j : Nat) (s : State), (j < k ∨ k + 64 ≤ j) ∧ Memory.wf s.mem = true ∧ (j < entAddr 0 0 0 ∨ entAddr 0 0 0 + 4 ≤ j) := ⟨64, 63, w0, by decide⟩
theorem wit_FieldsWriteByAccess : ∃ (f off g a : Nat) (x : Fld), x ∈ fieldsAt f off ∧ off < 65536 ∧ a < 65536 ∧ (g, a) ≠ (f, off) := ⟨frFlt, 8, frFlt, 0, (fieldsAt frFlt 8).headD ⟨0, 0, .ro, .none, 0⟩, by decide⟩
theorem wit_ErrorsAreCounted : ∃ (e e2 : Err) (s : State), e.cls < 4 ∧ errClass s e < 3 ∧ e2.cls = 3 := ⟨{ frame := frHa 0, ty := 1, cls := 2 }, { frame := frHa 0, ty := 1, cls := 3 }, w0, by decide⟩
theorem wit_ErrorsAreLatched : ∃ (e : Err) (s s1 s2 : State), e.cls < 3 ∧ fbit s e.frame 0x500 0 = false ∧ outranks s1 e.frame (errClass s1 e) e.consq = true ∧ fbit s2 e.frame 0x500 0 = true ∧ outranks s2 e.frame (errClass s2 e) e.consq = false :=
  ⟨{ frame := frHa 0, ty := 1, cls := 1 }, w0, setReg (frHa 0) 0x500 1 w0, setReg (frHa 0) 0x500 3 w0, by decide⟩
theorem wit_PackageFatalStops : ∃ (e : Err) (s s1 : State), e.cls = 3 ∧ fbit s (frRp 0) 0 3 = false ∧ s1.pins.everUp = true ∧ fbit s1 frFlt 0 0 = true := ⟨{ frame := frHa 0, ty := 1, cls := 3 }, w0, setBit frFlt 0 0 w0, by decide⟩
theorem wit_HomeRefusesForeignRequests : ∃ (pa0 pa1 pa2 pa3 cause : Nat) (f : Flit) (s s2 : State), memTop ≤ pa0 ∧ (pa1 < memTop ∧ s.slabOld = [] ∧ slState (slabEnt s (slabOf pa1)) = slVACANT) ∧
    (pa2 < memTop ∧ s2.slabOld = [] ∧ slState (slabEnt s2 (slabOf pa2)) ≠ slVACANT ∧ colBad s2 (slabEnt s2 (colSlab pa2 (slLw (slabEnt s2 (slabOf pa2))))) = true) ∧
    (pa3 < memTop ∧ slState (slabEnt s (slabOf pa3)) ≠ slVACANT ∧ colBad s (slabEnt s (colSlab pa3 (slLw (slabEnt s (slabOf pa3))))) = false) ∧
    domainOff s 0 f = false ∧ slabCheck 0 f.addr f.part s = (some cause, s) :=
  ⟨memTop, memTop - 1, 0, 2 ^ 30 - 1, cPARTITION, { src := hartAgent 0, dst := haAgent 0, part := 1 }, w0, { w0 with slab := [(0, 2 + 33 * 2 ^ 13)] }, by decide⟩
theorem wit_SliceRefusesForeignSnoops : ∃ (d e : Nat) (f : Flit) (s : State), (die s d).asg ≠ some f.part ∧ (die s e).asg = none := ⟨0, 1, { part := 1 }, w0, by decide⟩
theorem wit_RoutesSwitchWhenDrained : ∃ (s t s1 : State), Live s ∧ oldCnt s ≠ 0 ∧ Live s1 ∧ CoxIdle s1 ∧ oldCnt s1 = 0 ∧ exec (.switch 15) s1 = .next t :=
  ⟨{ w0 with live := [{ epoch := true }] }, (match exec (.switch 15) w0 with | .next t => t | _ => w0), w0, by decide, by decide, by decide, by decide, by decide, rfl⟩
theorem wit_FramesNotSeenAreClosed : ∃ (f g p : Nat) (s : State), Live s ∧ p < 12 ∧ seesFrame s p f = false ∧ (frameKind g).1 < 0x40 ∧ g ≠ frBmc ∧ only15 (frameKind g).1 0x500 = true ∧ hasErrBank (frameKind g).1 = true := ⟨frFlt, frHa 0, 0, w0, by decide⟩
theorem wit_FramesNotSeenAreClosed_tofs : 0x200 ≤ 0x278 ∧ 0x278 < 0x280 := by decide
theorem wit_FaultWindowWriters : ∃ (s s1 : State) (p : Nat), Live s ∧ s.bmcMgr = false ∧ p < 12 ∧ Live s1 ∧ CoxIdle s1 ∧ s1.bmcMgr = true := ⟨{ w0 with bmcMgr := false }, w0, 11, by decide⟩
theorem wit_HomesShareTheRegions : ∃ g j : Nat, g / 32 = j / 32 ∧ homeOf g = homeOf j := ⟨31, 31, by decide⟩
theorem wit_MailIsRefusedInOrder : ∃ (f f1 : Flit) (s s1 s2 s3 : State), f.part < 12 ∧ 12 ≤ f1.addr % 16 ∧ (f.addr % 16 < 12 ∧ bit (s.mailMx.getD f.part 0) (f.addr % 16) = false) ∧
    (bit (s1.mailMx.getD f.part 0) (f.addr % 16) = true ∧ (part s1 (f.addr % 16)).st ≠ .running) ∧
    (bit (s2.mailMx.getD f.part 0) (f.addr % 16) = true ∧ (part s2 (f.addr % 16)).st = .running ∧ 32 ≤ (mbxOf s2 (f.addr % 16)).length) ∧
    (bit (s3.mailMx.getD f.part 0) (f.addr % 16) = true ∧ (part s3 (f.addr % 16)).st = .running ∧ (mbxOf s3 (f.addr % 16)).length < 32) :=
  ⟨{ part := 11 }, { part := 11, addr := 12 }, w0, { wOn with mailMx := List.replicate 12 1 }, { w0 with mailMx := List.replicate 12 1, mbx := [(0, List.replicate 32 {})] }, { w0 with mailMx := List.replicate 12 1, mbx := [(0, List.replicate 31 {})] }, by decide⟩
theorem wit_UnownedPortsRefuse : ∃ (t : Tlp) (s u : State), Live s ∧ CoxIdle s ∧ t.rp < 12 ∧ s.card.k3 = false ∧ linkUp s t.rp t.link = true ∧ rpPair s t.rp = false ∧ bhPort s t.rp = false ∧ rpPart s t.rp = 15 ∧ exec (.dmaRead t) s = .next u :=
  ⟨{ rp := 11 }, { w0 with rps := [(11, { links := [{ dlup := true }] })] }, (match exec (.dmaRead { rp := 11 }) { w0 with rps := [(11, { links := [{ dlup := true }] })] } with | .next t => t | _ => w0), by decide, by decide, by decide, by decide, by decide, by decide, by decide, by decide, rfl⟩
theorem wit_AccessesTrap : ∃ (m m1 m2 m3 m4 m5 : MemAcc) (tg : IoTarget) (s : State), running s m.hart = true ∧ (Translated s m ∧ misaligned m = true ∧ accTrap s m false 2 = some (4, m.va)) ∧
    (Translated s m1 ∧ misaligned m1 = false ∧ pma s (hartPart s m1.hart) m1.pa = .vacant) ∧ (Translated s m2 ∧ misaligned m2 = false ∧ pma s (hartPart s m2.hart) m2.pa = .io tg) ∧
    (∃ a ∈ m3.x.walk, pma s (hartPart s m3.hart) a ≠ .main) ∧ (∃ a, m4.x.pte = some a ∧ pma s (hartPart s m4.hart) a ≠ .main) ∧
    (Translated s m5 ∧ pma s (hartPart s m5.hart) m5.pa = .main ∧ (m5.va + m5.size - 1) / 4096 ≠ m5.va / 4096 ∧ pma s (hartPart s m5.hart) m5.pa2 ≠ .main) ∧ memTop ≤ memTop :=
  ⟨{ size := 8, pa := 1, va := 1, x := { walk := [8] } }, { size := 8, pa := memTop - 8 }, { size := 8, pa := 0xC0000000, vec := true }, { x := { walk := [memTop] } }, { x := { pte := some memTop } }, { size := 8, pa := 4095, va := 4095, pa2 := 2 ^ 40 }, .rpMem 0 0 false, wR,
    by decide, by decide, by decide, by decide, ⟨memTop, by decide⟩, ⟨memTop, by decide⟩, by decide, by decide⟩
theorem wit_HartRegisterWritesStayInTheHart : ∃ (n j : Nat) (o o1 o2 o3 : HOp), 3 ≤ n ∧ n ≤ 10 ∧ j ≠ 0 ∧ o.ins = .mhpmeventWrite 0 n 0 ∧ o1.ins = .hpmCounterWrite 0 n 0 ∧ o2.ins = .hpmCounterWrite 0 0 0 ∧ o3.ins = .hpmCounterWrite 0 2 0 ∧
    csrTrap (hart wR 0) (0xB00 + n) true = none ∧ csrTrap (hart wR 0) (0x320 + n) true = none ∧ csrTrap (hart wR 0) 0xB00 true = none ∧ csrTrap (hart wR 0) 0xB02 true = none :=
  ⟨10, 1, { ins := .mhpmeventWrite 0 10 0 }, { ins := .hpmCounterWrite 0 10 0 }, { ins := .hpmCounterWrite 0 0 0 }, { ins := .hpmCounterWrite 0 2 0 }, by decide, by decide, by decide, rfl, rfl, rfl, rfl, by decide, by decide, by decide, by decide⟩
theorem wit_RegisterOnlyCommandsFrame : ∃ (c : Instr) (s t : State), CoxIdle s ∧ (∃ (n p : Nat) (v : Word), c = .iofStopCtlWrite n v p ∨ c = .mbxRxirqWrite p v ∨ c = .fltPirqWrite p v ∨ c = .errInjWrite n v p ∨ c = .fltPkgWrite v p) ∧ exec c s = .next t :=
  ⟨.mbxRxirqWrite 11 0, w0, (match exec (.mbxRxirqWrite 11 0) w0 with | .next t => t | _ => w0), by decide, ⟨0, 11, 0, Or.inr (Or.inl rfl)⟩, rfl⟩
theorem wit_LaneCodeDecodes : ∃ d i j : Nat, d < 2 ^ 64 ∧ i < j ∧ j < 8 ∧ i < 64 := ⟨2 ^ 64 - 1, 6, 7, by decide⟩
theorem wit_LaneCodeDecodes_bits : ∃ d i j : Nat, d < 2 ^ 64 ∧ i < j ∧ j < 64 := ⟨0, 62, 63, by decide⟩

end Sys2Proof.Tests
end

section
/-! PROOF. A recorded error as its frame's bank shows it: the count of its class and VALID (R506, R507, Table 15.2). -/

namespace Sys2Proof.Machine

/-- Registers of different offsets have different keys, whatever their frames. -/
theorem regKey_ne_of_off {f g a b : Nat} (ha : a < 65536) (hb : b < 65536) (h : a ≠ b) : regKey f a ≠ regKey g b :=
  fun hk => h (regKey_inj ha hb hk).2

/-- A counter that saturates reads the sum, up to its largest value. -/
theorem fld_addSat_self (s : State) (f off : Nat) {lo w : Nat} (n : Nat) (hw : lo + w ≤ 64) :
    fld (addSat f off lo w n s) f off lo w = min (fld s f off lo w + n) (2 ^ w - 1) := by
  have hpos := Nat.two_pow_pos w
  exact (fld_setFld_self s f off hw).trans (Nat.mod_eq_of_lt (by omega))

/-- A latched record is written to the registers 0x500 to 0x520 alone. -/
theorem reg_latchErr_ne (e : Err) (c : Nat) (ovf : Bool) (s : State) {g a : Nat} (ha : a < 65536) (h : a < 0x500 ∨ 0x520 < a) :
    reg (latchErr e c ovf s) g a = reg s g a := by
  have hne : ∀ b, 0x500 ≤ b → b ≤ 0x520 → regKey g a ≠ regKey e.frame b := fun b h1 h2 => regKey_ne_of_off ha (by omega) (by omega)
  unfold latchErr
  dsimp only
  rw [reg_setReg_ne _ _ (hne 0x520 (by decide) (by decide)), reg_setReg_ne _ _ (hne 0x518 (by decide) (by decide)),
    reg_setReg_ne _ _ (hne 0x510 (by decide) (by decide)), reg_setReg_ne _ _ (hne 0x508 (by decide) (by decide)),
    reg_setReg_ne _ _ (hne 0x500 (by decide) (by decide))]

/-- A latched record is VALID: every other part of the status word is even. -/
theorem fbit_latchErr_valid (e : Err) (c : Nat) (ovf : Bool) (s : State) : fbit (latchErr e c ovf s) e.frame 0x500 0 = true := by
  have hne : ∀ b, b < 65536 → 0x500 ≠ b → regKey e.frame 0x500 ≠ regKey e.frame b := fun b => regKey_ne_of_off (by decide)
  unfold fbit latchErr
  dsimp only
  rw [reg_setReg_ne _ _ (hne 0x520 (by decide) (by decide)), reg_setReg_ne _ _ (hne 0x518 (by decide) (by decide)),
    reg_setReg_ne _ _ (hne 0x510 (by decide) (by decide)), reg_setReg_ne _ _ (hne 0x508 (by decide) (by decide)), reg_setReg_self]
  simp only [BitVec.getLsbD_ofNat, Nat.testBit_zero, Bool.and_eq_true, decide_eq_true_eq]
  omega

/-- An error of a counted class raises the count of its class in its frame's bank. -/
theorem fld_logErr_count {e : Err} {s : State} (h : errClass s e < 3) :
    fld (logErr e s) e.frame 0x528 (16 * errClass s e) 16 = min (fld s e.frame 0x528 (16 * errClass s e) 16 + 1) 0xFFFF := by
  have hne : ∀ g b, b < 65536 → 0x528 ≠ b → regKey e.frame 0x528 ≠ regKey g b := fun g b => regKey_ne_of_off (by decide)
  unfold logErr
  extract_lets c s1 s2 valid latch s3 s4
  have h1 : fld s1 e.frame 0x528 (16 * c) 16 = min (fld s e.frame 0x528 (16 * c) 16 + 1) 0xFFFF := by
    rw [show s1 = _ from if_pos h]; exact fld_addSat_self s _ _ 1 (by omega)
  have h2 : reg s2 e.frame 0x528 = reg s1 e.frame 0x528 := by
    dsimp only [s2]; split
    · exact reg_setFld_ne _ _ _ _ (hne _ _ (by decide) (by decide))
    · rfl
  have h3 : reg s3 e.frame 0x528 = reg s2 e.frame 0x528 := by
    dsimp only [s3]; split
    · exact reg_latchErr_ne _ _ _ _ (by decide) (by decide)
    · exact reg_setFld_ne _ _ _ _ (hne _ _ (by decide) (by decide))
  have h4 : reg s4 e.frame 0x528 = reg s3 e.frame 0x528 := by
    dsimp only [s4]; split
    · exact reg_setFld_ne _ _ _ _ (hne _ _ (by decide) (by decide))
    · rfl
  rw [if_neg (by omega), ← h1]
  unfold fld
  rw [h4, h3, h2]

/-- After an error the bank of its frame holds a record: the one latched, or the one that stood and kept its place. -/
theorem fbit_logErr_valid {e : Err} {s : State} (h : errClass s e ≠ 3) : fbit (logErr e s) e.frame 0x500 0 = true := by
  unfold logErr
  extract_lets c s1 s2 valid latch s3 s4
  have h3 : fbit s3 e.frame 0x500 0 = true := by
    dsimp only [s3]; split
    · exact fbit_latchErr_valid _ _ _ _
    · next hl =>
      have hv : valid = true := by
        cases hb : valid with
        | true => rfl
        | false => exact absurd (show (!valid || outranks s2 e.frame c e.consq) = true by rw [hb]; rfl) hl
      exact (fbit_setFld s2 _ _ 0 (by decide)).trans ((if_neg (by decide)).trans hv)
  have h4 : reg s4 e.frame 0x500 = reg s3 e.frame 0x500 := by
    dsimp only [s4]; split
    · exact reg_setFld_ne _ _ _ _ (regKey_ne_of_off (by decide) (by decide) (by decide))
    · rfl
  rw [if_neg h, ← h3]
  unfold fbit
  rw [h4]

theorem logErr_wires {e : Err} {s : State} (h : e.cls < 3) : (logErr e s).wires = s.wires :=
  congrArg (·.wires) (regsOnly_logErr (errClass_ne_three h))

end Sys2Proof.Machine
end

section
/-! PROOF. A slice that refuses the snoop of another partition (R157). -/

namespace Sys2Proof.Machine

/-- The record of a snoop with a foreign PART: SNP_PART, a UCR, in the die's fault logger (R157). -/
def snpPartErr (d k : Nat) (f : Flit) (s : State) : Err :=
  { frame := frDlog d, ty := 0x06, cls := 1, part := diePart s d, addr := some f.addr, agent := some f.src, fpart := f.part, info := 64 + k }

@[simp] theorem snpPartErr_cls (d k : Nat) (f : Flit) (s : State) : (snpPartErr d k f s).cls = 1 := rfl

@[simp] theorem errClass_snpPartErr (d k : Nat) (f : Flit) (s t : State) : errClass t (snpPartErr d k f s) = 1 := rfl

/-- A foreign snoop is answered I with FWD and WB clear, and recorded; nothing else happens. -/
theorem snpTake_foreign {d : Nat} (k : Nat) {f : Flit} {s : State} (h : (die s d).asg ≠ some f.part) :
    snpTake d k f s = logErr (snpPartErr d k f s) (snpAnswer d k f .i false false s) :=
  if_pos h

/-- A region snoop of another partition is taken no other way than a line snoop. -/
theorem sliceSnoop_foreign {d : Nat} (k : Nat) {f : Flit} {s : State} (h : (die s d).asg ≠ some f.part) :
    sliceSnoop d k f s = sliceRun d k (snpTake d k f s) :=
  if_neg fun hr => h hr.2

/-- The answer to a snoop goes onto the wires as one flit. -/
theorem snpAnswer_wires (d k : Nat) (f : Flit) (st : St) (fwd wb : Bool) (s : State) :
    (snpAnswer d k f st fwd wb s).wires = s.wires ++ [{ rsp oSnpRsp (sliceAgent d k) f.src f.txn f with st := st, fwdd := fwd, wb := wb }] :=
  rfl

/-- Settles O51: the refusal is one flit sent and one UCR recorded (`snpTake_foreign`), and each clause reads one of the two. -/
theorem sliceRefusesForeignSnoops : Obligations.SliceRefusesForeignSnoops := by
  refine ⟨fun d k f s h => sliceSnoop_foreign k h, ?_⟩
  rintro d k f s _ h rfl
  rw [snpTake_foreign k h]
  have hcls : (snpPartErr d k f s).cls < 3 := by simp
  refine ⟨?wires, ?count, ?valid, ?slices, ?harts, ?mem⟩
  case wires => rw [logErr_wires hcls, snpAnswer_wires]
  case count => exact fld_logErr_count (e := snpPartErr d k f s) (by simp)
  case valid => exact fbit_logErr_valid (e := snpPartErr d k f s) (by simp)
  case slices => exact logErr_slices hcls
  case harts => exact logErr_harts hcls
  case mem => exact logErr_mem hcls

end Sys2Proof.Machine
end

section
/-! PROOF. A switch of the routes, and a stop taken out of service, while the old epoch drains (R244 to R246, R249). -/

namespace Sys2Proof.Machine

/-! ### Writes of the fabric frame -/

/-- Only PART 15 sees the fabric frame (R249). -/
theorem seesFrame_iof {p : Nat} (s : State) (hp : p < 12) : seesFrame s p frIof = false := by
  have hp15 : p ≠ 15 := by omega
  simp [seesFrame, frameKind_iof, hp15]

/-- A partition's write of the fabric frame has no effect. -/
theorem wrAs_iof_partition {p : Nat} (off v : Nat) (s : State) (hp : p < 12) : wrAs p frIof off v s = s := by
  have hunseen : p < 15 ∧ seesFrame s p frIof = false := ⟨by omega, seesFrame_iof s hp⟩
  unfold wrAs drsWrite
  rw [if_pos (.inl hp)]
  exact if_pos hunseen

/-- A write of the fabric frame with PART 15 reaches its registers. -/
theorem wrAs_iof_system (off v : Nat) (s : State) : wrAs 15 frIof off v s = regWrite 15 frIof off v s := by
  rw [wrAs_may (.inl rfl), drsWrite_reg frameKind_iof (.inl rfl) (by decide) (by decide)]

/-- The Cox's write of SWITCH. -/
theorem wrAs_iof_switch (s : State) : wrAs 15 frIof 0 1 s = epochSwitch s :=
  wrAs_iof_system 0 1 s

/-- The Cox's write of a stop's control register. -/
theorem wrAs_iof_stopCtl {stop : Nat} (v : Nat) (s : State) (h : stop < 96) :
    wrAs 15 frIof (0x100 + 8 * stop) v s = stopWrite stop v s := by
  have hctl : 0x100 ≤ 0x100 + 8 * stop ∧ 0x100 + 8 * stop < 0x400 ∧ (0x100 + 8 * stop) % 8 = 0 := by omega
  have hidx : (0x100 + 8 * stop - 0x100) / 8 = stop := by omega
  have hinj : ¬(hasErrBank (frameKind frIof).1 = true ∧ 0x100 + 8 * stop = 0x530) := by simp [frameKind_iof, hasErrBank]
  have hframe : frIof ≠ frBmc := by decide
  rw [wrAs_iof_system]
  unfold regWrite
  simp only [if_neg hframe]
  rw [if_neg (by simp), if_neg (by simp), if_neg hinj]
  simp only [frameKind_iof]
  rw [if_neg (by omega), if_pos hctl, hidx]

/-! ### What a write of SWITCH or DISABLED does -/

/-- While the old epoch drains, SWITCH sets REFUSED and does nothing else (R244). -/
theorem epochSwitch_undrained {s : State} (h : oldCnt s ≠ 0) : epochSwitch s = setFld frIof 0x008 1 1 1 s :=
  if_pos h

/-- Once it has drained, SWITCH exchanges the banks and may change what each partition sees (R244, R307); nothing else. -/
theorem epochSwitch_drained {s : State} (h : oldCnt s = 0) :
    ∃ v, epochSwitch s = { setFld frIof 0x008 0 1 (1 - bank s) s with vis := v } := by
  unfold epochSwitch
  rw [if_neg (not_not_intro h)]
  extract_lets n r u
  by_cases hw : r.written = true
  · exact ⟨r.vis, if_pos hw⟩
  · exact ⟨s.vis, if_neg hw⟩

/-- While the old epoch drains, DISABLED sets REFUSED and does nothing else (R246). -/
theorem stopWrite_disabled_undrained {t v : Nat} {s : State} (ht : t < 96) (hv : v % 4 = 2) (h : oldCnt s ≠ 0) :
    stopWrite t v s = setFld frIof 0x008 1 1 1 s := by
  unfold stopWrite
  rw [if_neg (by omega), if_pos ⟨hv, h⟩]
  rfl

/-- The bank in force after the bank field has been written. -/
theorem bank_setFld (n : Nat) (s : State) : bank (setFld frIof 0x008 0 1 n s) = n % 2 :=
  fld_setFld_self s frIof 0x008 (by decide)

/-! ### The commands -/

/-- A write of SWITCH is a write of the fabric frame's first register. -/
theorem exec_switch (p : Nat) (s : State) : exec (.switch p) s = act (fun u => wrAs p frIof 0 1 u) s := rfl

theorem exec_switch_system {s : State} (h : Live s) : exec (.switch 15) s = .next (after (epochSwitch s)) := by
  rw [exec_switch, act_live h, wrAs_iof_switch]

theorem exec_switch_partition {p : Nat} {s : State} (h : Live s) (hp : p < 12) : exec (.switch p) s = .next (after s) := by
  rw [exec_switch, act_live h, wrAs_iof_partition 0 1 s hp]

/-- A write of a stop's control register reaches a stop that is there. -/
theorem exec_stopCtl (stop : Nat) (v : Word) (p : Nat) (s : State) :
    exec (.iofStopCtlWrite stop v p) s = act (fun u => if stop < 96 then wrAs p frIof (0x100 + 8 * stop) v.toNat u else u) s := rfl

theorem exec_stopCtl_system {stop : Nat} (v : Word) {s : State} (h : Live s) (hs : stop < 96) :
    exec (.iofStopCtlWrite stop v 15) s = .next (after (stopWrite stop v.toNat s)) := by
  rw [exec_stopCtl, act_live h, if_pos hs, wrAs_iof_stopCtl v.toNat s hs]

/-- A switch with the Cox at rest and the old epoch drained: the banks exchanged, what each partition sees, and the alert pins. -/
theorem exec_switch_drained {s : State} (h : Live s) (hc : CoxIdle s) (ho : oldCnt s = 0) :
    ∃ v, exec (.switch 15) s = .next (settle { setFld frIof 0x008 0 1 (1 - bank s) s with vis := v }) := by
  obtain ⟨v, hv⟩ := epochSwitch_drained ho
  have hidle : CoxIdle (epochSwitch s) := by rw [hv]; exact hc
  exact ⟨v, by rw [exec_switch_system h, after_idle hidle, hv]⟩

/-- Settles O52: each command is its register's write (`exec_switch_system`, `exec_stopCtl_system`), which the old epoch's count refuses
or lets through. -/
theorem routesSwitchWhenDrained : Obligations.RoutesSwitchWhenDrained := by
  refine ⟨?refused, ?switched, ?answers, ?disabled, ?partition⟩
  case refused =>
    intro s hl ho
    rw [exec_switch_system hl, epochSwitch_undrained ho]
  case switched =>
    intro s t hl hc ho ht
    obtain ⟨v, hv⟩ := exec_switch_drained hl hc ho
    obtain rfl : settle _ = t := Host.Outcome.next.inj (hv.symm.trans ht)
    have hbank : (1 - bank s) % 2 = 1 - bank s := Nat.mod_eq_of_lt (by omega)
    exact ⟨(bank_setFld (1 - bank s) s).trans hbank, rfl, rfl, rfl, rfl⟩
  case answers =>
    intro s hl hc ho
    obtain ⟨v, hv⟩ := exec_switch_drained hl hc ho
    exact ⟨_, hv⟩
  case disabled =>
    intro stop s hl hs ho
    rw [exec_stopCtl_system _ hl hs, stopWrite_disabled_undrained hs rfl ho]
  case partition =>
    intro p s hl hp
    exact exec_switch_partition hl hp

end Sys2Proof.Machine
end

section
/-! PROOF. The counts of a bank after an error is recorded (R503, R506, Table 15.2). -/

namespace Sys2Proof.Machine

theorem reg_ite {c : Prop} [Decidable c] {t u : State} {g a : Nat} {w : Word} (ht : reg t g a = w) (hu : reg u g a = w) :
    reg (if c then t else u) g a = w := by
  split <;> assumption

/-- A fence writes the control register of its port's frame alone. -/
theorem reg_hardFence_ne (n : Nat) (s : State) {g a : Nat} (ha : a < 65536) (h : a ≠ 0x600) : reg (hardFence n s) g a = reg s g a :=
  reg_setFld_ne s _ _ _ (regKey_ne_of_off ha (by decide) h)

/-- The response to a UCP writes `FLT_PKG` and the fence control registers alone. -/
theorem reg_ucpResponse_ne (s : State) {g a : Nat} (ha : a < 65536) (hpkg : a ≠ 0) (hfence : a ≠ 0x600) :
    reg (ucpResponse s) g a = reg s g a :=
  List.foldlRecOn (motive := fun t => reg t g a = reg s g a) _ _
    (reg_setFld_ne s _ _ _ (regKey_ne_of_off ha (by decide) hpkg))
    fun t ht n _ => reg_ite ((reg_hardFence_ne n t ha hfence).trans ht) ht

/-- The count register as an error's own count leaves it: no later step of recording the error writes it. -/
theorem reg_logErr_count (e : Err) (s : State) (g : Nat) :
    reg (logErr e s) g 0x528 = reg (if errClass s e < 3 then addSat e.frame 0x528 (16 * errClass s e) 16 1 s else s) g 0x528 := by
  have hne : ∀ f b, b < 65536 → 0x528 ≠ b → regKey g 0x528 ≠ regKey f b := fun f b => regKey_ne_of_off (by decide)
  unfold logErr
  extract_lets c s1 s2 valid latch s3 s4
  have hpkgCount : reg s2 g 0x528 = reg s1 g 0x528 := reg_ite (reg_setFld_ne s1 _ _ _ (hne _ _ (by decide) (by decide))) rfl
  have hrecord : reg s3 g 0x528 = reg s2 g 0x528 :=
    reg_ite (reg_latchErr_ne _ _ _ _ (by decide) (by decide)) (reg_setFld_ne s2 _ _ _ (hne _ _ (by decide) (by decide)))
  have halert : reg s4 g 0x528 = reg s3 g 0x528 := reg_ite (reg_setFld_ne s3 _ _ _ (hne _ _ (by decide) (by decide))) rfl
  have hs4 : reg s4 g 0x528 = reg s1 g 0x528 := halert.trans (hrecord.trans hpkgCount)
  exact reg_ite ((reg_ucpResponse_ne s4 (by decide) (by decide) (by decide)).trans hs4) hs4

/-- A field apart from a counter that saturates keeps its value. -/
theorem fld_addSat_ne (s : State) (f off : Nat) {lo w a b : Nat} (n : Nat) (hw : lo + w ≤ 64) (hd : a + b ≤ lo ∨ lo + w ≤ a) :
    fld (addSat f off lo w n s) f off a b = fld s f off a b :=
  fld_setFld_ne s f off hw hd

/-- The counts of the classes other than the one recorded stay. -/
theorem fld_logErr_otherCount {e : Err} {s : State} (h : errClass s e < 3) {c : Nat} (hne : c ≠ errClass s e) :
    fld (logErr e s) e.frame 0x528 (16 * c) 16 = fld s e.frame 0x528 (16 * c) 16 := by
  rw [← fld_addSat_ne s e.frame 0x528 (lo := 16 * errClass s e) (w := 16) 1 (by omega) (by omega)]
  unfold fld
  rw [reg_logErr_count, if_pos h]

theorem errClass_of_ucp {e : Err} (s : State) (h : e.cls = 3) : errClass s e = 3 := by
  unfold errClass
  rw [if_neg (by omega), h]

/-- A UCP leaves every count register. -/
theorem reg_logErr_count_ucp {e : Err} (s : State) (h : e.cls = 3) (g : Nat) : reg (logErr e s) g 0x528 = reg s g 0x528 := by
  rw [reg_logErr_count, errClass_of_ucp s h, if_neg (by decide)]

/-- Settles O47: the recorded class's count is `fld_logErr_count`; the other counts are other fields of the one register that counting
writes, and a UCP skips that write. -/
theorem errorsAreCounted : Obligations.ErrorsAreCounted := by
  refine ⟨?counted, ?ucp⟩
  case counted =>
    intro e s _ h
    exact ⟨fld_logErr_count h, fun c _ hne => fld_logErr_otherCount h hne⟩
  case ucp =>
    intro e s c h _
    unfold fld
    rw [reg_logErr_count_ucp s h]

end Sys2Proof.Machine
end

section
/-! PROOF. How every command ends: the alert pins follow the registers of the fault window (R522 to R524), whatever the command did. -/

namespace Sys2Proof.Machine

/-- The alert outputs that a command's end gives agree with the fault window. -/
theorem alertsAgree_settle (s : State) : AlertsAgree (settle s) :=
  ⟨rfl, rfl, fun hup hucp => by
    have hup' : s.pins.everUp = true := hup
    have hucp' : fbit s frFlt 0 0 = true := hucp
    simp [settle, hup', hucp']⟩

/-- An outcome that a command's end gives: a next state with the alert pins settled. -/
def Ends (o : Out) : Prop := ∃ u, o = done u

theorem ends_done (u : State) : Ends (done u) := ⟨u, rfl⟩

theorem ends_act (g : State → State) (s : State) : Ends (act g s) := by
  unfold act
  split <;> exact ends_done _

theorem ends_pinAct (g : State → State) (s : State) : Ends (pinAct g s) := ends_done _

theorem ends_vfAct (part v : Nat) (g : State → State) (s : State) : Ends (vfAct part v g s) := ends_act _ _

theorem ends_portAct (rp : Nat) (g : State → State) (s : State) : Ends (portAct rp g s) := ends_act _ _

theorem ends_pairAct (g : State → State) (s : State) : Ends (pairAct g s) := ends_act _ _

theorem ends_mgrAct (op : Nat) (c : MgrCmd) (s : State) : Ends (mgrAct op c s) := ends_act _ _

theorem Ends.next {o : Out} (h : Ends o) : ∃ t, o = .next t :=
  let ⟨u, hu⟩ := h
  ⟨settle u, hu⟩

theorem Ends.alertsAgree {o : Out} {t : State} (h : Ends o) (ho : o = .next t) : AlertsAgree t := by
  obtain ⟨u, rfl⟩ := h
  obtain rfl : settle u = t := Host.Outcome.next.inj ho
  exact alertsAgree_settle u

/-- An outcome of a controller's access: it ends as other commands do, or the location holds no cell. -/
def EndsOrNoCell (o : Out) : Prop := Ends o ∨ o = .fault .noCell

theorem EndsOrNoCell.next {o : Out} (h : EndsOrNoCell o) : (∃ t, o = .next t) ∨ o = .fault .noCell := h.imp_left Ends.next

theorem EndsOrNoCell.alertsAgree {o : Out} {t : State} (h : EndsOrNoCell o) (ho : o = .next t) : AlertsAgree t :=
  h.elim (·.alertsAgree ho) fun hc => nomatch hc.symm.trans ho

theorem memRead_ends (pa : Nat) (err : CellErr) (s : State) : EndsOrNoCell (memRead pa err s) := by
  unfold memRead
  split
  · exact .inl (ends_done _)
  · split
    · exact .inl (ends_done _)
    · split
      · exact .inl (ends_done _)
      · split
        · exact .inr rfl
        · dsimp only
          split <;> exact .inl (ends_done _)

theorem memWrite_ends (pa : Nat) (s : State) : EndsOrNoCell (memWrite pa s) := by
  unfold memWrite
  split
  · exact .inl (ends_done _)
  · split
    · exact .inl (ends_done _)
    · split
      · exact .inl (ends_done _)
      · split
        · exact .inr rfl
        · split <;> exact .inl (ends_done _)

/-- What a memory command does beside its access ends in the same way. -/
theorem actOut_ends {g : State → Out} (h : ∀ s, EndsOrNoCell (g s)) (s : State) : EndsOrNoCell (actOut g s) := by
  unfold actOut
  split
  · split
    · exact .inl (ends_done _)
    · exact h s
  · exact .inl (ends_done _)

theorem exec_memoryRead_ends (pa : Nat) (err : CellErr) (s : State) : EndsOrNoCell (exec (.memoryRead pa err) s) :=
  actOut_ends (memRead_ends pa err) s

theorem exec_memoryWrite_ends (pa : Nat) (s : State) : EndsOrNoCell (exec (.memoryWrite pa) s) :=
  actOut_ends (memWrite_ends pa) s

/-- Every command but a controller's access ends with the alert pins settled: it is `act` of its operation, or `done` of it. -/
theorem exec_ends (c : Instr) (s : State) (hr : ∀ pa e, c ≠ .memoryRead pa e) (hw : ∀ pa, c ≠ .memoryWrite pa) : Ends (exec c s) := by
  cases c
  all_goals unfold exec
  case memoryRead pa e => exact absurd rfl (hr pa e)
  case memoryWrite pa => exact absurd rfl (hw pa)
  case load | store | amo | lr | sc | amocas | fence | fenceI | sfenceWInval | sfenceInvalIr | cboClean | cboFlush | cboZero |
      prefetchI | prefetchR | prefetchW | wrsNto | wrsSto | wrsStoTimeout | storeBufferDrain | lrDeferExpire | vendorCsrAccess |
      rnbuoyctlWrite | mhpmeventWrite | hpmCounterWrite | alwaysOnRailRemoved | wfi | cboInval | l1Fill | buoyPeriod |
      hpmCounterOverflow | interruptUpdate => exact ends_done _
  case pwrokRise | pkgRstNRise | pkgRstNFall | pwrokFall => exact ends_pinAct ..
  case sqTailDoorbell | cqHeadDoorbell | ccEnSet | controllerReset => exact ends_vfAct ..
  case dmaWrite | dmaRead | atomicop | msi | zeroLengthRead | completionTlp | cplTimeout | cxlRdcurr | cxlRdshared | cxlRdown |
      cxlRdownnodata | cxlItomwr | cxlDirtyevict | cxlCleanevict | cxlSnoopTimeout | cxlMemTimeout | linkDownDpc | slotControlWrite |
      slotPinChange | cxlSnoopAnswer | cxlMemAnswer | pcieLinkUp | atsTranslationRequest | pageRequestMessage => exact ends_portAct ..
  case pairHelloSend | pairHello | mirror | bulk | hartFrame | ctrlFrame | bqeFrame | blkFrame | epochEnd | commit | fatal | handover
      | taken | pairFrameReserved | epochClose | ckpt | epochCloseTimeout | sendLogFull | sendLogDrained | autotakeTimeout |
      takeoverStepTimeout => exact ends_pairAct ..
  case partCreate | partStart | partStop | partReset | partDelete | dieEvacuate | dieAdd | slabAssign | slabRelease | rpAssign |
      rpRelease | partQuery | mgrCmdReserved | bhDriveDetach | bhPoolAdd | bhPoolRemove | bhNsCreate | bhNsDelete | bhNsAttach |
      bhNsDetach | bhVfCreate | bhVfDelete | bhVfShare | bhVfFreeze | bhVfSave | bhVfRestore | bhVfThaw | bhDirtyLog | bhFwActivate |
      pairProtect | pairUnprotect | pairSwitch | pairTakeover | pairRelease | pairQuery | rcWrite | rcVerify | rcDisarm | rcRollback |
      rcRead | rcSvnRaise | coxFwActivate | warmStart | logRead | dieBist | linkFull | memTest | rpMargin | wgRecal | l3Bank |
      errInject => exact ends_mgrAct ..
  all_goals exact ends_act _ _

theorem exec_endsOrNoCell (c : Instr) (s : State) : EndsOrNoCell (exec c s) := by
  by_cases hr : ∃ pa e, c = .memoryRead pa e
  · obtain ⟨pa, e, rfl⟩ := hr
    exact exec_memoryRead_ends pa e s
  · by_cases hw : ∃ pa, c = .memoryWrite pa
    · obtain ⟨pa, rfl⟩ := hw
      exact exec_memoryWrite_ends pa s
    · exact .inl (exec_ends c s (fun pa e h => hr ⟨pa, e, h⟩) fun pa h => hw ⟨pa, h⟩)

theorem step_endsOrNoCell (s : State) : EndsOrNoCell (step s) := by
  unfold step
  split
  · exact .inl (ends_done _)
  · exact exec_endsOrNoCell _ _

/-- Settles O5: whatever a step does, its next state comes from `settle` (`step_endsOrNoCell`), which sets the outputs by the registers. -/
theorem alertsFollowTheRegisters : Obligations.AlertsFollowTheRegisters := fun s _ ht => (step_endsOrNoCell s).alertsAgree ht

/-- Settles O8: every command ends as `exec_ends` says, and the two accesses of a controller end so or find no cell. -/
theorem everyCommandAnswers : Obligations.EveryCommandAnswers :=
  ⟨fun c s hr hw => (exec_ends c s hr hw).next, fun pa e s => (exec_memoryRead_ends pa e s).next, fun pa s => (exec_memoryWrite_ends pa s).next⟩

end Sys2Proof.Machine
end

section
/-! PROOF. What a step is (log entries 1 and 8), and the state after reset (log entries 2 and 5). -/

namespace Sys2Proof.Machine

/-- Settles O1: `step` looks at the queue's front. -/
theorem stepTakesFrontCommand : Obligations.StepTakesFrontCommand := by
  intro c rest s h
  unfold step
  rw [h]

theorem step_idle {s : State} (h : s.pending = []) : step s = .next (settle (tick s)) := by
  unfold step
  rw [h, done_eq]

theorem tick_dead {s : State} (h : ¬Live s) : tick s = s := by
  have hoff : s.pins.pwrok = false ∨ s.card.dark = true := by
    cases hp : s.pins.pwrok <;> cases hd : s.card.dark <;> simp_all [Live]
  unfold tick
  rw [if_pos hoff]

theorem tick_k3 {s : State} (h : Live s) (hk : s.card.k3 = true) : tick s = { s with tb := s.tb + 10 } := by
  have hon : ¬(s.pins.pwrok = false ∨ s.card.dark = true) := by simp [h.1, h.2]
  unfold tick
  rw [if_neg hon, if_pos hk]

/-- Settles O2: with an empty queue a step is `tick`, whose first two cases are no power and K3. -/
theorem idleStepPassesANanosecond : Obligations.IdleStepPassesANanosecond := by
  refine ⟨fun s h => step_idle h, fun s h hl => ?_, fun s h hl hk => ?_⟩
  · rw [step_idle h, tick_dead hl]
  · rw [step_idle h, tick_k3 hl hk]

theorem slabEnt_reset (n : Nat) : slabEnt State.reset n = 0 := ite_self _

/-- Settles O3: every table of the reset state is empty, so each read gives its default. -/
theorem resetState : Obligations.ResetState :=
  ⟨⟨rfl, rfl, rfl, rfl, rfl⟩, ⟨rfl, rfl, rfl, rfl, rfl⟩, fun n => congrArg slState (slabEnt_reset n), fun _ _ => rfl, by decide, fun _ => rfl⟩

/-- Settles O4: before the first PWROK the outputs drive nothing. -/
theorem alertsAgreeAtReset : Obligations.AlertsAgreeAtReset := ⟨rfl, rfl, fun hup _ => absurd hup (by decide)⟩

end Sys2Proof.Machine
end

section
/-! PROOF. A flit reads back from its bits (Tables 4.5, 4.6, 4.9, 4.10): the common fields stand below bit 48, and what a network adds is
a number of its own above them. -/

namespace Sys2Proof.Machine

theorem b2n_lt (b : Bool) : b2n b < 2 := by cases b <;> decide

/-- A field as a quotient and a remainder, which linear arithmetic reads. -/
theorem bits_eq_div_mod (n lo w : Nat) : bits n lo w = n / 2 ^ lo % 2 ^ w := by
  rw [bits, Nat.shiftRight_eq_div_pow]

theorem bit_of_bits {n i : Nat} {b : Bool} (h : bits n i 1 = b2n b) : bit n i = b := by
  rw [bits_eq_div_mod] at h
  rw [bit_eq, Nat.testBit_eq_decide_div_mod_eq]
  cases b <;> simp_all [b2n]

theorem stCode_lt (t : St) : t.code < 8 := by cases t <;> decide

theorem stOf_code (t : St) : stOf t.code = t := by cases t <;> rfl

/-! ### The common fields and the payload -/

/-- The common fields lie within their widths. -/
def CommonWf (f : Flit) : Prop := f.op < 64 ∧ f.src < 4096 ∧ f.dst < 4096 ∧ f.txn < 4096 ∧ f.part < 16

theorem commonBits_lt (f : Flit) : commonBits f < 2 ^ 48 := by
  have hepoch := b2n_lt f.epoch
  have hsys := b2n_lt f.sys
  unfold commonBits
  omega

/-- The common fields read back, whatever the payload above them. -/
theorem readCommon_payload {f : Flit} (g : Flit) {n p : Nat} (hn : n = commonBits f + p * 2 ^ 48) (hw : CommonWf f) :
    readCommon n g = { g with op := f.op, src := f.src, dst := f.dst, txn := f.txn, part := f.part, epoch := f.epoch, sys := f.sys } := by
  obtain ⟨hop, hsrc, hdst, htxn, hpart⟩ := hw
  have hepoch := b2n_lt f.epoch
  have hsys := b2n_lt f.sys
  unfold commonBits at hn
  have eop : bits n 0 6 = f.op := by rw [bits_eq_div_mod]; omega
  have esrc : bits n 6 12 = f.src := by rw [bits_eq_div_mod]; omega
  have edst : bits n 18 12 = f.dst := by rw [bits_eq_div_mod]; omega
  have etxn : bits n 30 12 = f.txn := by rw [bits_eq_div_mod]; omega
  have epart : bits n 42 4 = f.part := by rw [bits_eq_div_mod]; omega
  have eepoch : bit n 46 = f.epoch := bit_of_bits (by rw [bits_eq_div_mod]; omega)
  have esys : bit n 47 = f.sys := bit_of_bits (by rw [bits_eq_div_mod]; omega)
  simp only [readCommon, eop, esrc, edst, etxn, epart, eepoch, esys]

/-- A field above the common ones is a field of the payload. -/
theorem bits_payload {f : Flit} {n p : Nat} (hn : n = commonBits f + p * 2 ^ 48) (lo w : Nat) : bits n (48 + lo) w = bits p lo w := by
  have hp : n / 2 ^ 48 = p := by
    have := commonBits_lt f
    omega
  rw [bits_eq_div_mod, bits_eq_div_mod, Nat.pow_add, ← Nat.div_div_eq_div_mul, hp]

theorem bit_payload {f : Flit} {n p : Nat} (hn : n = commonBits f + p * 2 ^ 48) (i : Nat) : bit n (48 + i) = bit p i := by
  have hp : n / 2 ^ 48 = p := by
    have := commonBits_lt f
    omega
  rw [bit_eq, bit_eq, Nat.add_comm, ← Nat.testBit_div_two_pow, hp]

/-! ### Each network -/

/-- A request's payload (Table 4.6). -/
def reqPayload (f : Flit) : Nat :=
  f.addr % 2 ^ 52 + (f.datadst % 4096) * 2 ^ 52 + (f.datatxn % 4096) * 2 ^ 64 + b2n f.rgnok * 2 ^ 76 + b2n f.rsv * 2 ^ 77 + (f.size % 4) * 2 ^ 78

/-- A snoop's payload. -/
def snpPayload (f : Flit) : Nat := f.addr % 2 ^ 52 + (f.fwd % 4096) * 2 ^ 52 + (f.ftxn % 4096) * 2 ^ 64 + b2n f.fcomp * 2 ^ 76

/-- A data header's payload. -/
def datPayload (f : Flit) : Nat :=
  f.st.code + b2n f.rgn * 2 ^ 3 + b2n f.comp * 2 ^ 4 + b2n f.poison * 2 ^ 5 + (f.idx % 64) * 2 ^ 8

theorem flitBits_req {f : Flit} (h : f.net = .req) : flitBits f = commonBits f + reqPayload f * 2 ^ 48 := by
  simp only [flitBits, h, reqPayload]
  omega

theorem flitBits_snp {f : Flit} (h : f.net = .snp) : flitBits f = commonBits f + snpPayload f * 2 ^ 48 := by
  simp only [flitBits, h, snpPayload]
  omega

theorem flitBits_rsp {f : Flit} (h : f.net = .rsp) : flitBits f = commonBits f + rspPayload f * 2 ^ 48 := by
  simp only [flitBits, h]

theorem flitBits_dat {f : Flit} (h : f.net = .dat) : flitBits f = commonBits f + datPayload f * 2 ^ 48 := by
  simp only [flitBits, h, datPayload]
  omega

theorem readFlit_req {f : Flit} (h : f.net = .req) (hc : CommonWf f) (haddr : f.addr < 2 ^ 52) (hdst : f.datadst < 4096)
    (htxn : f.datatxn < 4096) (hsize : f.size < 4) : readFlit (flitBits f) { net := f.net } = carried f := by
  have hn := flitBits_req h
  generalize flitBits f = n at hn
  have hrgnok := b2n_lt f.rgnok
  have hrsv := b2n_lt f.rsv
  have eaddr : bits n 48 52 = f.addr := (bits_payload hn 0 52).trans (by rw [bits_eq_div_mod, reqPayload]; omega)
  have edst : bits n 100 12 = f.datadst := (bits_payload hn 52 12).trans (by rw [bits_eq_div_mod, reqPayload]; omega)
  have etxn : bits n 112 12 = f.datatxn := (bits_payload hn 64 12).trans (by rw [bits_eq_div_mod, reqPayload]; omega)
  have ergnok : bit n 124 = f.rgnok := (bit_payload hn 76).trans (bit_of_bits (by rw [bits_eq_div_mod, reqPayload]; omega))
  have ersv : bit n 125 = f.rsv := (bit_payload hn 77).trans (bit_of_bits (by rw [bits_eq_div_mod, reqPayload]; omega))
  have esize : bits n 126 2 = f.size := (bits_payload hn 78 2).trans (by rw [bits_eq_div_mod, reqPayload]; omega)
  simp only [readFlit, carried, h, readCommon_payload _ hn hc, eaddr, edst, etxn, ergnok, ersv, esize]

theorem readFlit_snp {f : Flit} (h : f.net = .snp) (hc : CommonWf f) (haddr : f.addr < 2 ^ 52) (hfwd : f.fwd < 4096)
    (htxn : f.ftxn < 4096) : readFlit (flitBits f) { net := f.net } = carried f := by
  have hn := flitBits_snp h
  generalize flitBits f = n at hn
  have hfcomp := b2n_lt f.fcomp
  have eaddr : bits n 48 52 = f.addr := (bits_payload hn 0 52).trans (by rw [bits_eq_div_mod, snpPayload]; omega)
  have efwd : bits n 100 12 = f.fwd := (bits_payload hn 52 12).trans (by rw [bits_eq_div_mod, snpPayload]; omega)
  have etxn : bits n 112 12 = f.ftxn := (bits_payload hn 64 12).trans (by rw [bits_eq_div_mod, snpPayload]; omega)
  have efcomp : bit n 124 = f.fcomp := (bit_payload hn 76).trans (bit_of_bits (by rw [bits_eq_div_mod, snpPayload]; omega))
  simp only [readFlit, carried, h, readCommon_payload _ hn hc, eaddr, efwd, etxn, efcomp]

theorem readFlit_dat {f : Flit} (h : f.net = .dat) (hc : CommonWf f) (hidx : f.idx < 64) :
    readFlit (flitBits f) { net := f.net } = carried f := by
  have hn := flitBits_dat h
  generalize flitBits f = n at hn
  have hst := stCode_lt f.st
  have hrgn := b2n_lt f.rgn
  have hcomp := b2n_lt f.comp
  have hpoison := b2n_lt f.poison
  have est : bits n 48 3 = f.st.code := (bits_payload hn 0 3).trans (by rw [bits_eq_div_mod, datPayload]; omega)
  have ergn : bit n 51 = f.rgn := (bit_payload hn 3).trans (bit_of_bits (by rw [bits_eq_div_mod, datPayload]; omega))
  have ecomp : bit n 52 = f.comp := (bit_payload hn 4).trans (bit_of_bits (by rw [bits_eq_div_mod, datPayload]; omega))
  have epoison : bit n 53 = f.poison := (bit_payload hn 5).trans (bit_of_bits (by rw [bits_eq_div_mod, datPayload]; omega))
  have eidx : bits n 56 6 = f.idx := (bits_payload hn 8 6).trans (by rw [bits_eq_div_mod, datPayload]; omega)
  simp only [readFlit, carried, h, readCommon_payload _ hn hc, est, stOf_code, ergn, ecomp, epoison, eidx]

/-! ### Responses: the opcode says which fields the payload holds (Table 4.9) -/

/-- The payload of Comp and CompAck reads back. -/
theorem compPayload_reads {st : St} {rgn : Bool} {p : Nat} (hp : p = st.code + b2n rgn * 8) : stOf (p % 8) = st ∧ bit p 3 = rgn := by
  have hst := stCode_lt st
  have hrgn := b2n_lt rgn
  refine ⟨?_, bit_of_bits (by rw [bits_eq_div_mod]; omega)⟩
  rw [show p % 8 = st.code by omega, stOf_code]

/-- The payload of SnpRsp reads back. -/
theorem snpRspPayload_reads {st : St} {fwdd wb : Bool} {ndata p : Nat} (hnd : ndata < 128)
    (hp : p = st.code + b2n fwdd * 8 + b2n wb * 16 + (ndata % 128) * 32) :
    stOf (p % 8) = st ∧ bit p 3 = fwdd ∧ bit p 4 = wb ∧ bits p 5 7 = ndata := by
  have hst := stCode_lt st
  have hfwdd := b2n_lt fwdd
  have hwb := b2n_lt wb
  refine ⟨?_, bit_of_bits (by rw [bits_eq_div_mod]; omega), bit_of_bits (by rw [bits_eq_div_mod]; omega), by rw [bits_eq_div_mod]; omega⟩
  rw [show p % 8 = st.code by omega, stOf_code]

/-- A one-bit payload reads back. -/
theorem bit_b2n (b : Bool) : bit (b2n b) 0 = b := by cases b <;> rfl

theorem rspPayload_lt {f : Flit} : rspPayload f < 2 ^ 16 := by
  have hst := stCode_lt f.st
  have hrgn := b2n_lt f.rgn
  have hfwdd := b2n_lt f.fwdd
  have hwb := b2n_lt f.wb
  have hstale := b2n_lt f.stale
  have herr := b2n_lt f.err
  unfold rspPayload
  repeat' split
  all_goals omega

theorem readFlit_rsp {f : Flit} (h : f.net = .rsp) (hc : CommonWf f) (hnd : f.ndata < 128) (hcause : f.cause < 32) :
    readFlit (flitBits f) { net := f.net } = carried f := by
  have hn := flitBits_rsp h
  generalize flitBits f = n at hn
  have hp16 : bits n 48 16 = rspPayload f := (bits_payload hn 0 16).trans (by
    rw [bits_eq_div_mod, Nat.pow_zero, Nat.div_one, Nat.mod_eq_of_lt rspPayload_lt])
  simp only [readFlit, carried, h, readCommon_payload _ hn hc, hp16]
  generalize hp : rspPayload f = p
  unfold rspPayload at hp
  by_cases hcomp : f.op = oComp ∨ f.op = oCompAck
  · obtain ⟨est, ergn⟩ := compPayload_reads (hp.symm.trans (if_pos hcomp))
    simp only [if_pos hcomp, est, ergn]
  simp only [if_neg hcomp] at hp ⊢
  by_cases hsnp : f.op = oSnpRsp
  · obtain ⟨est, efwdd, ewb, end_⟩ := snpRspPayload_reads hnd (hp.symm.trans (if_pos hsnp))
    simp only [if_pos hsnp, est, efwdd, ewb, end_]
  simp only [if_neg hsnp] at hp ⊢
  by_cases hevict : f.op = oEvictAck
  · simp only [if_pos hevict] at hp ⊢
    rw [← hp, bit_b2n]
  simp only [if_neg hevict] at hp ⊢
  by_cases hfault : f.op = oFault
  · simp only [if_pos hfault] at hp ⊢
    rw [← hp, Nat.mod_mod, Nat.mod_eq_of_lt hcause]
  simp only [if_neg hfault] at hp ⊢
  by_cases hio : f.op = oIoComp
  · simp only [if_pos hio] at hp ⊢
    rw [← hp, bit_b2n]
  · simp only [if_neg hio]

/-- Settles O6: each network's fields read back (`readFlit_req` and its like). -/
theorem flitBitsRoundTrip : Obligations.FlitBitsRoundTrip := by
  intro f hwf
  simp only [flitWf, Bool.and_eq_true, decide_eq_true_eq, and_assoc] at hwf
  obtain ⟨hop, hsrc, hdst, htxn, hpart, hnet⟩ := hwf
  have hc : CommonWf f := ⟨hop, hsrc, hdst, htxn, hpart⟩
  cases h : f.net <;> simp only [h, Bool.and_eq_true, decide_eq_true_eq, and_assoc] at hnet <;> rw [← h]
  case req => obtain ⟨haddr, hdd, hdt, hsize⟩ := hnet; exact readFlit_req h hc haddr hdd hdt hsize
  case snp => obtain ⟨haddr, hfwd, hft⟩ := hnet; exact readFlit_snp h hc haddr hfwd hft
  case rsp => obtain ⟨hnd, hcause⟩ := hnet; exact readFlit_rsp h hc hnd hcause
  case dat => exact readFlit_dat h hc hnet

end Sys2Proof.Machine
end

section
/-! PROOF. The SECDED (72,64) code of a lane (R190, Table 6.4): the check bits are linear in the data, so a syndrome is the sum of the
columns of the inverted bits; every column has odd weight, and so a sum of two has not. -/

namespace Sys2Proof.Machine

/-! ### Weight and parity -/

theorem popcount_succ (w n : Nat) : popcount (w + 1) n = popcount w n + b2n (n.testBit w) := by
  unfold popcount b2n
  rw [List.range_succ, List.filter_append, List.length_append, List.filter_cons, List.filter_nil]
  cases n.testBit w <;> rfl

/-- The weight of a sum has the parity of the sum of the weights. -/
theorem popcount_xor_parity (w a b : Nat) : popcount w (a ^^^ b) % 2 = (popcount w a + popcount w b) % 2 := by
  induction w with
  | zero => rfl
  | succ w ih =>
    rw [popcount_succ, popcount_succ, popcount_succ, Nat.testBit_xor]
    cases a.testBit w <;> cases b.testBit w <;> simp only [b2n, Bool.xor_false, Bool.xor_true, Bool.not_true, Bool.not_false, if_true,
      if_false, Bool.false_eq_true] <;> omega

/-! ### The columns -/

/-- The columns of Table 6.4 as numbers. -/
def columns : List Nat :=
  [7, 11, 13, 14, 19, 21, 22, 25, 26, 28, 35, 37, 38, 41, 42, 44, 49, 50, 52, 56, 67, 69, 70, 73, 74, 76, 81, 82, 84, 88, 97, 98, 100, 104,
   112, 131, 133, 134, 137, 138, 140, 145, 146, 148, 152, 161, 162, 164, 168, 176, 193, 194, 196, 200, 208, 224, 0x1F, 0x2F, 0x37, 0x3B,
   0x3D, 0x3E, 0x4F, 0x57]

theorem columns_eq : weight3 ++ [0x1F, 0x2F, 0x37, 0x3B, 0x3D, 0x3E, 0x4F, 0x57] = columns := by decide

theorem col_eq (i : Nat) : col i = columns.getD i 0 := by rw [col, columns_eq]

theorem col_odd {i : Nat} (h : i < 64) : popcount 8 (col i) % 2 = 1 := by
  rw [col_eq]
  revert i
  decide

theorem col_lt {i : Nat} (h : i < 64) : col i < 256 := by
  rw [col_eq]
  revert i
  decide

/-- The columns differ, so the first that a search meets is the one sought. -/
theorem find_col {i : Nat} (h : i < 64) : (List.range 64).find? (fun k => col k = col i) = some i := by
  simp only [col_eq]
  revert i
  decide

theorem col_inj {i j : Nat} (hi : i < 64) (hj : j < 64) (h : col i = col j) : i = j :=
  Option.some.inj ((find_col hi).symm.trans (h ▸ find_col hj))

/-- A check bit stands alone in its place. -/
theorem pow_odd {j : Nat} (h : j < 8) : popcount 8 (2 ^ j) = 1 := by
  revert j
  decide

/-- No column is a single check bit, nor the sum of none. -/
theorem col_weight {i : Nat} (h : i < 64) : popcount 8 (col i) ≠ 1 := by
  rw [col_eq]
  revert i
  decide

/-! ### The check bits are linear -/

/-- One step of the sum: the column of a bit that is set. -/
def addCol (d a i : Nat) : Nat := if bit d i then a ^^^ col i else a

theorem checkBits_eq (d : Nat) : checkBits d = (List.range 64).foldl (addCol d) 0 := rfl

theorem addCol_xor (d e a b i : Nat) : addCol (d ^^^ e) (a ^^^ b) i = addCol d a i ^^^ addCol e b i := by
  have hbit : bit (d ^^^ e) i = (bit d i ^^ bit e i) := Nat.testBit_xor d e i
  unfold addCol
  rw [hbit]
  cases bit d i <;> cases bit e i <;> simp only [Bool.xor_false, Bool.xor_true, Bool.not_true, Bool.not_false, if_true, if_false,
    Bool.false_eq_true]
  · exact Nat.xor_assoc a b (col i)
  · rw [Nat.xor_assoc, Nat.xor_comm b, ← Nat.xor_assoc]
  · rw [Nat.xor_assoc, ← Nat.xor_assoc (col i), Nat.xor_comm (col i) b, Nat.xor_assoc b, Nat.xor_self, Nat.xor_zero]

theorem foldl_addCol_xor (l : List Nat) (d e a b : Nat) :
    l.foldl (addCol (d ^^^ e)) (a ^^^ b) = l.foldl (addCol d) a ^^^ l.foldl (addCol e) b := by
  induction l generalizing a b with
  | nil => rfl
  | cons i l ih => rw [List.foldl_cons, List.foldl_cons, List.foldl_cons, addCol_xor, ih]

theorem checkBits_xor (d e : Nat) : checkBits (d ^^^ e) = checkBits d ^^^ checkBits e :=
  foldl_addCol_xor (List.range 64) d e 0 0

/-- The check bits of one data bit are its column. -/
theorem checkBits_pow {i : Nat} (h : i < 64) : checkBits (2 ^ i) = col i := by
  rw [checkBits_eq]
  have hstep : addCol (2 ^ i) = fun a k => if k = i then a ^^^ col k else a := by
    funext a k
    unfold addCol
    rw [bit_eq, Nat.testBit_two_pow]
    simp only [decide_eq_true_eq, eq_comm (a := i)]
  rw [hstep]
  simp only [col_eq]
  clear hstep
  revert i
  decide

theorem checkBits_lt (d : Nat) : checkBits d < 256 := by
  rw [checkBits_eq]
  refine List.foldlRecOn (motive := fun a => a < 256) _ _ (by decide) fun a ha i hi => ?_
  unfold addCol
  split
  · exact Nat.xor_lt_two_pow (n := 8) ha (col_lt (List.mem_range.mp hi))
  · exact ha

/-! ### Syndromes -/

/-- The syndrome of data and check bits as sent, each with errors added, is the sum of the errors' own. -/
theorem syndrome_errors (d x : Nat) {y : Nat} (hy : y < 256) : syndrome (d ^^^ x) (checkBits d ^^^ y) = checkBits x ^^^ y := by
  have hlt : checkBits d ^^^ y < 256 := Nat.xor_lt_two_pow (n := 8) (checkBits_lt d) hy
  unfold syndrome
  rw [Nat.mod_eq_of_lt hlt, checkBits_xor, Nat.xor_comm (checkBits d), Nat.xor_assoc, ← Nat.xor_assoc (checkBits d), Nat.xor_self,
    Nat.zero_xor, Nat.xor_comm]

theorem syndrome_dataErrors (d x : Nat) : syndrome (d ^^^ x) (checkBits d) = checkBits x := by
  have h := syndrome_errors d x (y := 0) (by decide)
  rwa [Nat.xor_zero, Nat.xor_zero] at h

theorem syndrome_checkErrors (d : Nat) {y : Nat} (hy : y < 256) : syndrome d (checkBits d ^^^ y) = y := by
  have h := syndrome_errors d 0 hy
  rwa [Nat.xor_zero, show checkBits 0 = 0 from rfl, Nat.zero_xor] at h

theorem syndrome_sent (d : Nat) : syndrome d (checkBits d) = 0 := by
  have h := syndrome_dataErrors d 0
  rwa [Nat.xor_zero] at h

/-! ### Decoding -/

theorem decodeSyn_check {j : Nat} (h : j < 8) : decodeSyn (2 ^ j) = .check j := by
  revert j
  decide

theorem col_ne_zero {i : Nat} (h : i < 64) : col i ≠ 0 := fun h0 => by
  have := col_odd h
  rw [h0] at this
  exact absurd this (by decide)

theorem decodeSyn_col {i : Nat} (h : i < 64) : decodeSyn (col i) = .fixed i := by
  unfold decodeSyn
  rw [if_neg (col_ne_zero h), if_neg (col_weight h), find_col h]

/-- A syndrome of even weight is no column and no check bit. -/
theorem decodeSyn_even {s : Nat} (h0 : s ≠ 0) (h : popcount 8 s % 2 = 0) : decodeSyn s = .bad := by
  have hnone : (List.range 64).find? (fun i => col i = s) = none := by
    rw [List.find?_eq_none]
    intro i hi hs
    have hodd := col_odd (List.mem_range.mp hi)
    rw [of_decide_eq_true hs] at hodd
    omega
  unfold decodeSyn
  rw [if_neg h0, if_neg (by omega), hnone]

/-- An exclusive or with the same number on the right tells two numbers apart. -/
theorem nat_xor_right_cancel {a b c : Nat} (h : a ^^^ c = b ^^^ c) : a = b := by
  have hx := congrArg (· ^^^ c) h
  simpa only [Nat.xor_assoc, Nat.xor_self, Nat.xor_zero] using hx

/-- The sum of two different numbers of odd weight is uncorrectable. -/
theorem decodeSyn_two {a b : Nat} (ha : popcount 8 a % 2 = 1) (hb : popcount 8 b % 2 = 1) (h : a ≠ b) : decodeSyn (a ^^^ b) = .bad := by
  refine decodeSyn_even (fun h0 => h (nat_xor_right_cancel (h0.trans (Nat.xor_self b).symm))) ?_
  rw [popcount_xor_parity]
  omega

/-- An inverted bit inverted again. -/
theorem correct_fixed (d i : Nat) : correct (d ^^^ 2 ^ i) (.fixed i) = d := by
  apply Nat.eq_of_testBit_eq
  intro k
  show (setBits _ i 1 _).testBit k = _
  rw [testBit_setBits, bit_eq, Nat.testBit_xor, Nat.testBit_xor, Nat.testBit_two_pow_self]
  split
  · obtain rfl : k = i := by omega
    cases d.testBit k <;> simp
  · rw [Nat.testBit_two_pow_of_ne (by omega), Bool.xor_false]

theorem pow_lt_check {j : Nat} (h : j < 8) : 2 ^ j < 256 := Nat.pow_lt_pow_right (by decide) h

/-- Settles O7: each syndrome is the sum of the columns of the inverted bits (`syndrome_errors`), which `decodeSyn_two` reads for two. -/
theorem laneCodeDecodes : Obligations.LaneCodeDecodes := by
  refine ⟨?sent, ?check, ?data, ?twoData, ?dataCheck, ?twoCheck⟩
  case sent =>
    intro d _
    rw [syndrome_sent]
    decide
  case check =>
    intro d j _ hj
    rw [syndrome_checkErrors d (pow_lt_check hj), decodeSyn_check hj]
  case data =>
    intro d i _ hi
    rw [syndrome_dataErrors, checkBits_pow hi, decodeSyn_col hi]
    exact ⟨rfl, correct_fixed d i⟩
  case twoData =>
    intro d i j _ hij hj
    have hi : i < 64 := by omega
    rw [Nat.xor_assoc, syndrome_dataErrors, checkBits_xor, checkBits_pow hi, checkBits_pow hj]
    exact decodeSyn_two (col_odd hi) (col_odd hj) fun h => by have := col_inj hi hj h; omega
  case dataCheck =>
    intro d i j _ hi hj
    rw [syndrome_errors d _ (pow_lt_check hj), checkBits_pow hi]
    refine decodeSyn_two (col_odd hi) (by rw [pow_odd hj]) fun h => col_weight hi ?_
    rw [h, pow_odd hj]
  case twoCheck =>
    intro d i j _ hij hj
    have hi : i < 8 := by omega
    rw [Nat.xor_assoc, syndrome_checkErrors d (Nat.xor_lt_two_pow (n := 8) (pow_lt_check hi) (pow_lt_check hj))]
    refine decodeSyn_two (by rw [pow_odd hi]) (by rw [pow_odd hj]) fun h => ?_
    have := (Nat.pow_right_inj (by decide)).mp h
    omega

end Sys2Proof.Machine
end

section
/-! PROOF. The commands of a hart: an instruction that raises nothing joins the window (chapter 2). -/

namespace Sys2Proof.Machine

/-- An access without an exception joins the instructions of a running hart. -/
theorem issueAcc_issued {i : Instr} {m : MemAcc} {wr : Bool} {kind : Nat} {s : State} (hr : running s m.hart = true)
    (ht : accTrap s m wr kind = none) : issueAcc i m wr kind s = issued i m wr s := by
  unfold issueAcc issued
  simp only [hr, ht, Bool.not_true, Bool.false_eq_true, if_false]

/-- An instruction without an access joins the instructions of a running hart. -/
theorem issue_joined {h : Nat} {i : Instr} {s : State} (hr : running s h = true) : issue h i s = joined h i s := if_pos hr

/-- CBO_INVAL is an access where CBIE permits it, and in M-mode. -/
theorem execCboInval_permitted {m : MemAcc} {s : State} (h : (hart s m.hart).cbie = true ∨ (hart s m.hart).priv = .m) :
    execCboInval m s = done (issueAcc (.cboInval m) { m with size := 1 } false 4 s) := by
  unfold execCboInval
  rcases h with h | h <;> simp [h]

/-- Settles O10: without an exception `issueAcc` is `issued`. -/
theorem hartAccessesIssue : Obligations.HartAccessesIssue := by
  refine ⟨?load, ?store, ?amo, ?lr, ?sc, ?amocas, ?clean, ?flush, ?inval, ?zero⟩
  case load => exact fun m nt s hr ht => congrArg done (issueAcc_issued hr ht)
  case store => exact fun m v s hr ht => congrArg done (issueAcc_issued hr ht)
  case amo => exact fun m op v aq rl s hr ht => congrArg done (issueAcc_issued hr ht)
  case lr => exact fun m aq rl s hr ht => congrArg done (issueAcc_issued hr ht)
  case sc => exact fun m v aq rl s hr ht => congrArg done (issueAcc_issued hr ht)
  case amocas => exact fun m cmp new aq rl s hr ht => congrArg done (issueAcc_issued hr ht)
  case clean => exact fun m s hr ht => congrArg done (issueAcc_issued (m := { m with size := 1 }) hr ht)
  case flush => exact fun m s hr ht => congrArg done (issueAcc_issued (m := { m with size := 1 }) hr ht)
  case inval =>
    intro m s hr hcbie ht
    exact (execCboInval_permitted hcbie).trans (congrArg done (issueAcc_issued (m := { m with size := 1 }) hr ht))
  case zero => exact fun m s hr ht => congrArg done (issueAcc_issued (m := { m with size := 1 }) hr ht)

/-- WFI joins the instructions unless TW or VTW traps it (R73). -/
theorem execWfi_untrapped {h : Nat} {s : State} (hr : running s h = true) (htw : (hart s h).tw = false ∨ (hart s h).priv = .m)
    (hvtw : (hart s h).vtw = false ∨ (hart s h).priv ≠ .vs) : execWfi h s = done (joined h (.wfi h) s) := by
  have htw' : ((hart s h).tw && decide ((hart s h).priv ≠ .m)) = false := by rcases htw with e | e <;> simp [e]
  have hvtw' : ((hart s h).vtw && decide ((hart s h).priv = .vs)) = false := by rcases hvtw with e | e <;> simp [e]
  unfold execWfi
  simp only [hr, htw', hvtw', Bool.not_true, Bool.false_eq_true, if_false, issue_joined hr]

/-- Settles O11: each is `issue`, which a running hart's instruction joins by, but the two ends of a window. -/
theorem hartWaitsAndFencesIssue : Obligations.HartWaitsAndFencesIssue := by
  refine ⟨?fence, ?fenceI, ?sfenceWInval, ?sfenceInvalIr, ?wfi, ?wrsNto, ?wrsSto, ?wrsEnd, ?deferEnd, ?prefetchI, ?prefetchR, ?prefetchW⟩
  case fence => exact fun h fs tso s hr => congrArg done (issue_joined hr)
  case fenceI => exact fun h s hr => congrArg done (issue_joined hr)
  case sfenceWInval => exact fun h s hr => congrArg done (issue_joined hr)
  case sfenceInvalIr => exact fun h s hr => congrArg done (issue_joined hr)
  case wfi => exact fun h s hr htw hvtw => execWfi_untrapped hr htw hvtw
  case wrsNto => exact fun h s hr => congrArg done (issue_joined hr)
  case wrsSto => exact fun h s hr => congrArg done (issue_joined hr)
  case wrsEnd => exact fun h s => rfl
  case deferEnd => exact fun h s => rfl
  case prefetchI => exact fun m s hr => congrArg done (issue_joined hr)
  case prefetchR => exact fun m s hr => congrArg done (issue_joined hr)
  case prefetchW => exact fun m s hr => congrArg done (issue_joined hr)

end Sys2Proof.Machine
end

section
/-! PROOF. A core's own events: the store buffer, the L1 fill, the Buoy, the counters and the interrupt update. -/

namespace Sys2Proof.Machine

/-- A line that a miss buffer waits for fills the L1 once the L2 holds it and no request for it is queued. -/
theorem execL1Fill_fills {h line : Nat} {ifetch : Bool} {e : Nat × Nat} {s : State}
    (hbuf : (if ifetch then (hart s h).fmb else (hart s h).mb).find? (fun e => decide (e.1 = line)) = some e)
    (hl2 : l2St (hart s h) line ≠ .i) (hinq : (hart s h).inq.any (fun q => decide (q.line = line)) = false) :
    execL1Fill h line ifetch s = done (hartGo h (updHart h (fun x =>
      if ifetch then { x with fmb := x.fmb.filter (fun y => y.1 ≠ line) } else { x with mb := x.mb.filter (fun y => y.1 ≠ line) })
      (l1Fill h line e.2 ifetch s))) := by
  have hready : ¬(l2St (hart s h) line = .i ∨ (hart s h).inq.any (fun q => decide (q.line = line)) = true) := by simp [hl2, hinq]
  unfold execL1Fill
  simp only [hbuf, if_neg hready]

/-- A period starts on a running hart whose Buoy is on and whose last period is over. -/
theorem execBuoyPeriod_starts {h : Nat} {s : State} (hst : (hart s h).st = .run) (hon : (hart s h).rnbuoyctl.getLsbD 0 = true)
    (hleft : (hart s h).buoy.left = 0) : execBuoyPeriod h s = done (updHart h (fun x => { x with buoy := { x.buoy with
      left := 64 * bits (hart s h).rnbuoyctl.toNat 8 12, pos := (drawNat s).1 % (64 * bits (hart s h).rnbuoyctl.toNat 8 12),
      armed := true } }) (drawNat s).2) :=
  congrArg done (if_pos ⟨hst, hon, hleft⟩)

/-- Settles O12: the instructions join the window (`issue_joined`); each event's condition is its hypotheses. -/
theorem hartEventsAct : Obligations.HartEventsAct := by
  refine ⟨?drain, ?fill, ?csr, ?buoyctl, ?period, ?event, ?counter, ?overflow, ?interrupt⟩
  case drain => exact fun h timer s hd => congrArg done (if_pos hd)
  case fill => exact fun h line ifetch e s hbuf hl2 hinq => execL1Fill_fills hbuf hl2 hinq
  case csr => exact fun h csr wr v s hr => congrArg done (issue_joined hr)
  case buoyctl => exact fun h v s hr => congrArg done (issue_joined hr)
  case period =>
    rintro h n s hst hon hleft rfl
    exact execBuoyPeriod_starts hst hon hleft
  case event => exact fun h n v s hr => congrArg done (issue_joined hr)
  case counter => exact fun h n v s hr => congrArg done (issue_joined hr)
  case overflow =>
    exact fun h n s hst hlo hhi hcnt hev hinh hstop => congrArg done (if_pos ⟨hst, hlo, hhi, hcnt, hev, hinh, hstop⟩)
  case interrupt => exact fun f s hnet hop hdst hfile => congrArg done (if_pos ⟨hnet, hop, hdst, hfile⟩)

end Sys2Proof.Machine
end

section
/-! PROOF. What an instruction does in its turn (R50, R59 to R62, R69 to R72, R349). -/

namespace Sys2Proof.Machine

/-! ### Atomics -/

/-- An atomic that is ready does its work on a line that the L2 owns, unless it reads poisoned data. -/
theorem tryOwned_acts {h : Nat} {older : List HOp} {o : HOp} {m : MemAcc} {reads : Bool} {act : State → Tried} {s : State}
    (hready : atomicReady (hart s h) older o = true) (hstall : l2Stalled (hart s h) = false)
    (hown : l2Owned (hart s h) (lineOf m.pa) = true) (hpoison : l2Poison (hart s h) (lineOf m.pa) = false) :
    tryOwned h older o m reads act s = act s := by
  unfold tryOwned
  simp [hready, hstall, hown, hpoison]

/-- An LR with no snoop deferred opens its reservation. -/
theorem doLr_reserves {h : Nat} {o : HOp} {m : MemAcc} {s : State} (hdef : (hart s h).deferred = []) :
    doLr h o m s = fin { o with src := if o.l2m then o.src else 3 } (sext m.size (memVal (hart s h) m))
      (updHart h (fun x => { x with resv := some { addr := m.pa, window := true } }) s) := by
  unfold doLr
  simp [hdef]

/-- An SC on the reserved address stores. -/
theorem doSc_succeeds {h v : Nat} {o : HOp} {m : MemAcc} {w : Bool} {s : State}
    (hresv : (hart s h).resv = some { addr := m.pa, window := w }) :
    doSc h o m v s = fin o 0 (memPut h m v (updHart h (fun x => { x with resv := none }) s)) := by
  unfold doSc
  simp [hresv]

/-- An SC without a reservation on its address fails. -/
theorem doSc_fails {h v : Nat} {o : HOp} {m : MemAcc} {s : State} (hresv : (hart s h).resv.all (fun r => decide (r.addr ≠ m.pa)) = true) :
    doSc h o m v s = fin o 1 (updHart h (event 0x061 1) (updHart h (fun x => { x with resv := none }) s)) := by
  unfold doSc
  cases hr : (hart s h).resv with
  | none => rfl
  | some r =>
    rw [hr] at hresv
    have hne : r.addr ≠ m.pa := by simpa using hresv
    simp [hne]

/-! ### CSRs -/

/-- A CSR access that does not trap reads, and writes where it should. -/
theorem tryCsr_accesses {h csr : Nat} {wr : Bool} {v : Word} {o : HOp} {s : State} (ht : csrTrap (hart s h) csr wr = none) :
    tryCsr h [] o csr wr v s = fin o (csrRead s h csr).toNat (if wr then updHart h (csrWrite csr v) s else s) := by
  unfold tryCsr
  simp [ht]

/-! ### Prefetches -/

theorem l2St_none {x : Hart} {l : Nat} (h : l2Find x l = none) : l2St x l = .i := by
  unfold l2St
  rw [h]
  rfl

theorem l2Owned_none {x : Hart} {l : Nat} (h : l2Find x l = none) : l2Owned x l = false := by
  unfold l2Owned
  rw [l2St_none h]
  rfl

/-- The conditions under which a prefetch is not dropped, whatever it is for: main memory, a page that has been accessed, a line that the
L2 lacks and nothing asks for, 8 miss handlers free. -/
structure PrefetchGoes (s : State) (h : Nat) (m : MemAcc) : Prop where
  main : pma s (hartPart s h) m.pa = .main
  page : ¬(m.x.pte.isSome = true ∧ m.x.a = false)
  absent : l2Find (hart s h) (lineOf m.pa) = none
  free : ¬56 < hndBusy (hart s h)
  stall : l2Stalled (hart s h) = false
  idle : lineBusy (hart s h) (lineOf m.pa) = false

theorem tryPrefetch_own {h : Nat} {o : HOp} {m : MemAcc} {s : State} (g : PrefetchGoes s h m) :
    tryPrefetch h o m true false s = fin o 0 (l2Ask h { line := lineOf m.pa, op := oRdOwn, by_ := .pf } s) := by
  have hdrop : ¬(pma s (hartPart s h) m.pa ≠ .main ∨ (m.x.pte.isSome = true ∧ m.x.a = false)) := by simp [g.main, g.page]
  unfold tryPrefetch
  simp [if_neg hdrop, l2Owned_none g.absent, l2St_none g.absent, g.free, g.stall, g.idle]

/-- A prefetch of an instruction line takes a miss buffer of the L1I. -/
theorem tryPrefetch_ifetch {h : Nat} {o : HOp} {m : MemAcc} {s : State} (g : PrefetchGoes s h m) (hroom : (hart s h).fmb.length ≤ 6)
    (hnew : (hart s h).fmb.any (fun e => decide (e.1 = lineOf m.pa)) = false) :
    tryPrefetch h o m false true s = fin o 0 (l2Ask h { line := lineOf m.pa, op := oRdShared, by_ := .pf }
      (updHart h (fun x => { x with fmb := x.fmb ++ [(lineOf m.pa, m.va / 64 % 256)] }) s)) := by
  have hdrop : ¬(pma s (hartPart s h) m.pa ≠ .main ∨ (m.x.pte.isSome = true ∧ m.x.a = false)) := by simp [g.main, g.page]
  unfold tryPrefetch
  simp [if_neg hdrop, g.absent, l2St_none g.absent, g.free, g.stall, g.idle, hnew, Nat.not_lt.mpr hroom]

/-- A prefetch of data takes a miss buffer of the L1D. -/
theorem tryPrefetch_data {h : Nat} {o : HOp} {m : MemAcc} {s : State} (g : PrefetchGoes s h m) (hroom : (hart s h).mb.length ≤ 12)
    (hnew : (hart s h).mb.any (fun e => decide (e.1 = lineOf m.pa)) = false) :
    tryPrefetch h o m false false s = fin o 0 (l2Ask h { line := lineOf m.pa, op := oRdShared, by_ := .pf }
      (updHart h (fun x => { x with mb := x.mb ++ [(lineOf m.pa, m.va / 64 % 256)] }) s)) := by
  have hdrop : ¬(pma s (hartPart s h) m.pa ≠ .main ∨ (m.x.pte.isSome = true ∧ m.x.a = false)) := by simp [g.main, g.page]
  unfold tryPrefetch
  simp [if_neg hdrop, g.absent, l2St_none g.absent, g.free, g.stall, g.idle, hnew, Nat.not_lt.mpr hroom]

/-- Settles O13: `attempt` picks the instruction's own attempt, and the lemma about that says what it does. -/
theorem hartInstructionsAct : Obligations.HartInstructionsAct := by
  refine ⟨?atomics, ?csrs, ?claim, ?prefetches⟩
  case atomics =>
    intro h older o m s hready hstall hown hpoison
    refine ⟨?amo, ?amocas, ?lr, ?scHit, ?scMiss⟩
    case amo =>
      intro op v aq rl hi
      unfold attempt
      simp only [hi, tryOwned_acts hready hstall hown hpoison]
    case amocas =>
      intro c n aq rl hi
      unfold attempt
      simp only [hi, tryOwned_acts hready hstall hown hpoison]
    case lr =>
      intro aq rl hi hdef
      unfold attempt
      simp only [hi, tryOwned_acts hready hstall hown hpoison, doLr_reserves hdef]
    case scHit =>
      intro v aq rl w hi hresv
      unfold attempt
      simp only [hi, tryOwned_acts hready hstall hown hpoison, doSc_succeeds hresv]
    case scMiss =>
      intro v aq rl hi hresv
      unfold attempt
      simp only [hi, tryOwned_acts hready hstall hown hpoison, doSc_fails hresv]
  case csrs =>
    intro h csr wr v o s ht
    refine ⟨?vendor, ?buoyctl, ?event, ?counter⟩
    case vendor =>
      intro hi
      unfold attempt
      simp only [hi, tryCsr_accesses ht]
    case buoyctl =>
      rintro hi rfl rfl
      unfold attempt
      simp only [hi, tryCsr_accesses ht, if_true]
    case event =>
      rintro n hi rfl rfl
      unfold attempt
      simp only [hi, tryCsr_accesses ht, if_true]
    case counter =>
      rintro n hi rfl rfl
      unfold attempt
      simp only [hi, tryCsr_accesses ht, if_true]
  case claim =>
    intro h file sel wr v o s hi
    unfold attempt
    simp only [hi, List.isEmpty_nil, Bool.not_true, Bool.false_eq_true, if_false]
  case prefetches =>
    intro h older o m s hmain hpage habsent hbusy hstall hidle
    have hpage' : ¬(m.x.pte.isSome = true ∧ m.x.a = false) := fun ⟨hp, ha⟩ => absurd (hpage hp) (by rw [ha]; decide)
    have g : PrefetchGoes s h m := ⟨hmain, hpage', habsent, by omega, hstall, hidle⟩
    refine ⟨fun hi hroom hnew => ?_, fun hi hroom hnew => ?_, fun hi => ?_⟩
    · unfold attempt
      simp only [hi, tryPrefetch_ifetch g hroom hnew]
    · unfold attempt
      simp only [hi, tryPrefetch_data g hroom hnew]
    · unfold attempt
      simp only [hi, tryPrefetch_own g]

end Sys2Proof.Machine
end

section
/-! PROOF. What a delivery comes to (chapter 4): the flit stays, leaves the package, or reaches its agent, which serves it. -/

namespace Sys2Proof.Machine

/-- A command that acts leaves what its own operation gives, and what follows a command. -/
theorem act_does {g : State → State} {s t : State} (h : Live s) (e : g s = t) : act g s = .next (after t) := by
  rw [act_live h, e]

section
variable {c : Instr} {n : Net} {op : Nat} {g : Flit → State → State} {f : Flit} {s : State}

/-- A flit that another on its way must come before stays where it is (R82, R237). -/
theorem deliver_stays (hm : isMsg n op f = true) (hw : mayArrive s f = false) : deliver n op g f s = s := by
  simp only [isMsg, Bool.and_eq_true, decide_eq_true_eq] at hm
  obtain ⟨⟨hnet, hop⟩, hids⟩ := hm
  simp [deliver, hnet, hop, hids, hw]

theorem exec_stays (hx : exec c s = act (deliver n op g f) s) (h : Live s) (hm : isMsg n op f = true) (hw : mayArrive s f = false) :
    exec c s = .next (after s) := by
  rw [hx, act_live h, deliver_stays hm hw]

theorem exec_leaves (hx : exec c s = act (deliver n op g f) s) (h : Live s) (ha : Arrives n op f s) (hd : agDie f.dst = 13) :
    exec c s = .next (after (arrive f s)) :=
  hx.trans (act_deliver_out h ha hd)

/-- A flit that reaches its agent does what the agent does with it. -/
theorem exec_reaches {t : State} (hx : exec c s = act (deliver n op g f) s) (h : Live s) (ha : Arrives n op f s) (hd : agDie f.dst ≠ 13)
    (e : g f (arrive f s) = t) : exec c s = .next (after t) := by
  rw [hx, act_deliver h ha hd, e]

theorem Arrives.op_eq (ha : Arrives n op f s) : f.op = op := by
  have hm := ha.1
  simp only [isMsg, Bool.and_eq_true, decide_eq_true_eq] at hm
  exact hm.1.2

end

theorem isCore_of_isSlice {a : Nat} (h : isSlice a = true) : isCore a = false := by
  simp only [isSlice, isCore, Bool.and_eq_true, decide_eq_true_eq, Bool.and_eq_false_iff, decide_eq_false_iff_not] at *
  omega

/-! ### Coherent requests (R96, R149, R160, R173) -/

/-- The commands that deliver a coherent request other than an eviction or a release, with their opcodes. -/
def coherentRequests (f : Flit) : List (Instr × Nat) :=
  [(.rdshared f, oRdShared), (.rdown f, oRdOwn), (.upgrade f, oUpgrade), (.claimown f, oClaimOwn), (.rdonce f, oRdOnce), (.rdrgn f, oRdRgn),
   (.wrfull f, oWrFull), (.cboclean f, oCboClean), (.cboflush f, oCboFlush)]

theorem exec_coherentRequest (f : Flit) (s : State) : ∀ c ∈ coherentRequests f, exec c.1 s = act (deliver .req c.2 reqAt f) s := by
  simp only [coherentRequests, List.forall_mem_cons]
  exact ⟨rfl, rfl, rfl, rfl, rfl, rfl, rfl, rfl, rfl, List.forall_mem_nil _⟩

theorem coherentRequest_op (f : Flit) : ∀ c ∈ coherentRequests f, c.2 ≠ oWrBackDirty ∧ c.2 ≠ oEvictClean ∧ c.2 ≠ oRgnRel := by
  simp only [coherentRequests, List.forall_mem_cons]
  decide

/-- A coherent request at the home that serves it. -/
theorem reqAt_coherent {f : Flit} {t : State} {c : Instr × Nat} (hc : c ∈ coherentRequests f) (hop : f.op = c.2) (h : isHome f.dst = true) :
    reqAt f t = homeRun (agUnit f.dst) (homeTake (agUnit f.dst) f t) := by
  obtain ⟨hdirty, hclean, hrel⟩ := coherentRequest_op f c hc
  rw [← hop] at hdirty hclean hrel
  exact reqAt_home h hdirty hclean hrel

theorem exec_sliceRequest {f : Flit} {s : State} (h : Live s) (hnet : f.net = .req) (hdst : isSlice f.dst = true)
    (hdie : agDie f.src = agDie f.dst) (hsrc : isCore f.src = true) (hlo : 1 ≤ f.op) (hhi : f.op ≤ 12) (hway : mayArrive s f = true) :
    exec (.sliceRequest f) s = .next (after (reqAt f (arrive f s))) := by
  unfold exec
  exact act_does h (if_pos ⟨hnet, hdst, hdie, hsrc, hlo, hhi, hway⟩)

/-- Settles O14: `exec_coherentRequest` with what a home and a slice do with a request that they take. -/
theorem requestsReachTheirHome : Obligations.RequestsReachTheirHome := by
  refine ⟨?reaches, ?slice, ?others⟩
  case reaches =>
    intro f s hl c hc ha
    have hx := exec_coherentRequest f s c hc
    refine ⟨fun ht => ?_, fun r hk => ?_, fun i ht => ?_⟩
    · exact exec_reaches hx hl ha (agDie_of_isHome ht.1.1) (by rw [reqAt_coherent hc ha.op_eq ht.1.1, homeTake_takes ht])
    · exact exec_reaches hx hl ha (agDie_of_isHome hk.1.1) (by rw [reqAt_coherent hc ha.op_eq hk.1.1, homeTake_kept hk])
    · obtain ⟨hdirty, hclean, -⟩ := coherentRequest_op f c hc
      rw [← ha.op_eq] at hdirty hclean
      exact exec_reaches hx hl ha (agDie_of_isSlice ht.1) (reqAt_slice ht hdirty hclean)
  case slice =>
    intro f s hl hnet hdst hdie hsrc hlo hhi hway
    refine ⟨fun hdirty hclean i ht => ?_, fun hev => ?_⟩
    · rw [exec_sliceRequest hl hnet hdst hdie hsrc hlo hhi hway, reqAt_slice ht hdirty hclean]
    · rw [exec_sliceRequest hl hnet hdst hdie hsrc hlo hhi hway, reqAt_sliceEvict hdst hev]
  case others =>
    intro f s hl c hc hm
    have hx := exec_coherentRequest f s c hc
    exact ⟨exec_stays hx hl hm, exec_leaves hx hl⟩

/-! ### Evictions and releases (R130, R164, R169) -/

/-- The commands that deliver an eviction. -/
def evictions (f : Flit) : List (Instr × Nat) := [(.wrbackdirty f, oWrBackDirty), (.evictclean f, oEvictClean)]

theorem exec_eviction (f : Flit) (s : State) : ∀ c ∈ evictions f, exec c.1 s = act (deliver .req c.2 reqAt f) s := by
  simp only [evictions, List.forall_mem_cons]
  exact ⟨rfl, rfl, List.forall_mem_nil _⟩

theorem eviction_op (f : Flit) : ∀ c ∈ evictions f, c.2 = oWrBackDirty ∨ c.2 = oEvictClean := by
  simp only [evictions, List.forall_mem_cons]
  decide

theorem exec_rgnrel (f : Flit) (s : State) : exec (.rgnrel f) s = act (deliver .req oRgnRel reqAt f) s := rfl

/-- The release of a region at its home. -/
theorem reqAt_rgnRel {f : Flit} {t : State} (h : isHome f.dst = true) (hop : f.op = oRgnRel) :
    reqAt f t = homeRun (agUnit f.dst) (homeRgnRel (agUnit f.dst) f t) := by
  have hev : ¬(f.op = oWrBackDirty ∨ f.op = oEvictClean) := by rw [hop]; decide
  unfold reqAt homeReq
  rw [isSlice_of_isHome h, if_neg Bool.false_ne_true, if_pos h, if_neg hev, if_pos hop]

/-- Settles O15: as O14, with what a home and a slice do with an eviction or a release. -/
theorem evictionsReachTheirHome : Obligations.EvictionsReachTheirHome := by
  refine ⟨?evictions, ?release, ?others⟩
  case evictions =>
    intro f s hl c hc ha
    have hx := exec_eviction f s c hc
    have hop : f.op = oWrBackDirty ∨ f.op = oEvictClean := by
      rw [ha.op_eq]
      exact eviction_op f c hc
    exact ⟨fun hh => exec_reaches hx hl ha (agDie_of_isHome hh) (reqAt_evict hh hop),
      fun hs => exec_reaches hx hl ha (agDie_of_isSlice hs) (reqAt_sliceEvict hs hop)⟩
  case release =>
    intro f s hl ha hh
    exact exec_reaches (exec_rgnrel f s) hl ha (agDie_of_isHome hh) (reqAt_rgnRel hh ha.op_eq)
  case others =>
    intro f s hl
    have hall : ∀ c ∈ [(Instr.wrbackdirty f, oWrBackDirty), (Instr.evictclean f, oEvictClean), (Instr.rgnrel f, oRgnRel)],
        exec c.1 s = act (deliver .req c.2 reqAt f) s := by
      simp only [List.forall_mem_cons]
      exact ⟨rfl, rfl, rfl, List.forall_mem_nil _⟩
    exact fun c hc hm => ⟨exec_stays (hall c hc) hl hm, exec_leaves (hall c hc) hl⟩

/-! ### Register, I/O and configuration accesses (R37, R147, R152, R549) -/

/-- The commands that deliver an I/O or configuration request. -/
def ioRequests (f : Flit) : List (Instr × Nat) := [(.iord f, oIoRd), (.iowr f, oIoWr), (.cfgrd f, oCfgRd), (.cfgwr f, oCfgWr)]

theorem exec_ioRequest (f : Flit) (s : State) : ∀ c ∈ ioRequests f, exec c.1 s = act (deliver .req c.2 ioAt f) s := by
  simp only [ioRequests, List.forall_mem_cons]
  exact ⟨rfl, rfl, rfl, rfl, List.forall_mem_nil _⟩

theorem ioAt_read {f : Flit} {fr off : Nat} {t : State} (ht : ioTarget f.addr = .drs fr off) (hop : f.op = oIoRd ∨ f.op = oCfgRd) :
    ioAt f t = ioAnswer f false (drsRead t f.part fr off (2 ^ f.size)) t := by
  have hrd : (decide (f.op = oIoWr) || decide (f.op = oCfgWr)) = false := by rcases hop with h | h <;> rw [h] <;> decide
  unfold ioAt
  simp only [ht, hrd, Bool.false_eq_true, if_false]

theorem ioAt_write {f : Flit} {fr off : Nat} {t : State} (ht : ioTarget f.addr = .drs fr off) (hop : f.op = oIoWr ∨ f.op = oCfgWr) :
    ioAt f t = ioAnswer f false 0
      (drsWrite f.part fr off (2 ^ f.size) ((f.data.toNat / 256 ^ (f.addr % 64)) % 256 ^ (2 ^ f.size)) t) := by
  have hwr : (decide (f.op = oIoWr) || decide (f.op = oCfgWr)) = true := by rcases hop with h | h <;> rw [h] <;> decide
  unfold ioAt
  simp only [ht, hwr, if_true]

theorem ioAt_port {f : Flit} (t : State) (ht : (∃ a b, ioTarget f.addr = .ecam a b) ∨ (∃ a b e, ioTarget f.addr = .rpMem a b e)) :
    ioAt f t = if isRp f.dst then rpIo (agUnit f.dst - 0x30) f t else refuseReq f t := by
  unfold ioAt
  obtain ⟨a, b, h⟩ | ⟨a, b, e, h⟩ := ht <;> simp only [h]

theorem ioAt_boathouse {f : Flit} (t : State) (ht : (∃ a b, ioTarget f.addr = .vfCfg a b) ∨ (∃ a b, ioTarget f.addr = .vfBar a b)) :
    ioAt f t = if agDie f.dst = 12 ∧ 0x68 ≤ agUnit f.dst ∧ agUnit f.dst < 0x6C then bhIo f t else refuseReq f t := by
  unfold ioAt
  obtain ⟨a, b, h⟩ | ⟨a, b, h⟩ := ht <;> simp only [h]

theorem ioAt_none {f : Flit} (t : State) (ht : ioTarget f.addr = .none) : ioAt f t = send (faultRsp f.dst cVACANT f) t := by
  unfold ioAt
  simp only [ht]

/-- Settles O16: `ioAt` follows what the address names. -/
theorem ioAccessesReachTheirBlock : Obligations.IoAccessesReachTheirBlock := by
  refine ⟨?registers, ?functions, ?others⟩
  case registers =>
    intro f s fr off hl ht hd
    refine ⟨fun c hc ha => ?_, fun c hc ha => ?_⟩
    · have hin : c ∈ ioRequests f ∧ (c.2 = oIoRd ∨ c.2 = oCfgRd) := by
        revert c
        simp [ioRequests]
      exact exec_reaches (exec_ioRequest f s c hin.1) hl ha hd (ioAt_read ht (by rw [ha.op_eq]; exact hin.2))
    · have hin : c ∈ ioRequests f ∧ (c.2 = oIoWr ∨ c.2 = oCfgWr) := by
        revert c
        simp [ioRequests]
      exact exec_reaches (exec_ioRequest f s c hin.1) hl ha hd (ioAt_write ht (by rw [ha.op_eq]; exact hin.2))
  case functions =>
    intro f s hl hd c hc ha
    have hx := exec_ioRequest f s c hc
    exact ⟨fun ht => exec_reaches hx hl ha hd (ioAt_port _ ht), fun ht => exec_reaches hx hl ha hd (ioAt_boathouse _ ht),
      fun ht => exec_reaches hx hl ha hd (ioAt_none _ ht)⟩
  case others =>
    intro f s hl c hc hm
    have hx := exec_ioRequest f s c hc
    exact ⟨exec_stays hx hl hm, exec_leaves hx hl⟩

/-! ### Interrupts and mail (R147, R329, R348) -/

theorem exec_intmsg (f : Flit) (s : State) : exec (.intmsg f) s = act (deliver .req oIntMsg intAt f) s := rfl

theorem exec_mail (f : Flit) (s : State) : exec (.mail f) s = act (deliver .req oMail mailAt f) s := rfl

/-- Settles O17: `intAt` and `mailAt` are the two agents' choice. -/
theorem interruptsAndMailArrive : Obligations.InterruptsAndMailArrive := by
  refine ⟨?interrupts, ?mail, ?others⟩
  case interrupts => exact fun f s hl ha hd => exec_reaches (exec_intmsg f s) hl ha hd rfl
  case mail => exact fun f s hl ha hd => exec_reaches (exec_mail f s) hl ha hd rfl
  case others =>
    intro f s hl c hc hm
    simp only [List.mem_cons, List.not_mem_nil, or_false] at hc
    obtain rfl | rfl := hc
    · exact ⟨exec_stays (exec_intmsg f s) hl hm, exec_leaves (exec_intmsg f s) hl⟩
    · exact ⟨exec_stays (exec_mail f s) hl hm, exec_leaves (exec_mail f s) hl⟩

/-! ### Reserved opcodes and agents (R20, R138, R582) -/

theorem exec_reservedOpcode {f : Flit} (s : State) (h : opOk f.net f.op = false) :
    exec (.reservedOpcode f) s = act (deliver f.net f.op reservedAt f) s := by
  have hop : reservedOp f = deliver f.net f.op reservedAt f := by
    funext t
    unfold reservedOp
    rw [h]
    exact if_neg Bool.false_ne_true
  unfold exec
  exact congrArg (act · s) hop

/-- At a block whose table of types lists a refused opcode the record is of type 6. -/
theorem reservedAt_listed {f : Flit} (t : State) (h : (agBank f.dst).2 = true) :
    reservedAt f t = if f.net = .req then refuseReq f (logErr (flitErr (agBank f.dst).1 6 false f) t)
      else logErr (flitErr (agBank f.dst).1 6 false f) t := by
  unfold reservedAt
  simp only [h, if_true]

/-- At another block its type is a free value. -/
theorem reservedAt_unlisted {f : Flit} (t : State) (h : (agBank f.dst).2 = false) :
    reservedAt f t = if f.net = .req then refuseReq f (logErr (flitErr (agBank f.dst).1 ((drawNat t).1 % 65536) false f) (drawNat t).2)
      else logErr (flitErr (agBank f.dst).1 ((drawNat t).1 % 65536) false f) (drawNat t).2 := by
  unfold reservedAt
  simp only [h, Bool.false_eq_true, if_false]

/-- The interface of stop `stop` of the I/O die, or of compute die `stop - 96`, discards a flit that names a reserved agent. -/
theorem reservedId_discards {f : Flit} {stop : Nat} (s : State) (h : idsOk f = false) (hs : stop < 108) :
    reservedId f stop s =
      logErr (flitErr (if stop < 96 then frNi stop else frDlog (stop - 96)) (if stop < 96 then 0x07 else 0x09) false f) (scrap f s) := by
  have hkeep : ¬(idsOk f = true ∨ 108 ≤ stop) := by simp only [h, Bool.false_eq_true, false_or]; omega
  unfold reservedId
  rw [if_neg hkeep]

theorem exec_rsvdId {f : Flit} (stop : Nat) {s : State} (hl : Live s) : exec (.rsvdId f stop) s = .next (after (reservedId f stop s)) := by
  unfold exec
  exact act_does hl rfl

/-- Settles O18: `reservedAt` by the agent's bank, and `reservedId` by the interface. -/
theorem reservedFlitsAreAnswered : Obligations.ReservedFlitsAreAnswered := by
  refine ⟨?opcodes, ?agents⟩
  case opcodes =>
    intro f s hl hop ha hd
    have hx := exec_reservedOpcode s hop
    refine ⟨fun hb => exec_reaches hx hl ha hd (reservedAt_listed _ hb), ?_⟩
    rintro hb r rfl
    exact exec_reaches hx hl ha hd (reservedAt_unlisted _ hb)
  case agents =>
    intro f stop s hl hid
    refine ⟨fun hs => ?_, fun hlo hhi => ?_⟩
    · rw [exec_rsvdId stop hl, reservedId_discards s hid (by omega), if_pos hs, if_pos hs]
    · have hn : ¬stop < 96 := by omega
      rw [exec_rsvdId stop hl, reservedId_discards s hid hhi, if_neg hn, if_neg hn]

/-! ### Snoops (R143, R144, R157, R162, R167, R168) -/

/-- The commands that deliver a snoop. -/
def snoops (f : Flit) : List (Instr × Nat) :=
  [(.snpshared f, oSnpShared), (.snpown f, oSnpOwn), (.snpinv f, oSnpInv), (.snpcur f, oSnpCur), (.snpclean f, oSnpClean),
   (.backinv f, oBackInv), (.snprgnsplit f, oSnpRgnSplit), (.snprgninv f, oSnpRgnInv)]

theorem exec_snoop (f : Flit) (s : State) : ∀ c ∈ snoops f, exec c.1 s = act (deliver .snp c.2 snpAt f) s := by
  simp only [snoops, List.forall_mem_cons]
  exact ⟨rfl, rfl, rfl, rfl, rfl, rfl, rfl, rfl, List.forall_mem_nil _⟩

theorem snpAt_core {f : Flit} (t : State) (h : isCore f.dst = true) : snpAt f t = afterHart (agHart f.dst) (l2SnpTake (agHart f.dst) f t) :=
  if_pos h

theorem snpAt_slice {f : Flit} (t : State) (h : isSlice f.dst = true) : snpAt f t = sliceSnoop (agDie f.dst) (agUnit f.dst - 64) f t := by
  unfold snpAt
  rw [isCore_of_isSlice h, if_neg Bool.false_ne_true, if_pos h]

theorem snpAt_engine {f : Flit} {r : Nat} (t : State) (hc : isCore f.dst = false) (hs : isSlice f.dst = false) (hr : engOf f.dst = some r) :
    snpAt f t = rpSnoop r f t := by
  unfold snpAt
  simp only [hc, hs, hr, Bool.false_eq_true, if_false]

/-- Settles O19: `snpAt` follows the kind of agent. -/
theorem snoopsReachTheirHolder : Obligations.SnoopsReachTheirHolder := by
  refine ⟨?reaches, ?others⟩
  case reaches =>
    intro f s hl c hc ha
    have hx := exec_snoop f s c hc
    exact ⟨fun h => exec_reaches hx hl ha (agDie_of_isCore h) (snpAt_core _ h),
      fun h => exec_reaches hx hl ha (agDie_of_isSlice h) (snpAt_slice _ h),
      fun r hcore hslice hr => exec_reaches hx hl ha (agDie_of_engOf hr) (snpAt_engine _ hcore hslice hr)⟩
  case others =>
    intro f s hl c hc hm
    have hx := exec_snoop f s c hc
    exact ⟨exec_stays hx hl hm, exec_leaves hx hl⟩

/-! ### Responses and data (R38, R54, R128, R139, R140, R144, R149, R161, R166, R171, R173, R584) -/

section
variable {l e : Nat → Flit → State → State} {c : Nat → Nat → Flit → State → State} {f : Flit} (t : State)

theorem toAgent_core (h : isCore f.dst = true) : toAgent l c e f t = afterHart (agHart f.dst) (l (agHart f.dst) f t) := if_pos h

theorem toAgent_slice (hc : isCore f.dst = false) (hs : isSlice f.dst = true) :
    toAgent l c e f t = c (agDie f.dst) (agUnit f.dst - 64) f t := by
  unfold toAgent
  rw [hc, if_neg Bool.false_ne_true, if_pos hs]

theorem toAgent_engine {r : Nat} (hc : isCore f.dst = false) (hs : isSlice f.dst = false) (hr : engOf f.dst = some r) :
    toAgent l c e f t = engSync r (e r f t) := by
  unfold toAgent
  simp only [hc, hs, hr, Bool.false_eq_true, if_false]

theorem toKeeper_slice (h : isSlice f.dst = true) : toKeeper c e f t = c (agDie f.dst) (agUnit f.dst - 64) f t := if_pos h

theorem toKeeper_home (hs : isSlice f.dst = false) (hh : isHome f.dst = true) : toKeeper c e f t = e (agUnit f.dst) f t := by
  unfold toKeeper
  rw [hs, if_neg Bool.false_ne_true, if_pos hh]

end

/-- What an L2, a slice and an engine do with a kind of message, and what a slice and a home do. -/
abbrev AgentWork : Type := (Nat → Flit → State → State) × (Nat → Nat → Flit → State → State) × (Nat → Flit → State → State)
abbrev KeeperWork : Type := (Nat → Nat → Flit → State → State) × (Nat → Flit → State → State)

/-- The commands that deliver a message to the agent that asked. -/
def agentMsgs (f : Flit) : List (Instr × Net × Nat × AgentWork) :=
  [(.comp f, .rsp, oComp, l2Comp, sliceComp, rpComp), (.evictack f, .rsp, oEvictAck, l2EvictAck, sliceEvictAck, rpEvictAck),
   (.retry f, .rsp, oRetry, takeOnly, sliceRetry, rpRetry), (.creditgrant f, .rsp, oCreditGrant, takeOnly, sliceCredit, rpCredit),
   (.fault f, .rsp, oFault, l2Fault, sliceFault, engFault), (.iocomp f, .rsp, oIoComp, l2Io, takeSlice, rpIoComp),
   (.data f, .dat, oData, l2Data, sliceData, rpData), (.datacopy f, .dat, oDataCopy, l2Data, sliceData, rpData),
   (.iodata f, .dat, oIoData, l2Io, takeSlice, takeOnly)]

theorem exec_agentMsg (f : Flit) (s : State) :
    ∀ c ∈ agentMsgs f, exec c.1 s = act (deliver c.2.1 c.2.2.1 (toAgent c.2.2.2.1 c.2.2.2.2.1 c.2.2.2.2.2) f) s := by
  simp only [agentMsgs, List.forall_mem_cons]
  exact ⟨rfl, rfl, rfl, rfl, rfl, rfl, rfl, rfl, rfl, List.forall_mem_nil _⟩

/-- The commands that deliver a message to the slice or home that keeps the line. -/
def keeperMsgs (f : Flit) : List (Instr × Net × Nat × KeeperWork) :=
  [(.compack f, .rsp, oCompAck, sliceCompAck, homeCompAck), (.snprsp f, .rsp, oSnpRsp, sliceSnpRsp, homeSnpRsp),
   (.snpdata f, .dat, oSnpData, sliceSnpData, homeSnpData), (.rgnmap f, .dat, oRgnMap, takeSlice, homeRgnMap)]

theorem exec_keeperMsg (f : Flit) (s : State) :
    ∀ c ∈ keeperMsgs f, exec c.1 s = act (deliver c.2.1 c.2.2.1 (toKeeper c.2.2.2.1 c.2.2.2.2) f) s := by
  simp only [keeperMsgs, List.forall_mem_cons]
  exact ⟨rfl, rfl, rfl, rfl, List.forall_mem_nil _⟩

/-- Settles O20: `toAgent` and `toKeeper` follow the kind of agent. -/
theorem answersReachTheirRequester : Obligations.AnswersReachTheirRequester := by
  refine ⟨?agents, ?keepers, ?agentOthers, ?keeperOthers⟩
  case agents =>
    intro f s hl c hc ha
    have hx := exec_agentMsg f s c hc
    exact ⟨fun h => exec_reaches hx hl ha (agDie_of_isCore h) (toAgent_core _ h),
      fun hcore h => exec_reaches hx hl ha (agDie_of_isSlice h) (toAgent_slice _ hcore h),
      fun r hcore hslice hr => exec_reaches hx hl ha (agDie_of_engOf hr) (toAgent_engine _ hcore hslice hr)⟩
  case keepers =>
    intro f s hl c hc ha
    have hx := exec_keeperMsg f s c hc
    exact ⟨fun h => exec_reaches hx hl ha (agDie_of_isSlice h) (toKeeper_slice _ h),
      fun hslice h => exec_reaches hx hl ha (agDie_of_isHome h) (toKeeper_home _ hslice h)⟩
  case agentOthers =>
    intro f s hl c hc hm
    have hx := exec_agentMsg f s c hc
    exact ⟨exec_stays hx hl hm, exec_leaves hx hl⟩
  case keeperOthers =>
    intro f s hl c hc hm
    have hx := exec_keeperMsg f s c hc
    exact ⟨exec_stays hx hl hm, exec_leaves hx hl⟩

end Sys2Proof.Machine
end

section
/-! PROOF. Events of the homes (chapters 4, 5 and 9) and the compute die's own operations (chapter 3). -/

namespace Sys2Proof.Machine

section
variable {n : Nat} {s : State}

theorem snpTimeout_awaited {txn a l : Nat} (h : awaited (home s n) txn a = some l) :
    snpTimeout n txn a s = logErr { frame := frHa n, ty := 0x04, cls := 2, consq := true, part := linePart s (64 * l), addr := some (64 * l), agent := some a, fpart := linePart s (64 * l) } s := by
  unfold snpTimeout
  simp only [h]

theorem rsvTimeout_kept {src txn : Nat} {r : RqEnt} (h : (home s n).rsv.find? (fun r => decide (r.src = src) && decide (r.txn = txn)) = some r) :
    rsvTimeout n src txn s = homeRun n (logErr { frame := frHa n, ty := 0x05, cls := 1, consq := true, part := r.part, agent := some src, fpart := r.part }
      (setBit (frHa n) 0x040 48 (updHome n (fun x => { x with rsv := x.rsv.erase r }) s))) := by
  unfold rsvTimeout
  simp only [h]

theorem teardownDone_drained {p : Nat} (h : (home s n).tear.contains p = true)
    (hm : s.memq.any (fun q => decide (q.ha = n) && decide (q.tear = some p)) = false) :
    teardownDone n p s = updPart p (fun x => { x with tearing := x.tearing.erase n }) (updHome n (fun x => { x with tear := x.tear.erase p }) s) :=
  if_pos (by rw [h, hm]; rfl)

theorem resume_reset {p : Nat} {pr : Proc} (hc : s.cox.cur = some pr) (h : n < 32 ∧ p < 12 ∧ (pr.op = 0x03 ∨ pr.op = 0x04) ∧ pr.step = 4 ∧ pr.p = p) :
    resume n p s = updHome n (fun x => { x with off := putBit x.off p false }) s := by
  unfold resume
  simp only [hc, if_pos h]

/-- The time of a snoop passes unless the port of the agent's die parks. -/
theorem snoop_time_passes {ag : Nat} (h : 12 ≤ agDie ag ∨ parking s (agDie ag) = false) :
    (!decide ((decide (agDie ag < 12) && parking s (agDie ag)) = true)) = true := by
  rcases h with h | h
  · simp [Nat.not_lt.mpr h]
  · simp [h]

end

/-- Settles O21: each event, once its conditions hold, is what the home's function for it makes. -/
theorem homeEventsAct : Obligations.HomeEventsAct := by
  refine ⟨?split, ?snoop, ?reservation, ?teardown, ?complete, ?timeout, ?resume⟩
  case split =>
    intro ha g s hl hha _
    exact act_does hl (if_pos hha)
  case snoop =>
    intro ha txn ag l s hl hha hpark haw
    unfold exec
    exact act_does hl ((if_pos ⟨hha, snoop_time_passes hpark⟩).trans (snpTimeout_awaited haw))
  case reservation =>
    intro ha src txn r s hl hha hr
    unfold exec
    exact act_does hl ((if_pos hha).trans (rsvTimeout_kept hr))
  case teardown =>
    intro ha p s hl hha hp htearing htear
    unfold exec
    exact act_does hl (if_pos ⟨hha, hp, htearing, htear⟩)
  case complete =>
    intro ha p s hl htear hm
    unfold exec
    exact act_does hl (teardownDone_drained htear hm)
  case timeout =>
    intro ha p s hl hp htearing
    unfold exec
    exact act_does hl (if_pos ⟨hp, htearing⟩)
  case resume =>
    intro ha p pr s hl hc hha hp hop hstep hpp
    unfold exec
    exact act_does hl (resume_reset hc ⟨hha, hp, hop, hstep, hpp⟩)

/-! ### Register writes -/

/-- A write that may be made is not refused for a frame that its writer does not see. -/
theorem MayWrite.not_unseen {s : State} {p f : Nat} (h : MayWrite s p f) : ¬ (p < 15 ∧ seesFrame s p f = false) := by
  rintro ⟨hp, hf⟩
  rcases h with rfl | ⟨-, hs⟩
  · omega
  · rw [hs] at hf; exact absurd hf (by decide)

section
variable {d sl : Nat} {s : State}

/-- A write that may be made of `L3_LOCKn_CTL` reaches the way lock. -/
theorem regWrite_lockCtl {n p v : Nat} (hd : d < 12) (hn : n < 4) (h : MayWrite s p (frDie d)) :
    regWrite p (frDie d) (0x110 + 0x20 * n) v s = lockCtl d n v s := by
  have hframe : frDie d ≠ frBmc := by unfold frDie frBmc; omega
  have hrange : 0x100 ≤ 0x110 + 0x20 * n ∧ 0x110 + 0x20 * n < 0x180 := by omega
  have hctl : (0x110 + 0x20 * n) % 0x20 = 0x10 := by omega
  have hidx : (0x110 + 0x20 * n - 0x100) / 0x20 = n := by omega
  have hopen : only15 0x30 (0x110 + 0x20 * n) = false := by
    unfold only15
    simp [show 0x110 + 0x20 * n ≠ 0x500 by omega, show 0x110 + 0x20 * n ≠ 0x528 by omega, show 0x110 + 0x20 * n ≠ 0x530 by omega,
      show 0x110 + 0x20 * n ≠ 0x700 by omega]
  unfold regWrite
  simp only [if_neg hframe, frameKind_die hd]
  rw [if_neg h.not_unseen, if_neg (by rw [hopen]; simp), if_neg (by omega), if_pos hrange, if_pos hctl, hidx]

theorem drsWrite_lockCtl {n p v : Nat} (hd : d < 12) (hn : n < 4) (h : MayWrite s p (frDie d)) :
    drsWrite p (frDie d) (0x110 + 0x20 * n) 8 v s = lockCtl d n v s :=
  (drsWrite_reg (frameKind_die hd) h (by simp) (by simp)).trans (regWrite_lockCtl hd hn h)

/-! ### Operations of a die -/

theorem setWaitRelease_free {i : Nat} {f : Flit} (ht : freeTx (slice s d sl) = some i)
    (hf : (slice s d sl).setWait.find? (fun f => (dirKey (slice s d sl) (lineOf f.addr)).isSome || (dirWay (slice s d sl) (lineOf f.addr)).isSome) = some f) :
    setWaitRelease d sl s = sliceRun d sl (acceptReq d sl f (updSlice d sl (fun c => { c with setWait := c.setWait.erase f }) s)) := by
  unfold setWaitRelease
  simp only [ht, hf]

theorem rangeTake_idle {lo hi : Nat} (h : (die s d).ri = none) :
    rangeTake d lo hi s = dieRun d (updDie d (fun x => { x with ri := some { lo := lo, hi := hi } }) s) := by
  unfold rangeTake
  simp only [h]

end

/-- Settles O22: each operation, once its conditions hold, is what the die's function for it makes. -/
theorem dieOperationsAct : Obligations.DieOperationsAct := by
  refine ⟨?release, ?lock, ?sweep, ?take, ?complete, ?timeout, ?noresp⟩
  case release =>
    intro d sl i f s hl hd hsl ht hf
    unfold exec
    exact act_does hl ((if_pos ⟨hd, hsl⟩).trans (setWaitRelease_free ht hf))
  case lock =>
    intro d n v part s hl hd hn hmay _
    unfold exec
    exact act_does hl ((if_pos ⟨hd, hn⟩).trans (drsWrite_lockCtl hd hn hmay))
  case sweep =>
    intro d n t s hl hd _
    unfold exec
    exact act_does hl (if_pos hd)
  case take =>
    intro d lo hi s hl hd hle hri
    unfold exec
    exact act_does hl ((if_pos ⟨hd, hle⟩).trans (rangeTake_idle hri))
  case complete =>
    intro d s hl hd _ _
    unfold exec
    exact act_does hl (if_pos hd)
  case timeout =>
    intro d s hl hd hri
    unfold exec
    exact act_does hl ((if_pos hd).trans (if_pos hri))
  case noresp =>
    intro d s hl hd hr
    unfold exec
    exact act_does hl ((if_pos hd).trans (if_pos hr))

end Sys2Proof.Machine
end

section
/-! PROOF. Flits, credits and training of a link (chapter 6). -/

namespace Sys2Proof.Machine

section
variable {d : Nat} {s : State}

theorem sbWorks_iff : sbWorks s d = true ↔ d < 12 ∧ linkSt s d false ≠ lOFF := by
  unfold sbWorks
  simp only [Bool.and_eq_true, decide_eq_true_eq]

/-- A port that neither refuses nor parks a flit for its die places it on the link. -/
theorem apOutbound_passes {f : Flit} (hd : d < 12) (hdst : agDie f.dst = d) (hway : waitsOnWay s f = false) (hfence : hardFenced s d = false)
    (hoff : apOffline s d = false) (hstop : stopState s (unitStop (0x20 + d)) = 0) (hpark : parking s d = false) :
    apOutbound d f s = linkSend d false f (closeTxn d f false { s with live := s.live.erase f }) := by
  have hhere : ¬(12 ≤ d ∨ agDie f.dst ≠ d ∨ waitsOnWay s f = true) := by simp [Nat.not_le.mpr hd, hdst, hway]
  have hopen : ¬(hardFenced s d ∨ apOffline s d = true) := by simp [hfence, hoff]
  unfold apOutbound
  rw [if_neg hhere, if_neg hopen, if_neg (not_not_intro hstop), if_neg (by rw [hpark]; simp)]

/-! ### The sideband -/

/-- HELLO of the die that the Race card names is answered with an acceptance. -/
theorem helloTake_accepts {body : Nat} (hst : linkSt s d false = lSBUP) (hstep : (lnk s d).tstep = 1)
    (hid : s.dieIds.getD d (0, 0) = (bits body 0 16, bits body 16 16)) : helloTake d body s = sbSend d false 0x09 (d + 16) s := by
  unfold helloTake
  simp only [hst]
  rw [if_neg (by decide), if_pos ⟨trivial, hstep⟩, if_pos hid]

theorem helloAckTake_trains {t : State} (ht : t = answered d true 0x08 s) (hst : linkSt t d true = lSBUP) (hstep : (lnk t d).tstep = 1)
    (hcold : (lnk t d).warm = false) : helloAckTake d true s = clearWgs d (trainStart d lTRAIN 2 t) := by
  subst ht
  unfold helloAckTake
  exact (if_pos ⟨hst, hstep, rfl⟩).trans (if_neg (by rw [hcold]; simp))

theorem trainOver_asleep (hstep : (lnk s d).tstep ≠ 0) (hw : (lnk s d).waking = false) : trainOver d s = trainFail d s :=
  (if_neg hstep).trans (if_neg (by rw [hw]; simp))

theorem trainOver_waking (hstep : (lnk s d).tstep ≠ 0) (hw : (lnk s d).waking = true) :
    trainOver d s = updLink d (fun l => { l with waking := false }) (clearWgs d (trainStart d lTRAIN 3 s)) :=
  (if_neg hstep).trans (if_pos hw)

/-- A REPAIR for a group that the end transmits, of a signal of the group, and with a count ahead or in training, is mirrored and answered. -/
theorem repairTake_mirrors {dieEnd : Bool} {body : Nat} (hg : bits body 0 7 < 96) (hend : dieEnd = bit body 7) (hsig : bits body 8 6 ≤ 36)
    (hop : bit body 15 = true ∨ (lnk s d).tstep = 5) (ht : (lnk s d).tstep = 5 ∨ ahead (bits body 16 32) (lcc s d) = true) :
    repairTake d dieEnd body s = sbSend d dieEnd 0x19 body (updWg d (bits body 0 7 + 96 * bits body 7 1) (fun w =>
      { w with mirror := w.mirror.filter (fun m => !(decide (m.sig = bits body 8 6) && m.spare == bit body 14)) ++
          [{ sig := bits body 8 6, spare := bit body 14, t := bits body 16 32 }] }) s) := by
  have hmine : (decide (bits body 0 7 < 96) && (dieEnd == bit body 7) && decide (bits body 8 6 ≤ 36)) = true := by simp [hg, hend, hsig]
  have hon : ¬(bit body 15 = false ∧ (lnk s d).tstep ≠ 5) := by
    rintro ⟨hclear, hnot⟩
    rcases hop with h | h
    · rw [hclear] at h; exact Bool.false_ne_true h
    · exact hnot h
  unfold repairTake
  simp only [hmine]
  rw [if_neg (by simp), if_neg hon, if_pos ht]

theorem wakePattern_wakes {fromDie : Bool} (hw : sbWorks s d = true) (hst : linkSt s d false = lLP) :
    wakePattern d fromDie 0xCA s = updLink d (fun l => { l with waking := true }) (trainStart d lWAKE 1 s) := by
  unfold wakePattern
  rw [if_neg (by rw [hw]; simp), if_neg (by simp), if_pos hst]

theorem wakePattern_other {fromDie : Bool} {pat : Nat} (hw : sbWorks s d = true) (hp : pat ≠ 0xCA) :
    wakePattern d fromDie pat s =
      updLink d (fun l => if fromDie then { l with wakeIgn := l.wakeIgn + 1 } else { l with wakeIgnD := l.wakeIgnD + 1 }) s := by
  unfold wakePattern
  rw [if_neg (by rw [hw]; simp), if_pos hp]

theorem badFrame_bad {dieEnd : Bool} {frame : Nat} (hw : sbWorks s d = true) (hf : frameGood frame = false) :
    badFrame d dieEnd frame s = logErr (linkErr s d dieEnd 0x06 0 0 false 0x3F) s :=
  if_pos (by rw [hw, hf]; rfl)

theorem sbResend_again {dieEnd : Bool} {ty : Nat} (ha : awaits s d dieEnd ty = true) (hn : mget (lnk s d).unans (ty + b2n dieEnd * 256) < 7) :
    sbResend d dieEnd ty s =
      updLink d (fun l => { l with unans := mset l.unans (ty + b2n dieEnd * 256) (mget (lnk s d).unans (ty + b2n dieEnd * 256) + 1) }) s :=
  (if_neg (by rw [ha]; simp)).trans (if_pos hn)

theorem anyLoss_lost (hw : sbWorks s d = true) : anyLoss d s = linkLost d s := if_pos hw

end

/-- Settles O24: each event, once its conditions hold, is what the link's function for it makes. -/
theorem linkFlitsAndTrainingAct : Obligations.LinkFlitsAndTrainingAct := by
  refine ⟨?toDie, ?fromDie, ?receive, ?credit, ?hello, ?helloAck, ?step, ?fail, ?failWaking, ?beacons, ?beacon, ?report, ?repair, ?repairAck,
    ?switch, ?window, ?recal, ?pwrReq, ?pwrAck, ?wake, ?noise, ?bad, ?resend, ?release, ?assert, ?fclk, ?upClk, ?fatal, ?dieEnd⟩
  case toDie =>
    intro ap f s hl hap hdst hway hfence hoff hstop hpark
    unfold exec
    exact act_does hl ((if_pos ⟨hap, by decide⟩).trans ((if_pos rfl).trans (apOutbound_passes hap hdst hway hfence hoff hstop hpark)))
  case fromDie =>
    intro ap f s hl hap hsrc hdst _
    unfold exec
    exact act_does hl ((if_pos ⟨hap, by decide⟩).trans ((if_neg (by decide)).trans (if_pos ⟨hsrc, hdst⟩)))
  case receive =>
    intro ap dir q net errs s hl hap hdir hq _
    unfold exec
    exact act_does hl (if_pos ⟨hap, hdir, hq⟩)
  case credit =>
    intro ap dir q nreq nsnp nrsp ndat s hl hap hdir hq
    unfold exec
    exact act_does hl (if_pos ⟨hap, hdir, hq⟩)
  case hello =>
    intro d body t s hl hw ht hst hstep hid
    subst ht
    unfold exec
    exact act_does hl ((if_pos hw).trans (helloTake_accepts hst hstep hid))
  case helloAck =>
    intro d pos t s hl hw ht hst hstep hcold
    unfold exec
    exact act_does hl ((if_pos hw).trans (helloAckTake_trains ht hst hstep hcold))
  case step =>
    intro d dieEnd step pass finds s hl hw _ _
    unfold exec
    exact act_does hl (if_pos hw)
  case fail =>
    intro d s hl hw hstep hwake
    unfold exec
    exact act_does hl ((if_pos hw).trans (trainOver_asleep hstep hwake))
  case failWaking =>
    intro d s hl hw hstep hwake
    unfold exec
    exact act_does hl ((if_pos hw).trans (trainOver_waking hstep hwake))
  case beacons =>
    intro d s hl hw hst
    unfold exec
    exact act_does hl ((if_pos hw).trans (if_pos hst))
  case beacon =>
    intro d body t s hl hw ht _
    subst ht
    unfold exec
    exact act_does hl (if_pos hw)
  case report =>
    intro d body t s hl hw ht _
    subst ht
    unfold exec
    exact act_does hl (if_pos hw)
  case repair =>
    intro d dieEnd body t s hl hw ht hg hend hsig hop hahead
    subst ht
    unfold exec
    exact act_does hl ((if_pos hw).trans (repairTake_mirrors hg hend hsig hop hahead))
  case repairAck =>
    intro d dieEnd body s hl hw
    unfold exec
    exact act_does hl (if_pos hw)
  case switch =>
    intro d dieEnd wg s hl hd hwg _
    unfold exec
    exact act_does hl ((if_pos hd).trans (if_pos hwg))
  case window =>
    intro d dieEnd s hl hd
    unfold exec
    exact act_does hl (if_pos hd)
  case recal =>
    intro d dieEnd wg s hl hd hwg hauto hdrift hall
    unfold exec
    exact act_does hl ((if_pos hd).trans (if_pos ⟨hd, hwg, hauto, hdrift, hall⟩))
  case pwrReq =>
    intro d target s hl hw hst ht
    unfold exec
    exact act_does hl ((if_pos hw).trans (if_pos ⟨(sbWorks_iff.mp hw).1, hst, ht⟩))
  case pwrAck =>
    intro d grant s hl hw _
    unfold exec
    exact act_does hl (if_pos hw)
  case wake =>
    intro d fromDie s hl hw hst
    unfold exec
    exact act_does hl ((if_pos hw).trans (wakePattern_wakes hw hst))
  case noise =>
    intro d fromDie pat s hl hw hp
    have hpat : pat.toNat ≠ 0xCA := fun h => hp (BitVec.eq_of_toNat_eq h)
    unfold exec
    exact act_does hl ((if_pos hw).trans (wakePattern_other hw hpat))
  case bad =>
    intro d dieEnd frame s hl hw hf
    unfold exec
    exact act_does hl ((if_pos hw).trans (badFrame_bad hw hf))
  case resend =>
    intro d dieEnd ty s hl hw ha hn
    unfold exec
    exact act_does hl ((if_pos hw).trans (sbResend_again ha hn))
  case release =>
    intro d s hl hd hst
    unfold exec
    exact act_does hl ((if_pos hd).trans (if_pos ⟨hd, hst, hl.1⟩))
  case assert =>
    intro d s hl hd _
    unfold exec
    exact act_does hl (if_pos hd)
  case fclk =>
    intro d q groups s hl hd hq hst hn
    unfold exec
    exact act_does hl ((if_pos hd).trans ((if_pos hq).trans (if_pos ⟨hst, hn⟩)))
  case upClk =>
    intro d s hl hw
    unfold exec
    exact act_does hl ((if_pos (sbWorks_iff.mp hw).1).trans (anyLoss_lost hw))
  case fatal =>
    intro d s hl hw
    unfold exec
    exact act_does hl ((if_pos (sbWorks_iff.mp hw).1).trans (anyLoss_lost hw))
  case dieEnd =>
    intro d s hl hd hst
    unfold exec
    exact act_does hl ((if_pos hd).trans (if_pos ⟨hd, hst⟩))

end Sys2Proof.Machine
end

section
/-! PROOF. Commands and registers of a link (chapter 6), and the fabric with its fences and probes (chapter 7). -/

namespace Sys2Proof.Machine

/-! ### Register writes of the system (R553) -/

section
variable {d off v : Nat} {s : State}

theorem frAp_ne_bmc (h : d < 12) : frAp d ≠ frBmc := by unfold frAp frBmc; omega

theorem frRp_ne_bmc (h : d < 12) : frRp d ≠ frBmc := by unfold frRp frBmc; omega

theorem frDie_ne_bmc (h : d < 12) : frDie d ≠ frBmc := by unfold frDie frBmc; omega

theorem wrAs_system {f : Nat} (h0 : (frameKind f).1 ≠ 0x40) (h1 : (frameKind f).1 ≠ 0x41) : wrAs 15 f off v s = regWrite 15 f off v s := by
  rw [wrAs_may (.inl rfl), drsWrite_reg rfl (.inl rfl) h0 h1]

theorem wrAs_ap (h : d < 12) : wrAs 15 (frAp d) off v s = regWrite 15 (frAp d) off v s :=
  wrAs_system (by simp [frameKind_ap h]) (by simp [frameKind_ap h])

theorem wrAs_rp (h : d < 12) : wrAs 15 (frRp d) off v s = regWrite 15 (frRp d) off v s :=
  wrAs_system (by simp [frameKind_rp h]) (by simp [frameKind_rp h])

theorem wrAs_lnkCtl (h : d < 12) : wrAs 15 (frAp d) 0x408 v s = lnkCtlWrite d false 15 v s := by
  rw [wrAs_ap h]
  unfold regWrite
  simp only [if_neg (frAp_ne_bmc h), frameKind_ap h]
  rw [if_neg (by simp), if_neg (by simp), if_neg (by simp), if_pos trivial]

theorem wrAs_cut (h : d < 12) (out : Bool) : wrAs 15 (frAp d) (if out then 0x418 else 0x410) v s = cutWrite d out v s := by
  rw [wrAs_ap h]
  unfold regWrite
  simp only [if_neg (frAp_ne_bmc h), frameKind_ap h]
  cases out
  · rw [if_neg (by simp), if_neg (by simp), if_neg (by simp), if_neg (by simp), if_pos (by simp)]; rfl
  · rw [if_neg (by simp), if_neg (by simp), if_neg (by simp), if_neg (by simp), if_pos (by simp)]; rfl

/-- The system's write of an injection register, while injection is enabled, of a value that is not refused (R525). -/
theorem wrAs_inject {f : Nat} (hf : f ≠ frBmc) (hb : hasErrBank (frameKind f).1 = true) (hen : fbit s frFlt 8 0 = true) (hv : injRefused f v = false) :
    wrAs 15 f 0x530 v s = { setReg f 0x530 (BitVec.ofNat 64 (bits v 0 7 + bits v 8 10 * 256 + bits v 32 16 * 2 ^ 32)) s with
      flt := { s.flt with injAt := mset s.flt.injAt f (if bit v 16 then s.tb else 0) } } := by
  have h0 : (frameKind f).1 ≠ 0x40 := by intro h; rw [h] at hb; revert hb; decide
  have h1 : (frameKind f).1 ≠ 0x41 := by intro h; rw [h] at hb; revert hb; decide
  have hk : keyKind f = (frameKind f).1 := if_neg hf
  rw [wrAs_system h0 h1]
  unfold regWrite
  simp only [if_neg hf]
  rw [if_neg (by simp), if_neg (by simp), if_pos ⟨hb, trivial⟩]
  exact if_pos ⟨rfl, hen, hk ▸ hb, hv⟩

theorem frEnd_ne_bmc (h : d < 12) (dieEnd : Bool) : frEnd d dieEnd ≠ frBmc := by
  cases dieEnd
  · exact frAp_ne_bmc h
  · exact frDie_ne_bmc h

theorem hasErrBank_frEnd (h : d < 12) (dieEnd : Bool) : hasErrBank (frameKind (frEnd d dieEnd)).1 = true := by
  cases dieEnd
  · exact congrArg (fun k => hasErrBank k.1) (frameKind_ap h)
  · exact congrArg (fun k => hasErrBank k.1) (frameKind_die h)

/-! ### `LNK_CTL` (Table 6.15) -/

/-- The system's command in `LNK_CTL`: the register takes it with the other fields as they are. -/
def lnkCtlTaken (d cmd : Nat) (s : State) : State := genWrite (frAp d) 0x408 (setBits (reg s (frAp d) 0x408).toNat 0 5 cmd) s

theorem linkCtl_system (h : d < 12) (cmd : Nat) :
    linkCtl d cmd 15 s = lnkCtlWrite d false 15 (setBits (reg s (frAp d) 0x408).toNat 0 5 cmd) s :=
  (if_pos h).trans (wrAs_lnkCtl h)

theorem bits_cmd (n cmd : Nat) : bits (setBits n 0 5 cmd) 0 4 = cmd % 16 := by
  rw [bits_setBits_sub _ _ _ _ _ _ (by decide), bits_eq_div_mod]
  simp

theorem linkCtl_retrain (h : d < 12) : linkCtl d 1 15 s = linkRetrain d (lnkCtlTaken d 1 s) := by
  rw [linkCtl_system h]
  unfold lnkCtlWrite
  simp only [bits_cmd]
  exact if_neg (by simp)

theorem linkCtl_hold (h : d < 12) : linkCtl d 3 15 s = linkHoldCmd d (lnkCtlTaken d 3 s) := by
  rw [linkCtl_system h]
  unfold lnkCtlWrite
  simp only [bits_cmd]
  exact if_neg (by simp)

theorem linkCtl_recal (h : d < 12) : linkCtl d 4 15 s = linkRecal d (lnkCtlTaken d 4 s) := by
  rw [linkCtl_system h]
  unfold lnkCtlWrite
  simp only [bits_cmd]
  exact if_neg (by simp)

/-- CLRMASK stands beside the command (Table 6.15). -/
theorem bit_clrmask (n : Nat) (clr : Bool) : bit (setBits n 0 5 (2 + 16 * b2n clr)) 4 = clr := by
  rw [bit_setBits _ _ _ _ _ (by decide)]
  cases clr <;> decide

theorem linkCtl_retrainFull (h : d < 12) (clr : Bool) :
    linkCtl d (2 + 16 * b2n clr) 15 s = linkRetrainFull d clr (lnkCtlTaken d (2 + 16 * b2n clr) s) := by
  have hcmd : (2 + 16 * b2n clr) % 16 = 2 := by omega
  rw [linkCtl_system h]
  unfold lnkCtlWrite
  simp only [bits_cmd, hcmd, bit_clrmask]
  exact if_neg (by simp)

end

/-- Settles O25: each write reaches the register's own function. -/
theorem linkRegistersAct : Obligations.LinkRegistersAct := by
  refine ⟨?retrain, ?retrainFull, ?hold, ?recal, ?cut, ?inject⟩
  case retrain =>
    intro d t s hl hd _ ht
    subst ht
    unfold exec
    exact act_does hl (linkCtl_retrain hd)
  case retrainFull =>
    intro d clr t s hl hd _ ht
    subst ht
    unfold exec
    exact act_does hl (linkCtl_retrainFull hd clr)
  case hold =>
    intro d t s hl hd ht
    subst ht
    unfold exec
    exact act_does hl (linkCtl_hold hd)
  case recal =>
    intro d t s hl hd _ ht
    subst ht
    unfold exec
    exact act_does hl (linkCtl_recal hd)
  case cut =>
    intro d out v s hl hd _
    unfold exec
    exact act_does hl ((if_pos hd).trans (wrAs_cut hd out))
  case inject =>
    intro d dieEnd v s hl hd hen hv
    unfold exec
    exact act_does hl ((if_pos hd).trans (wrAs_inject (frEnd_ne_bmc hd dieEnd) (hasErrBank_frEnd hd dieEnd) hen hv))

/-! ### The fabric (chapter 7) -/

section
variable {stop : Nat} {f : Flit} {s : State}

/-- A routed flit that its partition's routes allow enters the mesh, marked with the epoch in force, when nothing holds it. -/
theorem niInject_enters {t : State} (hstop : stop < 96) (hway : waitsOnWay s f = false) (hsys : f.sys = true)
    (hvalid : bit (routeEnt s (bank s) stop (dstStop f.dst)) 52 = true) (hpart : bit (routeEnt s (bank s) stop (dstStop f.dst)) (36 + f.part) = true)
    (ht : t = { s with live := s.live ++ [{ f with epoch := decide (bank s = 1) }], wires := swapFlit f { f with epoch := decide (bank s = 1) } s.wires })
    (hhold : mustHoldNi t stop { f with epoch := decide (bank s = 1) } = false) : niInject stop f s = t := by
  have hhere : ¬(96 ≤ stop ∨ waitsOnWay s f = true) := by simp [Nat.not_le.mpr hstop, hway]
  subst ht
  unfold niInject
  rw [if_neg hhere, if_neg (by simp [hsys])]
  simp only [hvalid, hpart]
  rw [if_neg (by simp), if_neg (by simp)]
  exact if_neg (by rw [hhold]; simp)

theorem stopWrite_takes {v : Nat} (hstop : stop < 96) (hv : v % 4 ≠ 3) (ho : v % 4 ≠ 2 ∨ oldCnt s = 0) :
    stopWrite stop v s = setFld frIof (0x100 + 8 * stop) 0 2 (v % 4) s := by
  unfold stopWrite
  rw [if_neg (by omega), if_neg (by omega)]

theorem wrAs_route {bk e v : Nat} (hstop : stop < 96) (hbk : bk < 2) (he : e < 97) :
    wrAs 15 (frNi stop) (0x1000 + 0x400 * bk + 8 * e) v s = routeWrite stop bk e v s := by
  have hframe : frNi stop ≠ frBmc := by unfold frNi frBmc; omega
  have hrange : 0x1000 ≤ 0x1000 + 0x400 * bk + 8 * e ∧ 0x1000 + 0x400 * bk + 8 * e < 0x1800 ∧ (0x1000 + 0x400 * bk + 8 * e - 0x1000) % 0x400 / 8 < 97 := by
    omega
  have hbank : (0x1000 + 0x400 * bk + 8 * e - 0x1000) / 0x400 = bk := by omega
  have hent : (0x1000 + 0x400 * bk + 8 * e - 0x1000) % 0x400 / 8 = e := by omega
  rw [wrAs_system (by simp [frameKind_ni hstop]) (by simp [frameKind_ni hstop])]
  unfold regWrite
  simp only [if_neg hframe, frameKind_ni hstop]
  rw [if_neg (by simp), if_neg (by simp), if_neg (by omega), if_pos hrange, hbank, hent]

theorem routeWrite_idle {bk e v : Nat} (hstop : stop < 96) (hbk : bk < 2) (he : e < 97) (hidle : bk ≠ bank s)
    (hv : bit v 52 = false ∨ routeBad stop e v = false) :
    routeWrite stop bk e v s = { s with fab := { s.fab with ents := mins s.fab.ents (entKey bk stop e) (BitVec.ofNat 64 (v % 2 ^ 53)) } } := by
  have hok : ¬(bk = bank s ∨ (bit v 52 = true ∧ routeBad stop e v = true)) := by
    rintro (h | ⟨h1, h2⟩)
    · exact hidle h
    · rcases hv with h | h
      · rw [h] at h1; exact Bool.false_ne_true h1
      · rw [h] at h2; exact Bool.false_ne_true h2
  unfold routeWrite
  rw [if_neg (by omega), if_neg hok]

end

/-! ### Ports, fences and parking -/

section
variable {n : Nat} {f : Flit} {s : State}

theorem portOk_iff : portOk n = true ↔ n < 12 ∨ (16 ≤ n ∧ n < 28) := by
  unfold portOk
  simp only [Bool.or_eq_true, Bool.and_eq_true, decide_eq_true_eq]

/-- The system's write of a port's fence control (Table 7.8). -/
theorem wrAs_fence (h : portOk n = true) (v : Nat) : wrAs 15 (frPort n) 0x600 v s = fenceWrite n v s := by
  rcases portOk_iff.mp h with h | ⟨h16, h28⟩
  · rw [show frPort n = frAp n from if_pos (by omega), wrAs_ap h]
    unfold regWrite
    simp only [if_neg (frAp_ne_bmc h), frameKind_ap h]
    rw [if_neg (by simp), if_neg (by simp), if_neg (by simp), if_neg (by simp), if_neg (by simp), if_neg (by simp), if_pos trivial]
  · have hr : n - 16 < 12 := by omega
    rw [show frPort n = frRp (n - 16) from if_neg (by omega), wrAs_rp hr]
    unfold regWrite
    simp only [if_neg (frRp_ne_bmc hr), frameKind_rp hr]
    rw [if_neg (by simp), if_neg (by simp), if_neg (by simp), if_pos trivial, show 16 + (n - 16) = n by omega]

/-- REQ 0 lifts the fence, and MODE takes the write (R10). -/
theorem fenceWrite_lift (b : Bool) : fenceWrite n (2 * b2n b) s = fenceLift n (setFld (frPort n) 0x600 1 1 (b2n b) s) := by
  cases b <;> rfl

/-- A port with no hard fence takes a flit that its die may send, while no fence is in force (R155, R250). -/
theorem apInbound_admits (hn : n < 12) (hhard : hardFenced s n = false) (hadm : admits s n f = true) (hopen : (port s n).fenced = false) :
    apInbound n f s = closeTxn n f true (if f.net = .req then openTx n f s else s) := by
  unfold apInbound
  rw [if_neg (by omega), if_neg (by rw [hhard]; simp), if_neg (by rw [hadm]; simp), if_neg (by rw [hopen]; simp)]

theorem fencedNow_root (hn : 16 ≤ n) (hsoft : (port s n).soft = true) (hopen : (port s n).opentx = []) :
    fencedNow n s = updPort n (fun p => { p with soft := false, fenced := true }) s := by
  refine if_pos ?_
  rw [hsoft, hopen, if_neg (by omega)]
  rfl

theorem fencedNow_die (hn : n < 12) (hsoft : (port s n).soft = true) (hopen : (port s n).opentx = []) (hgate : (die s n).gate = true)
    (hfly : (lnk s n).fly.all (fun x => !x.out) = true) (hleft : leaving s n = []) :
    fencedNow n s = updPort n (fun p => { p with soft := false, fenced := true }) s := by
  refine if_pos ?_
  rw [hsoft, hopen, if_pos (by omega), hgate, hfly, hleft]
  rfl

theorem fenceTimeout_soft {t : State} (hsoft : (port s n).soft = true) (ht : t = setBit (frPort n) 0x608 1 (fenceLift n s)) :
    fenceTimeout n s =
      logErr { frame := frStop (portUnit n), ty := 0x05, cls := 1, consq := true, part := if n < 16 then diePart t n else rpPart t (n - 16) } t := by
  subst ht
  exact if_pos hsoft

/-- A port that parks, and is not full, keeps a flit for its die (R254, R255). -/
theorem apOutbound_parks (hn : n < 12) (hdst : agDie f.dst = n) (hway : waitsOnWay s f = false) (hfence : hardFenced s n = false)
    (hoff : apOffline s n = false) (hstop : stopState s (unitStop (0x20 + n)) = 0) (hpark : parking s n = true) (hfull : parkFull s n = false)
    (hwire : s.wires.contains f = true) (hst : linkSt s n false ≠ lLP) :
    apOutbound n f s = updPort n (fun p => { p with park := p.park ++ [f] }) s := by
  have hhere : ¬(12 ≤ n ∨ agDie f.dst ≠ n ∨ waitsOnWay s f = true) := by simp [Nat.not_le.mpr hn, hdst, hway]
  have hopen : ¬(hardFenced s n ∨ apOffline s n = true) := by simp [hfence, hoff]
  unfold apOutbound
  rw [if_neg hhere, if_neg hopen, if_neg (not_not_intro hstop), if_pos hpark]
  simp only [if_pos hwire, hfull]
  exact if_neg hst

/-- A counter of a probe, whose registers the system sees (R544, R548). -/
theorem wrAs_probeCnt {k v : Nat} (hk : k < 16) :
    wrAs 15 (frPb (k / 4)) (0x118 + 0x40 * (k % 4)) v s = genWrite (frPb (k / 4)) (0x118 + 0x40 * (k % 4)) v s := by
  have hpb : k / 4 < 4 := by omega
  have hframe : frPb (k / 4) ≠ frBmc := by unfold frPb frBmc; omega
  have hreg : 0x100 ≤ 0x118 + 0x40 * (k % 4) ∧ 0x118 + 0x40 * (k % 4) < 0x200 ∧ seesProbe s 15 (4 * (k / 4) + (0x118 + 0x40 * (k % 4) - 0x100) / 0x40) = true :=
    ⟨by omega, by omega, rfl⟩
  rw [wrAs_system (by simp [frameKind_pb hpb]) (by simp [frameKind_pb hpb])]
  unfold regWrite
  simp only [if_neg hframe, frameKind_pb hpb]
  rw [if_neg (by simp), if_neg (by simp), if_neg (by omega), if_pos hreg]

end

/-- Settles O26: each command, once its conditions hold, is what the fabric's function for it makes. -/
theorem fabricCommandsAct : Obligations.FabricCommandsAct := by
  refine ⟨?inject, ?disabled, ?switch, ?drained, ?stopCtl, ?route, ?inbound, ?soft, ?fencedRoot, ?fencedDie, ?timeout, ?hard, ?lift,
    ?coxFence, ?unfence, ?park, ?fall, ?release, ?probe, ?count⟩
  case inject =>
    intro stop f t s hl hids hord hstop hway hsys hvalid hpart ht hhold
    unfold exec
    exact act_does hl ((if_neg (by simp [hids])).trans ((if_pos hord).trans (niInject_enters hstop hway hsys hvalid hpart ht hhold)))
  case disabled =>
    intro stop f s hl hstop _ _
    unfold exec
    exact act_does hl (if_pos hstop)
  case switch =>
    intro s hl _
    exact exec_switch_system hl
  case drained =>
    intro s hl ho
    unfold exec
    exact act_does hl (if_pos ho)
  case stopCtl =>
    intro stop v s hl hstop hv ho
    rw [exec_stopCtl_system v hl hstop, stopWrite_takes hstop hv ho]
  case route =>
    intro stop bk e v s hl hstop hbk he hidle hv
    unfold exec
    exact act_does hl ((if_pos ⟨hstop, hbk, he⟩).trans ((wrAs_route hstop hbk he).trans (routeWrite_idle hstop hbk he hidle hv)))
  case inbound =>
    intro ap f s hl hap hsrc hhard hadm hopen
    unfold exec
    exact act_does hl ((if_pos hsrc).trans (apInbound_admits hap hhard hadm hopen))
  case soft =>
    intro pt s hl hpt
    unfold exec
    exact act_does hl ((if_pos hpt).trans (wrAs_fence hpt 1))
  case fencedRoot =>
    intro pt s hl h12 hpt hsoft hopen
    have h16 : 16 ≤ pt := by rcases portOk_iff.mp hpt with h | h <;> omega
    unfold exec
    exact act_does hl ((if_pos hpt).trans ((if_neg (by omega)).trans (fencedNow_root h16 hsoft hopen)))
  case fencedDie =>
    intro pt s hl hd hsoft hopen hgate hfly hleft
    unfold exec
    exact act_does hl ((if_pos (portOk_iff.mpr (.inl hd))).trans
      ((if_pos hd).trans (congrArg (d3Advance pt) (fencedNow_die hd hsoft hopen hgate hfly hleft))))
  case timeout =>
    intro pt t s hl hpt hsoft ht
    unfold exec
    exact act_does hl ((if_pos hpt).trans (fenceTimeout_soft hsoft ht))
  case hard =>
    intro pt s hl hpt
    unfold exec
    exact act_does hl ((if_pos hpt).trans (wrAs_fence hpt 3))
  case lift =>
    intro pt s hl hpt _
    unfold exec
    exact act_does hl ((if_pos hpt).trans ((wrAs_fence hpt _).trans (fenceWrite_lift _)))
  case coxFence =>
    intro d s hl hd
    unfold exec
    exact act_does hl (if_pos hd)
  case unfence =>
    intro d s hl hd
    unfold exec
    exact act_does hl (if_pos hd)
  case park =>
    intro ap f s hl hap hdst hway hfence hoff hstop hpark hfull hwire hst
    unfold exec
    exact act_does hl ((if_pos ⟨hap, hpark⟩).trans (apOutbound_parks hap hdst hway hfence hoff hstop hpark hfull hwire hst))
  case fall =>
    intro ap s hl hap hfull
    unfold exec
    exact act_does hl (if_pos ⟨hap, hfull⟩)
  case release =>
    intro ap s hl hap
    unfold exec
    exact act_does hl (if_pos hap)
  case probe =>
    intro stop pt f s hl hin
    unfold exec
    exact act_does hl (if_pos ⟨rfl, hin⟩)
  case count =>
    intro k v s hl hk
    unfold exec
    exact act_does hl ((if_pos hk).trans (wrAs_probeCnt hk))

end Sys2Proof.Machine
end

section
/-! PROOF. Sleep, time and the loss of power (chapters 14, 16 and 18). -/

namespace Sys2Proof.Machine

section
variable {d h : Nat} {s : State}

theorem d3Entry_ready (hr : d3Ready s d = true) :
    d3Entry d s = (List.range 24).foldl (fun u k =>
      sliceRun d k ((((slice u d k).rgn.filter (fun e => e.2.v)).map (·.1)).foldl (fun w key => rgnRelease d k key w)
        ((((slice u d k).l3.filter (fun e => e.2.v && (!(bit (fld s (frDie d) 0x200 4 4) (e.1 % 12 / 3)) || bit (fld s (frDie d) 0x180 16 4) (e.1 % 12 / 3)))).map (·.1)).foldl
          (fun w key => l3Evict d k key w) u))) (updDie d (fun x => { x with d3step := 1 }) s) :=
  if_neg (by rw [hr]; simp)

/-- Before the die is fenced, an entry that ends leaves no fence to lift (R487). -/
theorem d3Abort_unfenced (hn : (die s d).d3step = 1 ∨ (die s d).d3step = 2) :
    d3Abort d s = sendDemand d (updCard (fun c => { c with d3wait := mset c.d3wait d (if hartsPermit s d 120000 3 then s.tb + 1000000 else 0) })
      (updDie d (fun x => { x with d3step := 0 }) s)) := by
  unfold d3Abort
  rw [if_neg (by omega)]
  simp only [show ¬ 3 ≤ (die s d).d3step by omega]
  rfl

theorem d3Abort_fenced (hn : 3 ≤ (die s d).d3step) :
    d3Abort d s = sendDemand d (updCard (fun c => { c with d3wait := mset c.d3wait d (if hartsPermit s d 120000 3 then s.tb + 1000000 else 0) })
      (fenceLift d (updDie d (fun x => { x with d3step := 0 }) s))) := by
  unfold d3Abort
  rw [if_neg (by omega)]
  simp only [hn]
  rfl

/-- The package's wake sources wake the package alone, and only from K3. -/
theorem wakeFrom_package {src : Nat} (hs : src < 4) (hk : s.card.k3 = true) :
    wakeFrom src s = setFld frPpa 0x048 0 1 0 (updCard (fun c => { c with k3 := false }) s) :=
  (if_pos hs).trans (if_pos hk)

theorem wakeFrom_die (hd : d < 12) (h3 : (die (k3Wake s) d).d3 = true) : wakeFrom (16 + d) s = wakePattern d true 0xCA (k3Wake s) := by
  unfold wakeFrom
  rw [if_neg (by omega), if_pos (by omega), Nat.add_sub_cancel_left]
  exact if_pos h3

section
variable {t : State} (hh : h < 576) (hst : (hart s h).st ≠ .parked) (ht : t = k3Wake (updHart h (fun x => { x with timer := true }) s))
include hh hst ht

theorem timerCompare_awake (h3 : (die t (h / 48)).d3 = false) (hstep : (die t (h / 48)).d3step = 0) : timerCompare h s = wakeHart h t := by
  subst ht
  unfold timerCompare
  rw [if_neg (by simp [hh, hst])]
  exact (if_neg (by rw [h3]; simp)).trans (if_neg (not_not_intro hstep))

theorem timerCompare_entering (h3 : (die t (h / 48)).d3 = false) (hstep : (die t (h / 48)).d3step ≠ 0) :
    timerCompare h s = d3Abort (h / 48) (wakeHart h t) := by
  subst ht
  unfold timerCompare
  rw [if_neg (by simp [hh, hst])]
  exact (if_neg (by rw [h3]; simp)).trans (if_pos hstep)

theorem timerCompare_asleep (h3 : (die t (h / 48)).d3 = true) : timerCompare h s = wakePattern (h / 48) true 0xCA t := by
  subst ht
  unfold timerCompare
  rw [if_neg (by simp [hh, hst])]
  exact (if_pos h3).trans (if_pos h3)

end

/-- The system's write of the window length (R543). -/
theorem wrAs_winCtl (v : Nat) : wrAs 15 frIof 0x800 v s = winWrite v s := by
  rw [wrAs_iof_system]
  rfl

end

/-- Settles O28: each event, once its conditions hold, is what the power unit's function for it makes. -/
theorem sleepAndPowerLossAct : Obligations.SleepAndPowerLossAct := by
  refine ⟨?entry, ?abort, ?abortFenced, ?k3, ?wake, ?wakeDie, ?timer, ?timerEntering, ?timerAsleep, ?ref, ?rail, ?aon, ?window, ?length, ?firstLength⟩
  case entry =>
    intro d s hl hr
    unfold exec
    exact act_does hl (d3Entry_ready hr)
  case abort =>
    intro d s hl hn
    unfold exec
    exact act_does hl (d3Abort_unfenced hn)
  case abortFenced =>
    intro d s hl hn
    unfold exec
    exact act_does hl (d3Abort_fenced hn)
  case k3 =>
    intro s hl _
    unfold exec
    exact act_does hl rfl
  case wake =>
    intro src s hl hs hk
    unfold exec
    exact act_does hl (wakeFrom_package hs hk)
  case wakeDie =>
    intro d s hl hd h3
    unfold exec
    exact act_does hl (wakeFrom_die hd h3)
  case timer =>
    intro h t s hl hh hst ht h3 hstep
    unfold exec
    exact act_does hl (timerCompare_awake hh hst ht h3 hstep)
  case timerEntering =>
    intro h t s hl hh hst ht h3 hstep
    unfold exec
    exact act_does hl (timerCompare_entering hh hst ht h3 hstep)
  case timerAsleep =>
    intro h t s hl hh hst ht h3
    unfold exec
    exact act_does hl (timerCompare_asleep hh hst ht h3)
  case ref =>
    intro s hl
    unfold exec
    exact act_does hl rfl
  case rail =>
    intro rail s hl hr
    unfold exec
    exact act_does hl (if_pos ⟨hl.1, hr⟩)
  case aon =>
    intro s
    rfl
  case window =>
    intro s hl _ _
    unfold exec
    exact act_does hl rfl
  case length =>
    intro v part s hl hpart hlen
    subst hpart
    unfold exec
    exact act_does hl ((wrAs_winCtl v.toNat).trans (if_neg hlen))
  case firstLength =>
    intro v part s hl hpart hlen
    subst hpart
    unfold exec
    exact act_does hl ((wrAs_winCtl v.toNat).trans (if_pos hlen))

end Sys2Proof.Machine
end

section
/-! PROOF. The lifecycle commands of a manager (chapter 9). -/

namespace Sys2Proof.Machine

/-- No self-test runs on the target of a command that the Cox takes. -/
theorem CoxTakes.names {pr : Proc} {s : State} (h : CoxTakes pr s) : namesTest (cmdTaken pr s) pr = false := by
  obtain ⟨-, -, -, -, -, -, hn⟩ := h
  exact hn

theorem mgrAct_takes {op : Nat} {c : MgrCmd} {s u : State} (h : CoxTakes { op := op, c := c } s)
    (hu : cmdStep { op := op, c := c } (cmdTaken { op := op, c := c } s) = some u) : mgrAct op c s = .next (coxThen u) :=
  cox_takes h hu

/-- Routes that exist for a new layout are written and switched. -/
theorem withRoutes_exist {s t : State} {next : State → State} (h : routesExist (routeSet t (nowVis t)) = true) :
    withRoutes s t next = next (switchRoutes t) := if_pos h

section
variable {pr : Proc} {s : State} (hs : pr.step = 0)

/-! ### The first step of each command -/

include hs in
theorem partCreate_begins {u : State} (hp : argP pr < 12) (hd : argD pr < 12) (hst : (part s (argP pr)).st = .none)
    (hspare : dieSpare s (argD pr) = true) (hdr : drained s = true)
    (hu : u = updPart (argP pr) (fun x => { x with st := .stopped, dies := 2 ^ argD pr }) (updDie (argD pr) (fun x => { x with asg := some (argP pr) }) s))
    (hr : routesExist (routeSet u (nowVis u)) = true) :
    partCreate pr s = some (mgrStep { pr with step := 1, p := argP pr, d := argD pr } (switchRoutes u)) := by
  subst hu
  unfold partCreate
  rw [if_neg (by omega), if_neg (by omega), if_neg (by simp [hst, hspare]), if_neg (by simp [hdr])]
  exact congrArg some (withRoutes_exist hr)

theorem partStart_starts (hp : argP pr < 12) (hst : (part s (argP pr)).st = .stopped) (hdies : (part s (argP pr)).dies ≠ 0)
    (hshadow : isShadow s (argP pr) = false) : partStart pr s = mgrEnd rDONE 0 (partRun (argP pr) (partUnfence (argP pr) s)) := by
  unfold partStart
  rw [if_neg (by omega), if_neg (by simp [hst, hdies, hshadow])]

include hs in
/-- A running partition that stops or resets begins by invalidating its range and parking its harts (Table 9.9 step 1). -/
theorem partReset_begins (hp : argP pr < 12) (hst : (part s (argP pr)).st = .running) :
    partReset pr s = some (mgrStep { pr with step := 1, p := argP pr, n := 0 } (rangeSend (diesOf (setPart (argP pr) .changing s) (argP pr)) 0 (2 ^ 44 - 1)
      ((hartsOf (setPart (argP pr) .changing s) (argP pr)).foldl (fun s h => parkHart h s) (setPart (argP pr) .changing s)))) := by
  unfold partReset
  simp only [hs]
  rw [if_neg (by omega), hst]
  rfl

include hs in
theorem partDelete_begins (hp : argP pr < 12) (hst : (part s (argP pr)).st = .stopped) :
    partDelete pr s = some (mgrStep { pr with step := 1, p := argP pr, d := argP pr, l := setsOf s (argP pr) } s) := by
  unfold partDelete
  simp only [hs]
  rw [if_neg (by omega), if_neg (not_not_intro hst)]

include hs in
theorem dieEvacuate_begins (hp : argP pr < 12) (hd : argD pr < 12) (hst : (part s (argP pr)).st = .running) (hlen : 2 ≤ (diesOf s (argP pr)).length)
    (hown : ownsDie s (argP pr) (argD pr) = true) (hshadow : isShadow s (argP pr) = false)
    (hpark : (List.range 48).all (fun c => (hart s (48 * argD pr + c)).st = .parked) = true) :
    dieEvacuate pr s =
      some (mgrStep { pr with step := 1, p := argP pr, d := argD pr } (rangeSend [argD pr] 0 (2 ^ 44 - 1) (setPart (argP pr) .changing s))) := by
  have hok : ¬((part s (argP pr)).st ≠ .running ∨ (diesOf s (argP pr)).length < 2 ∨ ownsDie s (argP pr) (argD pr) = false ∨ isShadow s (argP pr) = true ∨
      (List.range 48).all (fun c => (hart s (48 * argD pr + c)).st = .parked) = false) := by
    rw [hst, hown, hshadow, hpark]
    simp only [ne_eq, not_true_eq_false, reduceCtorEq, or_false, false_or]
    omega
  unfold dieEvacuate
  simp only [hs]
  rw [if_neg (by omega), if_neg hok]

include hs in
theorem dieAdd_begins {u : State} (hp : argP pr < 12) (hd : argD pr < 12) (hst : (part s (argP pr)).st = .stopped)
    (hspare : dieSpare s (argD pr) = true) (hshadow : isShadow s (argP pr) = false) (hdr : drained s = true)
    (hu : u = updDie (argD pr) (fun x => { x with asg := some (argP pr) }) (updPart (argP pr) (fun x => { x with dies := putBit x.dies (argD pr) true }) s))
    (hr : routesExist (routeSet u (nowVis u)) = true) :
    dieAdd pr s = some (mgrStep { pr with step := 1, p := argP pr, d := argD pr, n := 0, bad := false }
      (updPart (argP pr) (fun x => { x with dies := putBit x.dies (argD pr) false }) (switchRoutes u))) := by
  subst hu
  unfold dieAdd
  simp only [hs, hst]
  rw [if_neg (by omega), if_neg (by simp [hspare, hshadow]), if_neg (by simp [hdr])]
  exact congrArg some (withRoutes_exist hr)

include hs in
theorem slabAssign_begins {b : Nat} (hp : argP pr < 12) (hb : b = setBase s (argS pr)) (hst : (part s (argP pr)).st ≠ .none)
    (hgood : setBad s b = false) (hfree : slState (slabEnt s b) = slFREE) (hshadow : isShadow s (argP pr) = false)
    (hport : slKind (slabEnt s b) ≠ 2 ∨ ownsRp s (argP pr) (slDslab (slabEnt s b) % 16) = true) :
    slabAssign pr s = some (mgrStep { pr with step := 1, p := argP pr, n := b, d := 15 } s) := by
  subst hb
  have hown : ¬(slKind (slabEnt s (setBase s (argS pr))) = 2 ∧ ownsRp s (argP pr) (slDslab (slabEnt s (setBase s (argS pr))) % 16) = false) := by
    rintro ⟨hk, ho⟩
    rcases hport with h | h
    · exact h hk
    · rw [ho] at h; exact Bool.false_ne_true h
  unfold slabAssign
  rw [if_neg (not_not_intro hs), if_neg (by omega)]
  exact if_neg (by simp only [hst, hgood, hfree, hshadow, hown]; simp)

include hs in
theorem slabRelease_begins {b : Nat} (hb : b = setBase s (argS pr)) (hgood : setBad s b = false) (howned : slState (slabEnt s b) = slOWNED)
    (hshadow : isShadow s (slOwner (slabEnt s b)) = false) :
    slabRelease pr s = some (mgrStep { pr with step := 1, p := 15, n := b, d := slOwner (slabEnt s b) } s) := by
  subst hb
  unfold slabRelease
  rw [if_neg (not_not_intro hs)]
  exact (if_neg (by simp [hgood])).trans (if_pos ⟨howned, hshadow⟩)

include hs in
theorem rpAssign_begins {u : State} (hp : argP pr < 12) (hd : argD pr < 12) (hst : (part s (argP pr)).st ≠ .none) (hfree : rpPart s (argD pr) = 15)
    (hpair : fbit s (frRp (argD pr)) 0 3 = false) (hbh : bhPort s (argD pr) = false) (hdr : drained s = true)
    (hu : u = updPart (argP pr) (fun x => { x with rps := putBit x.rps (argD pr) true }) s) (hr : routesExist (routeSet u (nowVis u)) = true) :
    rpAssign pr s = some (mgrStep { pr with step := 1, p := argP pr, d := argD pr } (switchRoutes u)) := by
  subst hu
  unfold rpAssign
  rw [if_neg (by omega), if_neg (by omega), if_neg (by simp [hst, hfree, hpair, hbh]), if_neg (by simp [hdr])]
  exact congrArg some (withRoutes_exist hr)

include hs in
theorem rpRelease_begins (hd : argD pr < 12) (hown : rpPart s (argD pr) ≠ 15) :
    rpRelease pr s = some (mgrStep { pr with step := 1, p := rpPart s (argD pr), d := argD pr } (softFence (16 + argD pr) s)) := by
  unfold rpRelease
  simp only [hs]
  rw [if_neg (by omega), if_neg hown]

theorem partQuery_answers (hp : argP pr < 12) :
    partQuery pr s =
      mgrEnd rDONE (pStateCode (part s (argP pr)).st + (part s (argP pr)).dies * 2 ^ 4 + (part s (argP pr)).rps * 2 ^ 16) s :=
  if_neg (by omega)

theorem errInject_injects (hen : fbit s frFlt 8 0 = true) (hb : hasErrBank (frameKind (bits (arg0 pr) 0 12)).1 = true)
    (hv : injRefused (bits (arg0 pr) 0 12) (arg1 pr) = false) :
    errInject pr s = mgrEnd rDONE 0 (injWrite (bits (arg0 pr) 0 12) 15 (arg1 pr) s) := by
  unfold errInject
  rw [if_neg (by simp [hen]), if_neg (by simp [hb, hv])]

end

/-- Settles O29: the Cox at rest runs the command's own function, whose first step the conditions open. -/
theorem lifecycleCommandsRun : Obligations.LifecycleCommandsRun := by
  refine ⟨?create, ?start, ?stop, ?reset, ?delete, ?evacuate, ?add, ?assign, ?release, ?rpAssign, ?rpRelease, ?query, ?inject⟩
  case create =>
    intro c u pr s t hpr ht h hp hd hst hspare hdr hu hr
    subst hpr ht
    unfold exec
    exact mgrAct_takes h ((cmdStep_partCreate h.names rfl).trans (partCreate_begins rfl hp hd hst hspare hdr hu hr))
  case start =>
    intro c pr s t hpr ht h hp hst hdies hshadow
    subst hpr ht
    unfold exec
    exact mgrAct_takes h ((cmdStep_partStart h.names rfl).trans (congrArg some (partStart_starts hp hst hdies hshadow)))
  case stop =>
    intro c pr s t hpr ht h hp hst
    subst hpr ht
    unfold exec
    exact mgrAct_takes h ((cmdStep_partStop h.names rfl).trans (partReset_begins rfl hp hst))
  case reset =>
    intro c pr s t hpr ht h hp hst
    subst hpr ht
    unfold exec
    exact mgrAct_takes h ((cmdStep_partReset h.names rfl).trans (partReset_begins rfl hp hst))
  case delete =>
    intro c pr s t hpr ht h hp hst
    subst hpr ht
    unfold exec
    exact mgrAct_takes h ((cmdStep_partDelete h.names rfl).trans (partDelete_begins rfl hp hst))
  case evacuate =>
    intro c pr s t hpr ht h hp hd hst hlen hown hshadow hpark
    subst hpr ht
    unfold exec
    exact mgrAct_takes h ((cmdStep_dieEvacuate h.names rfl).trans (dieEvacuate_begins rfl hp hd hst hlen hown hshadow hpark))
  case add =>
    intro c u pr s t hpr ht h hp hd hst hspare hshadow hdr hu hr
    subst hpr ht
    unfold exec
    exact mgrAct_takes h ((cmdStep_dieAdd h.names rfl).trans (dieAdd_begins rfl hp hd hst hspare hshadow hdr hu hr))
  case assign =>
    intro c b pr s t hpr ht h hp hb hst hgood hfree hshadow hport
    subst hpr ht
    unfold exec
    exact mgrAct_takes h ((cmdStep_slabAssign h.names rfl).trans (slabAssign_begins rfl hp hb hst hgood hfree hshadow hport))
  case release =>
    intro c b pr s t hpr ht h hb hgood howned hshadow
    subst hpr ht
    unfold exec
    exact mgrAct_takes h ((cmdStep_slabRelease h.names rfl).trans (slabRelease_begins rfl hb hgood howned hshadow))
  case rpAssign =>
    intro c u pr s t hpr ht h hp hd hst hfree hpair hbh hdr hu hr
    subst hpr ht
    unfold exec
    exact mgrAct_takes h ((cmdStep_rpAssign h.names rfl).trans (rpAssign_begins rfl hp hd hst hfree hpair hbh hdr hu hr))
  case rpRelease =>
    intro c pr s t hpr ht h hd hown
    subst hpr ht
    unfold exec
    exact mgrAct_takes h ((cmdStep_rpRelease h.names rfl).trans (rpRelease_begins rfl hd hown))
  case query =>
    intro c pr s t hpr ht h hp
    subst hpr ht
    unfold exec
    exact mgrAct_takes h ((cmdStep_partQuery h.names rfl).trans (congrArg some (partQuery_answers hp)))
  case inject =>
    intro c pr s t hpr ht h hen hb hv
    subst hpr ht
    unfold exec
    exact mgrAct_takes h ((cmdStep_errInject h.names rfl).trans (congrArg some (errInject_injects hen hb hv)))

end Sys2Proof.Machine
end

section
/-! PROOF. The Boathouse commands of a manager (chapter 11, Table 11.9). -/

namespace Sys2Proof.Machine

section
variable {pr : Proc} {s : State}

/-! ### Drives and pools -/

/-- A drive that answers, with blocks, atomicity, cache and queues that the Boathouse can use, is attached at a port of the Boathouse (R373). -/
theorem bhAttach_attaches (hr : bits (arg1 pr) 0 4 < 12) (hnew : (mfind s.drives (bits (arg0 pr) 0 6)).isSome = false)
    (hown : rpPart s (bits (arg1 pr) 0 4) = 15) (hpair : rpPair s (bits (arg1 pr) 0 4) = false) (hbh : bhPort s (bits (arg1 pr) 0 4) = true)
    (hresp : pr.id.responds = true) (hblk : pr.id.bsize = 4096 ∨ pr.id.bsize = 512 ∧ 7 ≤ pr.id.awupf)
    (hcache : pr.id.volatileCache = false ∨ pr.id.disables = true) (hq : 8 ≤ pr.id.qpairs) :
    bhAttach pr s = mgrEnd rDONE 0 (catUpdate { s with
      drives := mins s.drives (bits (arg0 pr) 0 6) { rp := bits (arg1 pr) 0 4, rid := bits (arg1 pr) 8 16, blocks := pr.id.blocks } }) := by
  have hcold : ¬(pr.id.volatileCache ∧ pr.id.disables = false) := by
    rintro ⟨h1, h2⟩
    rcases hcache with h | h
    · rw [h] at h1; exact Bool.false_ne_true h1
    · rw [h] at h2; exact Bool.noConfusion h2
  unfold bhAttach
  rw [if_neg (by omega), if_neg (by simp [hnew, hown, hpair]), if_neg (by simp [hresp]), if_neg (by omega), if_neg (by omega), if_neg hcold,
    if_neg (by omega)]
  simp only [if_pos hbh]

theorem bhDetach_detaches {dv : Drive} {u : State} (hd : mfind s.drives (bits (arg0 pr) 0 6) = some dv)
    (hfree : s.bh.pools.any (fun e => e.2.drv = bits (arg0 pr) 0 6) = false)
    (hu : u = { s with drives := mdel s.drives (bits (arg0 pr) 0 6), catCopies := mdel s.catCopies (dv.rp * 65536 + dv.rid) })
    (hbh : bhPort u dv.rp = true) : bhDetach pr s = mgrEnd rDONE 0 (catUpdate u) := by
  subst hu
  unfold bhDetach
  simp only [hd, hfree]
  rw [if_neg Bool.false_ne_true, if_pos hbh]

theorem bhPoolAdd_adds {dv : Drive} {k : Nat} (hp : bits (arg0 pr) 0 4 < 12) (hn : bits (arg0 pr) 24 40 ≠ 0)
    (hd : mfind s.drives (bits (arg0 pr) 8 6) = some dv) (hst : (part s (bits (arg0 pr) 0 4)).st ≠ .none) (hlo : 1024 ≤ bits (arg1 pr) 0 40)
    (hhi : bits (arg1 pr) 0 40 + bits (arg0 pr) 24 40 ≤ dv.blocks)
    (hmeet : s.bh.pools.any (fun e => decide (e.2.drv = bits (arg0 pr) 8 6) && decide (bits (arg1 pr) 0 40 < e.2.first + e.2.count) &&
      decide (e.2.first < bits (arg1 pr) 0 40 + bits (arg0 pr) 24 40)) = false) (hlen : s.bh.pools.length < 256)
    (hk : k = ((List.range 256).find? (fun k => (mfind s.bh.pools k).isNone)).getD 0) :
    bhPoolAdd pr s = mgrEnd rDONE k (catUpdate (updBh (fun x => { x with
      pools := mins x.pools k { part := bits (arg0 pr) 0 4, drv := bits (arg0 pr) 8 6, first := bits (arg1 pr) 0 40, count := bits (arg0 pr) 24 40 } }) s)) := by
  subst hk
  unfold bhPoolAdd
  rw [if_neg (by omega)]
  simp only [hd, hmeet]
  rw [if_neg (by simp only [hst, Bool.false_eq_true, or_false, false_or]; omega), if_neg (by omega)]

theorem bhPoolRemove_removes {q : Pool} (hq : mfind s.bh.pools (bits (arg0 pr) 0 8) = some q)
    (hfree : s.bh.alloc.any (fun e => decide (blkKey q.drv q.first ≤ e.1) && decide (e.1 < blkKey q.drv (q.first + q.count))) = false) :
    bhPoolRemove pr s = mgrEnd rDONE 0 (catUpdate (updBh (fun x => { x with pools := mdel x.pools (bits (arg0 pr) 0 8) }) s)) := by
  unfold bhPoolRemove
  simp only [hq, hfree]
  exact if_neg Bool.false_ne_true

/-! ### Namespaces -/

theorem bhNsCreate_creates {n nsid : Nat} {got : List Nat} {nd : NsDef} (hp : bits (arg0 pr) 0 4 < 12) (hsize : arg1 pr ≠ 0) (hspan : arg1 pr % 512 = 0)
    (hst : (part s (bits (arg0 pr) 0 4)).st ≠ .none) (hn : n = arg1 pr / 512) (hgot : got = freeBlocks s (bits (arg0 pr) 0 4) (n + (n + 511) / 512))
    (hlen : s.bh.nss.length < 2048) (hroom : n + (n + 511) / 512 ≤ got.length)
    (hid : nsid = (((List.range 2048).map (· + 1)).find? (fun k => (mfind s.bh.nss k).isNone)).getD 1)
    (hnd : nd = { part := bits (arg0 pr) 0 4, fmt4k := bit (arg0 pr) 8, size := arg1 pr, nsuid := s.bh.nsuid + 1, dir := got.drop n, maps := got.take n }) :
    bhNsCreate pr s =
      mgrEnd rDONE nsid (catUpdate (allocate nsid got (updBh (fun b => { b with nsuid := s.bh.nsuid + 1, nss := mins b.nss nsid nd }) s))) := by
  rw [hgot, hn] at hroom
  unfold bhNsCreate
  rw [if_neg (by omega), if_neg hst, if_neg (by omega), hnd, hid, hgot, hn]

theorem bhNsDelete_deletes {nsid : Nat} (hid : nsid = bits (arg0 pr) 0 12) (h0 : nsid ≠ 0) (hmax : nsid ≤ 2048)
    (hns : (mfind s.bh.nss nsid).isNone = false) (hvfs : (nsVfs s nsid).isEmpty = true) :
    bhNsDelete pr s = mgrEnd rDONE 0 (catUpdate (updBh (fun b => { b with
      nss := mdel b.nss nsid, alloc := b.alloc.filter (fun e => decide (e.2 ≠ nsid + 1)), maps := b.maps.filter (fun e => !(decide (e.1 / 2 ^ 32 = nsid))),
      mapUse := b.mapUse.filter (fun k => !(decide (k / 2 ^ 32 = nsid))), lostSp := b.lostSp.filter (fun k => !(decide (k / 2 ^ 32 = nsid))), unready := b.unready.erase nsid }) s)) := by
  subst hid
  unfold bhNsDelete
  rw [if_neg (by omega), if_neg (by simp [hns, hvfs])]

theorem bhNsAttach_attaches {nsid v : Nat} (hid : nsid = bits (arg0 pr) 0 12) (hv : v = bits (arg1 pr) 0 10) (h0 : nsid ≠ 0) (hmax : nsid ≤ 2048)
    (hns : (mfind s.bh.nss nsid).isNone = false) (hvf : vfIs s v = true) (hown : (nsOf s nsid).part = (vf s v).owner)
    (hnew : (vf s v).ns.contains nsid = false) (hroom : (vf s v).ns.length < 8) (hfew : (nsVfs s nsid).length < 8) :
    bhNsAttach pr s = mgrEnd rDONE 0 (nsChanged v nsid (updVf v (fun x => { x with ns := x.ns ++ [nsid] }) s)) := by
  subst hid hv
  unfold bhNsAttach
  rw [if_neg (by omega), if_neg (by rw [hns, hvf, hown, hnew]; simp), if_neg (by omega)]

theorem bhNsDetach_detaches {nsid v : Nat} (hid : nsid = bits (arg0 pr) 0 12) (hv : v = bits (arg1 pr) 0 10) (h0 : nsid ≠ 0) (hmax : nsid ≤ 2048)
    (hvf : vfIs s v = true) (hatt : (vf s v).ns.contains nsid = true)
    (hidle : s.bh.slots.any (fun x => decide (x.vf = v) && decide (x.n < 8192) && decide (x.e.nsid = nsid)) = false) :
    bhNsDetach pr s = some (mgrEnd rDONE 0 (nsChanged v nsid (updVf v (fun x => { x with ns := x.ns.erase nsid }) s))) := by
  subst hid hv
  unfold bhNsDetach
  rw [if_neg (by omega), if_neg (by rw [hvf, hatt]; simp), if_neg (by rw [hidle]; simp)]

/-! ### Virtual functions -/

theorem bhVfCreate_creates {v : Nat} {u : State} (hp : bits (arg0 pr) 0 4 < 12) (hq0 : 0 < bits (arg0 pr) 8 8) (hq : bits (arg0 pr) 8 8 ≤ 128)
    (hs0 : 0 < bits (arg1 pr) 0 14) (hs : bits (arg1 pr) 0 14 ≤ 8192) (hg : bits (arg1 pr) 16 14 ≤ bits (arg1 pr) 0 14)
    (hst : (part s (bits (arg0 pr) 0 4)).st ≠ .none) (hlen : s.bh.vfs.length < 1024) (hqp : qpSum s + bits (arg0 pr) 8 8 ≤ 4096)
    (hguar : guarSum s + bits (arg1 pr) 16 14 ≤ 8192) (hdr : drained s = true) (hv : v = ((List.range 1024).find? (fun v => !(vfIs s v))).getD 0)
    (hu : u = updBh (fun b => { b with vfs := mins b.vfs v { owner := bits (arg0 pr) 0 4, nqp := bits (arg0 pr) 8 8, share := bits (arg1 pr) 0 14, guar := bits (arg1 pr) 16 14, frozen := bit (arg0 pr) 16 } }) s) (hr : routesExist (routeSet u (nowVis u)) = true) :
    bhVfCreate pr s = some (mgrEnd rDONE v (vfMsg (bits (arg0 pr) 0 4) 2 v (switchRoutes u))) := by
  rw [hu, hv] at hr ⊢
  unfold bhVfCreate
  rw [if_neg (by omega), if_neg hst, if_neg (by omega), if_neg (by simp [hdr]), if_pos hr]

theorem bhVfDelete_deletes {v : Nat} (hv : v = bits (arg0 pr) 0 10) (hvf : vfIs s v = true) (hns : (vf s v).ns.isEmpty = true) (hdr : drained s = true) :
    bhVfDelete pr s =
      some (mgrEnd rDONE 0 (vfMsg (vf s v).owner 3 v (switchRoutes (updBh (fun b => { b with vfs := mdel b.vfs v }) (flrVf v s))))) := by
  subst hv
  unfold bhVfDelete
  rw [if_neg (by rw [hvf, hns]; simp), if_neg (by simp [hdr])]

theorem bhVfShare_shares {v : Nat} (hv : v = bits (arg0 pr) 0 10) (hs0 : 0 < bits (arg1 pr) 0 14) (hs : bits (arg1 pr) 0 14 ≤ 8192)
    (hg : bits (arg1 pr) 16 14 ≤ bits (arg1 pr) 0 14) (hvf : vfIs s v = true) (hguar : guarSum s - (vf s v).guar + bits (arg1 pr) 16 14 ≤ 8192) :
    bhVfShare pr s = mgrEnd rDONE 0 (updVf v (fun x => { x with share := bits (arg1 pr) 0 14, guar := bits (arg1 pr) 16 14 }) s) := by
  subst hv
  unfold bhVfShare
  rw [if_neg (by omega), if_neg (by simp [hvf]), if_neg (by omega)]

theorem bhVfFreeze_begins {v : Nat} (h0 : pr.step = 0) (hv : v = bits (arg0 pr) 0 10) (hvf : vfIs s v = true) (hf : (vf s v).frozen = false) :
    bhVfFreeze pr s = some (mgrStep { pr with step := 1, n := v } (updVf v (fun x => { x with frozen := true }) s)) := by
  subst hv
  unfold bhVfFreeze
  rw [if_pos h0, if_neg (by rw [hvf, hf]; simp)]

theorem bhVfSave_begins {v : Nat} {w : Nat × State} (h0 : pr.step = 0) (hv : v = bits (arg0 pr) 0 10) (hvf : vfIs s v = true) (hf : (vf s v).frozen = true)
    (ha : imgAddrOk s v (arg1 pr) 16384 = true) (hw : w = hostWrite v true (arg1 pr) 16384 (vfImage s v) s) :
    bhVfSave pr s = some (mgrStep { pr with step := 1, n := v, d := w.1 } w.2) := by
  subst hw hv
  unfold bhVfSave
  rw [if_pos h0, if_neg (by rw [hvf, hf]; simp), if_neg (by rw [ha]; simp)]

theorem bhVfRestore_begins {v : Nat} (h0 : pr.step = 0) (hv : v = bits (arg0 pr) 0 10) (hvf : vfIs s v = true) (hf : (vf s v).frozen = true)
    (hsq : (vf s v).sqs.any (fun e => e.1 ≠ 0) = false) (hcq : (vf s v).cqs.any (fun e => e.1 ≠ 0) = false)
    (ha : imgAddrOk s v (arg1 pr) 16384 = true) :
    bhVfRestore pr s = some (mgrStep { pr with step := 1, n := v } ((List.range 4).foldl (fun s i => hostRead v (2 ^ 24 + i) (arg1 pr + 4096 * i) 4096 s)
      (updBh (fun b => { b with image := 0, imageLeft := 4, imageBad := false }) s))) := by
  subst hv
  unfold bhVfRestore
  rw [if_pos h0, if_neg (by rw [hvf, hf, hsq, hcq]; simp), if_neg (by rw [ha]; simp)]

theorem bhVfThaw_thaws {v : Nat} (hv : v = bits (arg0 pr) 0 10) (hvf : vfIs s v = true) (hf : (vf s v).frozen = true) :
    bhVfThaw pr s = mgrEnd rDONE 0 ((onesOf 128 (vf s v).pba).foldl (fun s i => bhMsi v i s) (updVf v (fun x => { x with frozen := false }) s)) := by
  subst hv
  exact if_neg (by rw [hvf, hf]; simp)

theorem bhDirtyLog_begins {v : Nat} (h0 : pr.step = 0) (hv : v = bits (arg0 pr) 0 10) (hvf : vfIs s v = true) (hon : bit (arg0 pr) 16 = true)
    (ha : imgAddrOk s v (arg1 pr) 64 = true) :
    bhDirtyLog pr s = some (mgrStep { pr with step := 1, n := v }
      (hostRead v (2 ^ 24) (arg1 pr) 64 (updBh (fun b => { b with image := 0, imageLeft := 1, imageBad := false }) s))) := by
  subst hv
  unfold bhDirtyLog
  rw [if_pos h0, if_neg (by rw [hvf]; simp), if_neg (by rw [hon]; simp), if_neg (by rw [ha]; simp)]

end

/-- The Cox that takes a Boathouse command does its first step. -/
theorem mgrAct_takes_bh {op : Nat} {c : MgrCmd} {s u : State} (h : CoxTakes { op := op, c := c } s) (hop : 0x20 ≤ op ∧ op < 0x30)
    (hu : bhStep { op := op, c := c } (cmdTaken { op := op, c := c } s) = some u) : mgrAct op c s = .next (coxThen u) :=
  mgrAct_takes h ((cmdStep_bh h.names hop).trans hu)

/-- Settles O30: the Cox at rest runs the command's own function on the initialised Boathouse. -/
theorem boathouseManagerCommandsRun : Obligations.BoathouseManagerCommandsRun := by
  refine ⟨?driveAttach, ?driveDetach, ?poolAdd, ?poolRemove, ?nsCreate, ?nsDelete, ?nsAttach, ?nsDetach, ?vfCreate, ?vfDelete, ?vfShare, ?vfFreeze,
    ?vfSave, ?vfRestore, ?vfThaw, ?dirtyLog⟩
  case driveAttach =>
    intro c id pr s t hpr ht h hbh hr hnew hown hpair hport hresp hblk hcache hq
    subst hpr ht
    have hstep := cmdStep_bh h.names (by decide : 0x20 ≤ 0x20 ∧ 0x20 < 0x30)
    unfold exec
    exact cox_takes h (hstep.trans ((bhStep_bhAttach hbh rfl).trans (congrArg some (bhAttach_attaches hr hnew hown hpair hport hresp hblk hcache hq))))
  case driveDetach =>
    intro c dv u pr s t hpr ht h hbh hd hfree hu hport
    subst hpr ht
    unfold exec
    exact mgrAct_takes_bh h (by decide) ((bhStep_bhDetach hbh rfl).trans (congrArg some (bhDetach_detaches hd hfree hu hport)))
  case poolAdd =>
    intro c dv k pr s t hpr ht h hbh hp hn hd hst hlo hhi hmeet hlen hk
    subst hpr ht
    unfold exec
    exact mgrAct_takes_bh h (by decide) ((bhStep_bhPoolAdd hbh rfl).trans (congrArg some (bhPoolAdd_adds hp hn hd hst hlo hhi hmeet hlen hk)))
  case poolRemove =>
    intro c q pr s t hpr ht h hbh hq hfree
    subst hpr ht
    unfold exec
    exact mgrAct_takes_bh h (by decide) ((bhStep_bhPoolRemove hbh rfl).trans (congrArg some (bhPoolRemove_removes hq hfree)))
  case nsCreate =>
    intro c n nsid got nd pr s t hpr ht h hbh hp hsize hspan hst hn hgot hlen hroom hid hnd
    subst hpr ht
    unfold exec
    exact mgrAct_takes_bh h (by decide)
      ((bhStep_bhNsCreate hbh rfl).trans (congrArg some (bhNsCreate_creates hp hsize hspan hst hn hgot hlen hroom hid hnd)))
  case nsDelete =>
    intro c nsid pr s t hpr ht h hbh hid h0 hmax hns hvfs
    subst hpr ht
    unfold exec
    exact mgrAct_takes_bh h (by decide) ((bhStep_bhNsDelete hbh rfl).trans (congrArg some (bhNsDelete_deletes hid h0 hmax hns hvfs)))
  case nsAttach =>
    intro c nsid v pr s t hpr ht h hbh hid hv h0 hmax hns hvf hown hnew hroom hfew
    subst hpr ht
    unfold exec
    exact mgrAct_takes_bh h (by decide)
      ((bhStep_bhNsAttach hbh rfl).trans (congrArg some (bhNsAttach_attaches hid hv h0 hmax hns hvf hown hnew hroom hfew)))
  case nsDetach =>
    intro c nsid v pr s t hpr ht h hbh hid hv h0 hmax hvf hatt hidle
    subst hpr ht
    unfold exec
    exact mgrAct_takes_bh h (by decide) ((bhStep_bhNsDetach hbh rfl).trans (bhNsDetach_detaches hid hv h0 hmax hvf hatt hidle))
  case vfCreate =>
    intro c v u pr s t hpr ht h hbh hp hq0 hq hs0 hs hg hst hlen hqp hguar hdr hv hu hr
    subst hpr ht
    unfold exec
    exact mgrAct_takes_bh h (by decide)
      ((bhStep_bhVfCreate hbh rfl).trans (bhVfCreate_creates hp hq0 hq hs0 hs hg hst hlen hqp hguar hdr hv hu hr))
  case vfDelete =>
    intro c v pr s t hpr ht h hbh hv hvf hns hdr
    subst hpr ht
    unfold exec
    exact mgrAct_takes_bh h (by decide) ((bhStep_bhVfDelete hbh rfl).trans (bhVfDelete_deletes hv hvf hns hdr))
  case vfShare =>
    intro c v pr s t hpr ht h hbh hv hs0 hs hg hvf hguar
    subst hpr ht
    unfold exec
    exact mgrAct_takes_bh h (by decide) ((bhStep_bhVfShare hbh rfl).trans (congrArg some (bhVfShare_shares hv hs0 hs hg hvf hguar)))
  case vfFreeze =>
    intro c v pr s t hpr ht h hbh hv hvf hf
    subst hpr ht
    unfold exec
    exact mgrAct_takes_bh h (by decide) ((bhStep_bhVfFreeze hbh rfl).trans (bhVfFreeze_begins rfl hv hvf hf))
  case vfSave =>
    intro c v w pr s t hpr ht h hbh hv hvf hf ha hw
    subst hpr ht
    unfold exec
    exact mgrAct_takes_bh h (by decide) ((bhStep_bhVfSave hbh rfl).trans (bhVfSave_begins rfl hv hvf hf ha hw))
  case vfRestore =>
    intro c v pr s t hpr ht h hbh hv hvf hf hsq hcq ha
    subst hpr ht
    unfold exec
    exact mgrAct_takes_bh h (by decide) ((bhStep_bhVfRestore hbh rfl).trans (bhVfRestore_begins rfl hv hvf hf hsq hcq ha))
  case vfThaw =>
    intro c v pr s t hpr ht h hbh hv hvf hf
    subst hpr ht
    unfold exec
    exact mgrAct_takes_bh h (by decide) ((bhStep_bhVfThaw hbh rfl).trans (congrArg some (bhVfThaw_thaws hv hvf hf)))
  case dirtyLog =>
    intro c v pr s t hpr ht h hbh hv hvf hon ha
    subst hpr ht
    unfold exec
    exact mgrAct_takes_bh h (by decide) ((bhStep_bhDirtyLog hbh rfl).trans (bhDirtyLog_begins rfl hv hvf hon ha))

end Sys2Proof.Machine
end

section
/-! PROOF. The firmware, self-test and log commands of a manager (chapter 13), and the pair commands (chapter 12). -/

namespace Sys2Proof.Machine

section
variable {pr : Proc} {s : State}

/-! ### Slots (Table 13.13) -/

theorem rcWriteTo_begins {k : Nat} {u : State} (hrole : slotRole s.card.cs0 k ≠ roWRITING) (ha : arg1 pr = 0)
    (hu : u = setRoles ((rolesOf s.card.cs0).set k roWRITING) pr.c.src s) :
    rcWriteTo pr k s = mgrEnd rDONE 0 (slotPut k (arg0 pr) u.card.stage u) := by
  subst hu
  unfold rcWriteTo
  rw [if_neg (fun h => hrole h.1)]
  simp only [if_neg hrole]
  exact if_pos ha

theorem rcWrite_begins {k : Nat} (h0 : pr.step = 0) (halign : arg0 pr % copySize = 0) (hoff : arg0 pr < slotSize)
    (hok : copyArgOk s pr.c.src (arg1 pr) = true) (hk : writeSlot s = some k) : rcWrite pr s = some (rcWriteTo pr k s) := by
  have hgood : ¬(arg0 pr % copySize ≠ 0 ∨ slotSize ≤ arg0 pr ∨ copyArgOk s pr.c.src (arg1 pr) = false) := by
    simp [halign, Nat.not_le.mpr hoff, hok]
  unfold rcWrite
  rw [if_neg (by omega), if_neg hgood]
  simp only [hk]

theorem rcVerify_judges {k : Nat} (hk : slotOf s.card.cs0 roWRITING = some k) : rcVerify s = rcJudge k (verify s s.card.cs0 (slotBase k)) s := by
  rw [rcVerify.eq_def]
  simp only [hk]

theorem rcDisarm_disarms {k : Nat} (hk : slotOf s.card.cs0 roPENDING = some k) : rcDisarm s = mgrEnd rDONE 0 (setRole k roEMPTY s) := by
  rw [rcDisarm.eq_def]
  simp only [hk]

theorem rcRollback_rolls {k : Nat} (hk : slotOf s.card.cs0 roPREVIOUS = some k) (hp : slotOf s.card.cs0 roPENDING = none)
    (hw : slotOf s.card.cs0 roWRITING = none) (hsvn : svnFloor s ≤ slotSvn s k) : rcRollback s = mgrEnd rDONE 0 (setRole k roPENDING s) := by
  rw [rcRollback.eq_def]
  simp only [hk, hp, hw]
  exact if_neg (by simp [Nat.not_lt.mpr hsvn])

theorem rcRead_copies (h0 : pr.step = 0) (hk : bits (arg0 pr) 0 2 ≠ 3) (hoff : bits (arg0 pr) 18 14 * copySize < slotSize)
    (hok : copyArgOk s pr.c.src (arg1 pr) = true) :
    rcRead pr s = some (copyOut pr (cut s.card.cs0 (slotBase (bits (arg0 pr) 0 2) + bits (arg0 pr) 18 14 * copySize)) s) := by
  have hgood : ¬(bits (arg0 pr) 0 2 = 3 ∨ slotSize ≤ bits (arg0 pr) 18 14 * copySize ∨ copyArgOk s pr.c.src (arg1 pr) = false) := by
    simp [hk, Nat.not_le.mpr hoff, hok]
  unfold rcRead
  rw [if_neg (by omega), if_neg hgood]

theorem rcSvnRaise_raises {k : Nat} (hk : slotOf s.card.cs0 roCURRENT = some k) (hsvn : svnFloor s < slotSvn s k) :
    rcSvnRaise s = mgrEnd rDONE 0 (setRoles ((rolesOf s.card.cs0).zipIdx.map
      (fun e => if e.2 ≠ k ∧ e.1 ≠ roEMPTY ∧ e.1 ≠ roWRITING ∧ slotSvn s e.2 < slotSvn s k then roFAILED else e.1))
      (writeOwner s.card.cs0) (updCard (fun x => { x with svn := slotSvn s k }) s)) := by
  rw [rcSvnRaise.eq_def]
  simp only [hk]
  exact if_neg (Nat.not_le.mpr hsvn)

theorem logRead_copies (h0 : pr.step = 0) (halign : arg0 pr % copySize = 0) (hoff : arg0 pr < 0x3000000)
    (hok : copyArgOk s pr.c.src (arg1 pr) = true) :
    logRead pr s = some (copyOut pr (logBytes (arg0 pr) s).1 (logBytes (arg0 pr) s).2) := by
  have hgood : ¬(arg0 pr % copySize ≠ 0 ∨ 0x3000000 ≤ arg0 pr ∨ copyArgOk s pr.c.src (arg1 pr) = false) := by
    simp only [halign, Nat.not_le.mpr hoff, hok]
    simp
  unfold logRead
  rw [if_neg (by omega), if_neg hgood]

/-! ### Activation (Table 13.12) -/

theorem fwActivate_pending {k : Nat} (h0 : pr.step = 0) (hk : slotOf s.card.cs0 roPENDING = some k) : fwActivate pr s = some (fwBegin pr k s) := by
  unfold fwActivate
  simp only [h0, hk]

/-- A section that is the same in both slots does not differ. -/
theorem fwDiffers_same {cs : List Host.Cell} {k cu ty : Nat} (h : sectBytes cs (slotBase k) ty 0 = sectBytes cs (slotBase cu) ty 0) :
    fwDiffers cs k (some cu) ty = false := by
  unfold fwDiffers
  simp [h]

theorem fwBegin_cox {k cu : Nat} (hflag : bit (fle s.card.cs0 (slotBase k + 29) 1) 0 = true) (hcu : slotOf s.card.cs0 roCURRENT = some cu)
    (hsame : sectBytes s.card.cs0 (slotBase k) 4 0 = sectBytes s.card.cs0 (slotBase cu) 4 0) (hcox : bit (arg0 pr) 0 = true) (hbh : bit (arg0 pr) 1 = false) :
    fwBegin pr k s = mgrStep { pr with step := 3 } { s with cox := { s.cox with swap := true } } := by
  unfold fwBegin
  rw [if_neg (by simp [hflag]), hcu, fwDiffers_same hsame, if_neg (by simp [hcox]), if_neg (by simp [hbh])]
  exact if_pos hcox

theorem fwBegin_bh {k cu : Nat} (hflag : bit (fle s.card.cs0 (slotBase k + 29) 1) 0 = true) (hcu : slotOf s.card.cs0 roCURRENT = some cu)
    (hsame : sectBytes s.card.cs0 (slotBase k) 3 0 = sectBytes s.card.cs0 (slotBase cu) 3 0) (hbh : bit (arg0 pr) 1 = true) :
    fwBegin pr k s = mgrStep { pr with step := 1 } (updBh (fun b => { b with pause := true }) s) := by
  unfold fwBegin
  rw [if_neg (by simp [hflag]), hcu, fwDiffers_same hsame, if_neg (by simp [hbh]), if_pos hbh]

/-! ### Self-tests (Table 13.11) -/

/-- A self-test that begins: its status, and what the test itself starts. -/
def testBegun (code a : Nat) (src : Nat) (s : State) : State :=
  let s := testStat (1 + code * 2 ^ 8) (updCard (fun c => { c with test := some (src, code, a) }) s)
  if code = 5 then startRecal (bits a 0 4) (wgKey (bit a 11) (bits a 4 7)) s else if code = 6 then hideBank (bits a 0 4) (bits a 4 2) s else s

theorem selftest_begins {code : Nat} (hc : bits (arg0 pr) 0 8 = code) (hok : testArgOk code (arg1 pr) = true) (hidle : testBusy s code (arg1 pr) = false)
    (hspare : code = 5 → (freeSpare (lnk s (bits (arg1 pr) 0 4)) (wgKey (bit (arg1 pr) 11) (bits (arg1 pr) 4 7))).isNone = false) :
    selftest pr s = mgrEnd rDONE 0 (testBegun code (arg1 pr) pr.c.src s) := by
  have hroom : ¬(code = 5 ∧ (freeSpare (lnk s (bits (arg1 pr) 0 4)) (wgKey (bit (arg1 pr) 11) (bits (arg1 pr) 4 7))).isNone = true) := by
    rintro ⟨h5, hn⟩
    rw [hspare h5] at hn
    exact Bool.false_ne_true hn
  subst hc
  unfold selftest
  rw [if_neg (by simp [hok]), if_neg (by simp [hidle])]
  exact if_neg hroom

theorem warmCmd_starts (hu : ucp s = false) : warmCmd s = warmStart s := if_neg (by simp [hu])

/-! ### The pair (Table 12.6) -/

variable (hp : bits (arg0 pr) 0 4 < 12)
include hp

theorem pairStep_protect {p : Nat} (hop : pr.op = 0x40) (hpp : p = bits (arg0 pr) 0 4) (hst : pairSt s p = .off ∨ pairSt s p = .alone)
    (hmatch : (pairP s p).matched = true) (hrun : (part s p).st = .running) :
    pairStep pr s = some (mgrEnd rDONE 0 (updPairP p (fun x => { x with
      bulk := (s.slab.filter (fun e => decide (slState e.2 = slOWNED) && decide (slOwner e.2 = p))).map (·.1), blk := (s.bh.nss.filter (fun e => e.2.part = p)).map (·.1), bulkAt := 0, blkAt := 0 })
      (setPairSt p .syncActive s))) := by
  subst hpp
  unfold pairStep
  rw [if_neg (by omega)]
  simp only [hop]
  exact if_pos ⟨hst, hmatch, hrun⟩

theorem pairStep_unprotect {p : Nat} (h0 : pr.step = 0) (hop : pr.op = 0x41) (hpp : p = bits (arg0 pr) 0 4) (hst : pairSt s p = .active) :
    pairStep pr s = some (mgrStep { pr with step := 1 } (updPairP p (fun x => { x with unprot := true }) s)) := by
  subst hpp
  unfold pairStep
  rw [if_neg (by omega)]
  simp only [hop]
  rw [if_pos h0, if_pos hst]

theorem pairStep_switch {p : Nat} (h0 : pr.step = 0) (hop : pr.op = 0x42) (hpp : p = bits (arg0 pr) 0 4) (hst : pairSt s p = .active) :
    pairStep pr s = some (mgrStep { pr with step := 1 } (closeStart p (updPairP p (fun x => { x with switching := true }) s))) := by
  subst hpp
  unfold pairStep
  rw [if_neg (by omega)]
  simp only [hop]
  rw [if_pos h0, if_pos hst]

theorem pairStep_takeover {p : Nat} (h0 : pr.step = 0) (hop : pr.op = 0x43) (hpp : p = bits (arg0 pr) 0 4) (hst : pairSt s p = .shadow) :
    pairStep pr s = some (mgrStep { pr with step := 1 } (takeStart p s)) := by
  subst hpp
  unfold pairStep
  rw [if_neg (by omega)]
  simp only [hop]
  rw [if_pos h0, if_pos hst]

theorem pairStep_release {p : Nat} {u : State} (hop : pr.op = 0x44) (hpp : p = bits (arg0 pr) 0 4) (hst : pairSt s p = .held)
    (hu : u = updPairP p (fun x => { x with close := 0, told := [], todo := [], switching := false }) (setPairSt p .alone (pairDrop p s))) :
    pairStep pr s = some (mgrEnd rDONE 0 (bhSettle (bhRelease p (writersGo p (hartsResume p u))))) := by
  subst hpp hu
  unfold pairStep
  rw [if_neg (by omega)]
  simp only [hop]
  exact if_pos hst

theorem pairStep_query {p : Nat} (hop : pr.op = 0x45) (hpp : p = bits (arg0 pr) 0 4) (hst : pairSt s p = .shadow) :
    pairStep pr s =
      some (mgrEnd rDONE (5 + pairCommit s p % 2 ^ 28 * 16) (setReg (mgrFrame pr.c.src) 0x008 (BitVec.ofNat 64 (pairCommit s p)) s)) := by
  subst hpp
  unfold pairStep
  rw [if_neg (by omega)]
  simp only [hop, hst]

end

/-- Settles O31: the Cox at rest runs the command's own function, whose first step the conditions open. -/
theorem firmwareAndTestCommandsRun : Obligations.FirmwareAndTestCommandsRun := by
  refine ⟨?write, ?verify, ?disarm, ?rollback, ?read, ?svn, ?coxFw, ?bhFw, ?bist, ?link, ?mem, ?margin, ?recal, ?bank, ?warm, ?log⟩
  case write =>
    intro c k u pr s t hpr ht h halign hoff hok hk hrole ha hu
    subst hpr ht
    have hto := rcWriteTo_begins (pr := { op := 0x30, c := c }) hrole ha hu
    unfold exec
    exact mgrAct_takes h ((cmdStep_rcWrite h.names rfl).trans ((rcWrite_begins rfl halign hoff hok hk).trans (congrArg some hto)))
  case verify =>
    intro c k pr s t hpr ht h hk
    subst hpr ht
    unfold exec
    refine (mgrAct_takes h ((cmdStep_rcVerify h.names rfl).trans (congrArg some (rcVerify_judges hk)))).trans ?_
    generalize verify _ _ _ = r
    cases r <;> rfl
  case disarm =>
    intro c k pr s t hpr ht h hk
    subst hpr ht
    unfold exec
    exact mgrAct_takes h ((cmdStep_rcDisarm h.names rfl).trans (congrArg some (rcDisarm_disarms hk)))
  case rollback =>
    intro c k pr s t hpr ht h hk hp hw hsvn
    subst hpr ht
    unfold exec
    exact mgrAct_takes h ((cmdStep_rcRollback h.names rfl).trans (congrArg some (rcRollback_rolls hk hp hw hsvn)))
  case read =>
    intro c pr s t hpr ht h hk hoff hok
    subst hpr ht
    unfold exec
    exact mgrAct_takes h ((cmdStep_rcRead h.names rfl).trans (rcRead_copies rfl hk hoff hok))
  case svn =>
    intro c k pr s t hpr ht h hk hsvn
    subst hpr ht
    unfold exec
    exact mgrAct_takes h ((cmdStep_rcSvnRaise h.names rfl).trans (congrArg some (rcSvnRaise_raises hk hsvn)))
  case coxFw =>
    intro c k cu pr s t hpr ht h hk hflag hcu hsame hcox hbh
    subst hpr ht
    unfold exec
    exact mgrAct_takes h ((cmdStep_fwActivate h.names rfl).trans
      ((fwActivate_pending rfl hk).trans (congrArg some (fwBegin_cox hflag hcu hsame hcox hbh))))
  case bhFw =>
    intro c k cu pr s t hpr ht h hk hflag hcu hsame hbh
    subst hpr ht
    unfold exec
    exact mgrAct_takes h ((cmdStep_fwActivate h.names rfl).trans
      ((fwActivate_pending rfl hk).trans (congrArg some (fwBegin_bh hflag hcu hsame hbh))))
  case bist =>
    intro c pr s t hpr ht h hok hidle
    subst hpr ht
    unfold exec
    exact mgrAct_takes h ((cmdStep_selftest h.names rfl).trans (congrArg some (selftest_begins (code := 1) rfl hok hidle (fun h => absurd h (by decide)))))
  case link =>
    intro c pr s t hpr ht h hok hidle
    subst hpr ht
    unfold exec
    exact mgrAct_takes h ((cmdStep_selftest h.names rfl).trans (congrArg some (selftest_begins (code := 2) rfl hok hidle (fun h => absurd h (by decide)))))
  case mem =>
    intro c pr s t hpr ht h hok hidle
    subst hpr ht
    unfold exec
    exact mgrAct_takes h ((cmdStep_selftest h.names rfl).trans (congrArg some (selftest_begins (code := 3) rfl hok hidle (fun h => absurd h (by decide)))))
  case margin =>
    intro c pr s t hpr ht h hok hidle
    subst hpr ht
    unfold exec
    exact mgrAct_takes h ((cmdStep_selftest h.names rfl).trans (congrArg some (selftest_begins (code := 4) rfl hok hidle (fun h => absurd h (by decide)))))
  case recal =>
    intro c pr s t hpr ht h hok hidle hspare
    subst hpr ht
    unfold exec
    exact mgrAct_takes h ((cmdStep_selftest h.names rfl).trans (congrArg some (selftest_begins (code := 5) rfl hok hidle (fun _ => hspare))))
  case bank =>
    intro c pr s t hpr ht h hok hidle
    subst hpr ht
    unfold exec
    exact mgrAct_takes h ((cmdStep_selftest h.names rfl).trans (congrArg some (selftest_begins (code := 6) rfl hok hidle (fun h => absurd h (by decide)))))
  case warm =>
    intro c pr s t hpr ht h hu
    subst hpr ht
    unfold exec
    exact mgrAct_takes h ((cmdStep_warmStart h.names rfl).trans (congrArg some (warmCmd_starts hu)))
  case log =>
    intro c pr s t hpr ht h halign hoff hok
    subst hpr ht
    unfold exec
    exact mgrAct_takes h ((cmdStep_logRead h.names rfl).trans (logRead_copies rfl halign hoff hok))

/-- The Cox that takes a pair command does its first step. -/
theorem mgrAct_takes_pair {op : Nat} {c : MgrCmd} {s u : State} (h : CoxTakes { op := op, c := c } s) (hop : 0x40 ≤ op ∧ op < 0x46)
    (hu : pairStep { op := op, c := c } (cmdTaken { op := op, c := c } s) = some u) : mgrAct op c s = .next (coxThen u) :=
  mgrAct_takes h ((cmdStep_pair h.names hop).trans hu)

/-- Settles O32: the Cox at rest runs the pair command, whose first step the state of the pair opens. -/
theorem pairManagerCommandsRun : Obligations.PairManagerCommandsRun := by
  refine ⟨?protect, ?unprotect, ?switch, ?takeover, ?release, ?query⟩
  case protect =>
    intro c p pr s t hpr ht h hp hpp hst hmatch hrun
    subst hpr ht
    unfold exec
    exact mgrAct_takes_pair h (by decide) (pairStep_protect hp rfl hpp hst hmatch hrun)
  case unprotect =>
    intro c p pr s t hpr ht h hp hpp hst
    subst hpr ht
    unfold exec
    exact mgrAct_takes_pair h (by decide) (pairStep_unprotect hp rfl rfl hpp hst)
  case switch =>
    intro c p pr s t hpr ht h hp hpp hst
    subst hpr ht
    unfold exec
    exact mgrAct_takes_pair h (by decide) (pairStep_switch hp rfl rfl hpp hst)
  case takeover =>
    intro c p pr s t hpr ht h hp hpp hst
    subst hpr ht
    unfold exec
    exact mgrAct_takes_pair h (by decide) (pairStep_takeover hp rfl rfl hpp hst)
  case release =>
    intro c p u pr s t hpr ht h hp hpp hst hu
    subst hpr ht
    unfold exec
    exact mgrAct_takes_pair h (by decide) (pairStep_release hp rfl hpp hst hu)
  case query =>
    intro c p pr s t hpr ht h hp hpp hst
    subst hpr ht
    unfold exec
    exact mgrAct_takes_pair h (by decide) (pairStep_query hp rfl hpp hst)

end Sys2Proof.Machine
end

section
/-! PROOF. Fault records, their queues and injection, and who may write the fault window (chapter 15). -/

namespace Sys2Proof.Machine

section
variable {p v : Nat} {s : State}

/-! ### A partition's own frames -/

theorem mayWrite_own {f k : Nat} (hp : p < 12) (hk : frameKind f = (k, p)) (h : 0x20 ≤ k ∧ k < 0x27) : MayWrite s p f :=
  .inr ⟨hp, seesFrame_own hk h⟩

theorem frPflt_ne_bmc (h : p < 12) : frPflt p ≠ frBmc := by unfold frPflt frBmc; omega

theorem mayWrite_pflt (hp : p < 12) : MayWrite s p (frPflt p) := mayWrite_own hp (frameKind_pflt hp) (by decide)

theorem drsWrite_pflt {off : Nat} (hp : p < 12) : drsWrite p (frPflt p) off 8 v s = regWrite p (frPflt p) off v s :=
  drsWrite_reg (frameKind_pflt hp) (mayWrite_pflt hp) (by simp) (by simp)

/-- A partition's pop of its fault queue (R520). -/
theorem drsWrite_pop (hp : p < 12) : drsWrite p (frPflt p) 0x048 8 1 s = pfltPop p s := by
  rw [drsWrite_pflt hp]
  unfold regWrite
  simp only [if_neg (frPflt_ne_bmc hp), frameKind_pflt hp]
  rw [if_neg (mayWrite_pflt hp).not_unseen, if_neg (by simp [only15, hasErrBank]), if_neg (by simp)]
  rfl

/-- Where the interrupt of a partition's fault queue goes (R520). -/
theorem drsWrite_pirq (hp : p < 12) : drsWrite p (frPflt p) 0x050 8 v s = queueIrqWrite p (frPflt p) 0x050 v [61, 62] s := by
  rw [drsWrite_pflt hp]
  unfold regWrite
  simp only [if_neg (frPflt_ne_bmc hp), frameKind_pflt hp]
  rw [if_neg (mayWrite_pflt hp).not_unseen, if_neg (by simp [only15, hasErrBank]), if_neg (by simp), if_neg (by simp), if_pos trivial]

theorem pfltPop_pops {r : FltRec} {rest : List FltRec} (hp : p < 12) (hq : fltQueue s p = r :: rest) :
    pfltPop p s = (if rest.isEmpty then updFlt (fun x => { x with queue := mset x.queue p rest }) s
      else pfltMsi p (updFlt (fun x => { x with queue := mset x.queue p rest }) s)) := by
  unfold pfltPop
  simp only [hq]
  exact if_neg (by omega)

/-! ### The fault window (R531) -/

theorem fltOpen_iff : fltOpen s p = true ↔ p = 15 ∨ (p = 16 ∧ s.bmcMgr = true) := by
  unfold fltOpen
  simp

theorem regWrite_fltPkg_open (h : fltOpen s p = true) : regWrite p frFlt 0 v s = fltPkgWrite p v s := by
  have hp : 15 ≤ p := by rcases fltOpen_iff.mp h with h | ⟨h, -⟩ <;> omega
  have hframe : frFlt ≠ frBmc := by decide
  unfold regWrite
  simp only [if_neg hframe, frameKind_flt]
  rw [if_neg (by omega), if_neg (by simp [only15, hasErrBank]), if_neg (by simp), if_neg (by simp [h]), if_pos trivial]

theorem regWrite_fltPkg_closed (h : fltOpen s p = false) : regWrite p frFlt 0 v s = s := by
  have hframe : frFlt ≠ frBmc := by decide
  unfold regWrite
  simp only [if_neg hframe, frameKind_flt]
  by_cases hunseen : p < 15 ∧ seesFrame s p frFlt = false
  · rw [if_pos hunseen]
  · rw [if_neg hunseen, if_neg (by simp [only15, hasErrBank]), if_neg (by simp), if_pos (by simp [h])]

/-- A write of `FLT_PKG` that the window takes. -/
def fltPkgTaken (v : Nat) (s : State) : State := setFld frFlt 0 16 32 (bits v 16 32) (if bit v 1 then clrBit frFlt 0 1 s else s)

theorem fltPkgWrite_open (h : fltOpen s p = true) : fltPkgWrite p v s = fltPkgTaken v s := if_pos h

theorem regsOnly_fltPkgTaken (v : Nat) (s : State) : RegsOnly s (fltPkgTaken v s) :=
  (regsOnly_ite (regsOnly_setFld _ _ _ _ _ _) (RegsOnly.rfl' s)).trans' (regsOnly_setFld _ _ _ _ _ _)

theorem fbit_fltPkgTaken_ucp (v : Nat) (s : State) : fbit (fltPkgTaken v s) frFlt 0 0 = fbit s frFlt 0 0 := by
  unfold fltPkgTaken
  rw [fbit_setFld _ _ _ _ (by decide), if_neg (by decide)]
  cases bit v 1
  · rfl
  · exact (fbit_setFld _ _ _ _ (by decide)).trans (if_neg (by decide))

theorem fbit_fltPkgTaken_ucalert (v : Nat) (s : State) : fbit (fltPkgTaken v s) frFlt 0 1 = (fbit s frFlt 0 1 && !(bit v 1)) := by
  unfold fltPkgTaken
  rw [fbit_setFld _ _ _ _ (by decide), if_neg (by decide)]
  cases bit v 1
  · exact (Bool.and_true _).symm
  · refine ((fbit_setFld _ _ _ _ (by decide)).trans (if_pos (by decide))).trans ?_
    rw [Bool.not_true, Bool.and_false]
    rfl

theorem fld_fltPkgTaken_cecnt (v : Nat) (s : State) : fld (fltPkgTaken v s) frFlt 0 16 32 = bits v 16 32 := by
  unfold fltPkgTaken
  rw [fld_setFld_self _ _ _ (by decide)]
  exact Nat.mod_eq_of_lt (by rw [bits_eq_div_mod]; exact Nat.mod_lt _ (by decide))

theorem reg_fltPkgTaken_ne {g a : Nat} (v : Nat) (s : State) (ha : a < 65536) (h : (g, a) ≠ (frFlt, 0)) : reg (fltPkgTaken v s) g a = reg s g a := by
  have hk : regKey g a ≠ regKey frFlt 0 := by
    intro hk
    obtain ⟨hg, h0⟩ := regKey_inj ha (by decide) hk
    exact h (by rw [hg, h0])
  unfold fltPkgTaken
  rw [reg_setFld_ne _ _ _ _ hk]
  exact reg_ite (reg_setFld_ne _ _ _ _ hk) rfl

end

section
variable {s : State}

theorem exec_fltPkgWrite {v : Word} {p : Nat} {t : State} (h : Live s) (hp : p < 12 ∨ p = 15 ∨ p = 16) (e : regWrite p frFlt 0 v.toNat s = t) :
    exec (.fltPkgWrite v p) s = .next (after t) := by
  unfold exec
  exact act_does h ((if_pos hp).trans e)

theorem exec_fltPkgWrite_open {v : Word} {p : Nat} (h : Live s) (hp : p = 15 ∨ (p = 16 ∧ s.bmcMgr = true)) :
    exec (.fltPkgWrite v p) s = .next (after (fltPkgTaken v.toNat s)) := by
  have hopen : fltOpen s p = true := fltOpen_iff.mpr hp
  exact exec_fltPkgWrite h (by omega) ((regWrite_fltPkg_open hopen).trans (fltPkgWrite_open hopen))

theorem exec_fltPkgWrite_closed {v : Word} {p : Nat} (h : Live s) (hp : p < 12 ∨ (p = 16 ∧ s.bmcMgr = false)) :
    exec (.fltPkgWrite v p) s = .next (after s) := by
  have hclosed : fltOpen s p = false := by
    rw [Bool.eq_false_iff]
    intro hopen
    rcases fltOpen_iff.mp hopen with h15 | ⟨h16, hb⟩
    · omega
    · rcases hp with hp | ⟨-, hb'⟩
      · omega
      · rw [hb'] at hb; exact Bool.false_ne_true hb
  exact exec_fltPkgWrite h (by omega) (regWrite_fltPkg_closed hclosed)

/-! ### Records -/

theorem serviceRec_records {f : Nat} (hup : coxUp s = true) (hb : hasErrBank (frameKind f).1 = true) (hv : fbit s f 0x500 0 = true)
    (hc : recClass (bankRec s f) ≠ 0) :
    serviceRec f s = recordAct (bankRec s f) (recordPut (bankRec s f) (clrBit f 0x500 0 (ceWindow s))) :=
  (if_neg (by simp [hup, hb, hv])).trans (if_neg hc)

theorem injFire_write {f line : Nat} (h : (frameKind f).1 = 0x10 ∨ (frameKind f).1 = 0x31 ∨ (frameKind f).1 = 0x07 ∨ (frameKind f).1 = 0x04) :
    injFire f (.write line) s = injHit f line s :=
  if_pos (by rcases h with h | h | h | h <;> simp [h])

end

/-- Settles O34: each command, once its conditions hold, is what the Cox's or the register's function for it makes. -/
theorem faultCommandsAct : Obligations.FaultCommandsAct := by
  refine ⟨?service, ?close, ?window, ?pop, ?pirq, ?pkg, ?inject, ?fire, ?write⟩
  case service =>
    intro frame s hl hup hb hv hc
    unfold exec
    exact act_does hl (serviceRec_records hup hb hv hc)
  case close =>
    intro s hl _ _ _
    unfold exec
    exact act_does hl rfl
  case window =>
    intro s hl
    unfold exec
    exact act_does hl rfl
  case pop =>
    intro p r rest s hl hp hq
    unfold exec
    exact act_does hl ((if_pos hp).trans ((drsWrite_pop hp).trans (pfltPop_pops hp hq)))
  case pirq =>
    intro p v s hl hp
    unfold exec
    exact act_does hl ((if_pos hp).trans (drsWrite_pirq hp))
  case pkg =>
    intro v part s hl hp hb
    have htaken : fltPkgTaken v.toNat s = setFld frFlt 0 16 32 (bits v.toNat 16 32) (clrBit frFlt 0 1 s) := by
      unfold fltPkgTaken
      rw [if_pos hb]
    rw [exec_fltPkgWrite_open hl hp, htaken]
  case inject =>
    intro frame v s hl hf hb hen hv
    unfold exec
    exact act_does hl ((if_pos hb).trans (wrAs_inject (Nat.ne_of_lt hf) hb hen hv))
  case fire =>
    intro frame line s hl hk
    unfold exec
    exact act_does hl (injFire_write hk)
  case write =>
    intro frame off v part s hl hpart _ hoff hal hk
    subst hpart
    unfold exec
    exact act_does hl ((if_pos ⟨hoff, hal⟩).trans (wrAs_system hk.1 hk.2))

/-- Settles O54: the window takes the writes of PART 15 and of a BMC with the role alone, and a write that it takes changes one register. -/
theorem faultWindowWriters : Obligations.FaultWindowWriters := by
  refine ⟨?bmc, ?partition, ?taken⟩
  case bmc =>
    intro v s hl hb
    exact exec_fltPkgWrite_closed hl (.inr ⟨rfl, hb⟩)
  case partition =>
    intro v p s hl hp
    exact exec_fltPkgWrite_closed hl (.inl hp)
  case taken =>
    intro v p s hl hc hp
    have hkeeps : fltPkgTaken v.toNat s = { s with regs := (fltPkgTaken v.toNat s).regs } := regsOnly_fltPkgTaken _ s
    have hidle : CoxIdle (fltPkgTaken v.toNat s) := by rw [hkeeps]; exact hc
    refine ⟨settle (fltPkgTaken v.toNat s), ?exec, ?ucp, ?ucalert, ?cecnt, ?others, ?state⟩
    case exec => rw [exec_fltPkgWrite_open hl hp, after_idle hidle]
    case ucp => rw [fbit_settle, fbit_fltPkgTaken_ucp]
    case ucalert => rw [fbit_settle, fbit_fltPkgTaken_ucalert]
    case cecnt => rw [fld_settle, fld_fltPkgTaken_cecnt]
    case others =>
      intro g a ha h
      rw [reg_settle, reg_fltPkgTaken_ne _ s ha h]
    case state =>
      generalize fltPkgTaken v.toNat s = t at hkeeps ⊢
      unfold settle
      rw [hkeeps]

end Sys2Proof.Machine
end

section
/-! PROOF. The root ports: requests and answers of their devices, and their links (chapter 10). -/

namespace Sys2Proof.Machine

/-- A trigger of a root port acts on the package that it has woken. -/
theorem portAct_does {rp : Nat} {g : State → State} {s t w : State} (h : Live s) (hr : rp < 12) (hw : w = k3Wake s) (e : g w = t) :
    portAct rp g s = .next (after t) := by
  rw [portAct_live h hr, ← hw, e]

section
variable {q : Tlp} {pa : Nat} {v w : State}

/-! ### Transaction-layer packets -/

theorem dmaWrite_writes (hg : rpGate w q.rp q.link (inProxy q.addr) = some none) (hx : tlpXl w q = some pa)
    (hm : rpAllMain q.rp (rpPart w q.rp) pa q.data.length w = (true, v)) (hn : q.data.length ≠ 0) (hp : q.poison = false) :
    dmaWrite q w = tlpAdd q.rp q.link q.tag true ((tlpParts pa q.data.length).map (fun e =>
      { kind := if e.2.1 = 64 then .wfull else .wpart, pa := e.1, size := e.2.1, at_ := e.2.2, mask := (partLine e.1 e.2.1 e.2.2 q.data).1,
        data := (partLine e.1 e.2.1 e.2.2 q.data).2, poison := false, relaxed := q.relaxed })) v := by
  unfold dmaWrite
  simp only [hg, hx, hm, if_neg hn, hp]
  rw [if_pos trivial, if_neg Bool.false_ne_true]

/-- A write of four bytes to an interrupt file of the port's partition becomes an interrupt message (R340). -/
theorem dmaWrite_interrupts {h j : Nat} (hg : rpGate w q.rp q.link (inProxy q.addr) = some none) (hx : tlpXl w q = some pa)
    (hm : rpAllMain q.rp (rpPart w q.rp) pa q.data.length w = (false, v)) (hn : q.data.length = 4) (him : imOf pa = some (h, j)) (hal : pa % 4 = 0)
    (hpart : hartPart w h = rpPart w q.rp) :
    dmaWrite q w = tlpAdd q.rp q.link q.tag true
      [{ kind := .msi, pa := pa, size := 4, data := BitVec.ofNat 512 (leNat q.data * 256 ^ (pa % 64)), relaxed := q.relaxed, dst := h / 144 }] v := by
  unfold dmaWrite
  simp only [hg, hx, hm, him]
  rw [if_neg (by omega), if_neg Bool.false_ne_true, if_pos ⟨hn, hal, hpart⟩]

theorem dmaRead_reads (hg : rpGate w q.rp q.link (inProxy q.addr) = some none) (hroom : npRoom w q.rp = true) (hn : q.len ≠ 0) (hx : tlpXl w q = some pa)
    (hm : rpAllMain q.rp (rpPart w q.rp) pa q.len w = (true, v)) (hlen : q.len ≤ 4096) :
    dmaRead q w = tlpAdd q.rp q.link q.tag false
      ((tlpParts pa q.len).map (fun e => { kind := .read, pa := e.1, size := e.2.1, at_ := e.2.2, relaxed := q.relaxed })) v := by
  unfold dmaRead
  simp only [hg, hroom, hx, hm]
  rw [if_neg (by simp), if_neg hn, if_pos ⟨trivial, hlen⟩]

/-- A read of no bytes waits for earlier posted writes alone (R340). -/
theorem dmaRead_empty (hg : rpGate w q.rp q.link (inProxy q.addr) = some none) (hroom : npRoom w q.rp = true) :
    dmaRead { q with len := 0 } w = tlpAdd q.rp q.link q.tag false [{ kind := .zlr }] w := by
  unfold dmaRead
  simp only [hg, hroom]
  rw [if_neg (by simp), if_pos trivial]

theorem atomicOp_acts {op : AtomOp} {opnd cmp : Nat} (hg : rpGate w q.rp q.link (inProxy q.addr) = some none) (hroom : npRoom w q.rp = true)
    (hx : tlpXl w q = some pa) (hm : rpMain q.rp (rpPart w q.rp) pa w = (true, v)) (hlen : q.len = 4 ∨ q.len = 8 ∨ op = .cas ∧ q.len = 16)
    (hal : pa % q.len = 0) :
    atomicOp q op opnd cmp w = tlpAdd q.rp q.link q.tag false
      [{ kind := .atom, pa := pa, size := q.len, op := op, opnd := opnd, cmp := cmp, relaxed := q.relaxed }] v := by
  have hsize : (if op = .cas then [4, 8, 16] else [4, 8]).contains q.len = true := by
    rcases hlen with h | h | ⟨hop, h⟩
    · rw [h]; split <;> decide
    · rw [h]; split <;> decide
    · rw [h, if_pos hop]; decide
  unfold atomicOp
  simp only [hg, hroom, hx, hm, hsize, hal]
  rw [if_neg (by simp), if_pos (by simp)]

/-- The message of a CXL.cache device for a line of main memory waits at its port. -/
theorem cxlTake_takes {r op : Nat} {x : Line} {poison : Bool} (hc : (rpLink (rp w r) 0).cxl = true) (hg : rpGate w r 0 false = some none)
    (hm : rpMain r (rpPart w r) pa w = (true, v)) :
    cxlTake r op pa x poison w =
      rpRun r (updRp r (fun y => { y with cxlReq := y.cxlReq ++ [{ op := op, pa := 64 * lineOf pa, data := x, poison := poison }] }) v) := by
  unfold cxlTake
  rw [if_neg (by simp [hc])]
  simp only [hg, hm]
  exact if_pos trivial

theorem atsRequest_answers {r rid iova : Nat} {xl : Option Nat} (hg : rpGate w r 0 false = some none) (hmode : 2 ≤ ioMode w r) :
    atsRequest r rid iova xl w = devSend r (.ats rid iova xl) w := by
  unfold atsRequest
  simp only [hg]
  exact if_neg (by omega)

theorem pageRequest_queues {r rid iova grp : Nat} (hg : rpGate w r 0 false = some none) :
    pageRequest r rid iova grp w = ioQueue r false (leBytes 16 (rid * 2 ^ 40 + (4 + grp % 512 * 8 + iova / 4096 * 4096) * 2 ^ 64)) w := by
  unfold pageRequest
  simp only [hg]

end

/-- Settles O35: the port has woken the package, and its function for the request does what the conditions open. -/
theorem portRequestsAct : Obligations.PortRequestsAct := by
  refine ⟨?write, ?msi, ?read, ?empty, ?atomic, ?rdCurr, ?rdShared, ?rdOwn, ?rdOwnNoData, ?iToMWr, ?dirtyEvict, ?cleanEvict, ?ats, ?page⟩
  case write =>
    intro q pa v w s hl hr hw hg hx hm hn hp
    unfold exec
    exact portAct_does hl hr hw (dmaWrite_writes hg hx hm hn hp)
  case msi =>
    intro q pa h j v w s hl hr hw hg hx hm hn him hal hpart
    unfold exec
    exact portAct_does hl hr hw (dmaWrite_interrupts hg hx hm hn him hal hpart)
  case read =>
    intro q pa v w s hl hr hw hg hroom hn hx hm hlen
    unfold exec
    exact portAct_does hl hr hw (dmaRead_reads hg hroom hn hx hm hlen)
  case empty =>
    intro q w s hl hr hw hg hroom
    unfold exec
    exact portAct_does hl hr hw (dmaRead_empty hg hroom)
  case atomic =>
    intro q op opnd cmp pa v w s hl hr hw hg hroom hx hm hlen hal
    unfold exec
    exact portAct_does hl hr hw (atomicOp_acts hg hroom hx hm hlen hal)
  case rdCurr =>
    intro rp pa v w s hl hr hw hc hg hm
    unfold exec
    exact portAct_does hl hr hw (cxlTake_takes hc hg hm)
  case rdShared =>
    intro rp pa v w s hl hr hw hc hg hm
    unfold exec
    exact portAct_does hl hr hw (cxlTake_takes hc hg hm)
  case rdOwn =>
    intro rp pa v w s hl hr hw hc hg hm
    unfold exec
    exact portAct_does hl hr hw (cxlTake_takes hc hg hm)
  case rdOwnNoData =>
    intro rp pa v w s hl hr hw hc hg hm
    unfold exec
    exact portAct_does hl hr hw (cxlTake_takes hc hg hm)
  case iToMWr =>
    intro rp pa x poison v w s hl hr hw hc hg hm
    unfold exec
    exact portAct_does hl hr hw (cxlTake_takes hc hg hm)
  case dirtyEvict =>
    intro rp pa x poison v w s hl hr hw hc hg hm
    unfold exec
    exact portAct_does hl hr hw (cxlTake_takes hc hg hm)
  case cleanEvict =>
    intro rp pa v w s hl hr hw hc hg hm
    unfold exec
    exact portAct_does hl hr hw (cxlTake_takes hc hg hm)
  case ats =>
    intro rp rid iova xl w s hl hr hw hg hmode
    unfold exec
    exact portAct_does hl hr hw (atsRequest_answers hg hmode)
  case page =>
    intro rp rid iova grp w s hl hr hw hg
    unfold exec
    exact portAct_does hl hr hw (pageRequest_queues hg)

/-! ### Answers and links -/

section
variable {r pa : Nat} {w : State}

theorem outDone_answers {tag : Nat} {ok : Bool} {x : Nat} {o : OutReq} (ho : (rp w r).out.find? (fun o => o.tag = tag) = some o) :
    outDone r tag (some (ok, x)) w =
      outNext r (ioAnswer o.f (!ok) x (updRp r (fun y => { y with out := y.out.filter (fun z => z.tag ≠ tag) }) w)) := by
  unfold outDone
  simp only [ho]

theorem outDone_fails {tag : Nat} {o : OutReq} (ho : (rp w r).out.find? (fun o => o.tag = tag) = some o) :
    outDone r tag none w = outNext r (outFail r 0x04 true o.f (updRp r (fun y => { y with out := y.out.filter (fun z => z.tag ≠ tag) }) w)) := by
  unfold outDone
  simp only [ho]

/-- A snoop that the device does not answer is answered by the port with poison, and the link is contained (R345). -/
theorem cxlTimeout_contains {f : Flit} (hf : (rp w r).csnp.find? (fun f => lineOf f.addr = lineOf pa) = some f) :
    cxlTimeout r pa w = linkDown r 0 (send { rsp oSnpRsp (rpAgent r) f.src f.txn f with st := .i, wb := true } (snpData (rpAgent r) f 0 true 0
      (updRp r (fun y => { y with csnp := y.csnp.erase f, cxl := y.cxl.erase (lineOf pa), recl := y.recl.erase (lineOf pa) })
        (logErr (rpErr w r 0x07 true (some pa)) w)))) := by
  have hany : (rp w r).csnp.any (fun f => lineOf f.addr = lineOf pa) = true := by
    have hline := List.find?_some hf
    exact List.any_eq_true.mpr ⟨f, List.mem_of_find?_eq_some hf, hline⟩
  unfold cxlTimeout
  rw [if_pos (.inl hany)]
  simp only [hf]

/-- The device's link works, and its decoder covers the address. -/
theorem cxlMem_link_works (h : (rpLink (rp w r) 0).dpc = false ∧ (rpLink (rp w r) 0).dlup = true ∧ hdmCovers w r pa = true) :
    ((rpLink (rp w r) 0).dpc || !(rpLink (rp w r) 0).dlup || !(hdmCovers w r pa)) = false := by
  obtain ⟨hdpc, hdlup, hcov⟩ := h
  rw [hdpc, hdlup, hcov]
  rfl

theorem cxlMem_writes {q : MemReq} {x : Line} {poison : Bool} (hc : cxlPort w pa = some r) (hq : memFirst w pa (fun q => q.wr) = some q)
    (hlink : (rpLink (rp w r) 0).dpc = false ∧ (rpLink (rp w r) 0).dlup = true ∧ hdmCovers w r pa = true) (hwr : q.wr = true) :
    cxlMem r pa (some true) (some (x, poison)) 0x07 w = memWriteDone q w := by
  have hwant : (fun q : MemReq => decide ((some true).getD q.wr = q.wr)) = (fun q => q.wr) := by
    funext q
    cases h : q.wr <;> simp
  unfold cxlMem
  rw [if_neg (not_not_intro hc), hwant]
  simp only [hq, cxlMem_link_works hlink, hwr]
  simp

theorem cxlMem_reads {q : MemReq} {x : Line} (hc : cxlPort w pa = some r) (hq : memFirst w pa (fun q => !q.wr) = some q)
    (hlink : (rpLink (rp w r) 0).dpc = false ∧ (rpLink (rp w r) 0).dlup = true ∧ hdmCovers w r pa = true) (hrd : q.wr = false) :
    cxlMem r pa (some false) (some (x, false)) 0x07 w = memReadDone q x false w := by
  have hwant : (fun q : MemReq => decide ((some false).getD q.wr = q.wr)) = (fun q => !q.wr) := by
    funext q
    cases h : q.wr <;> simp
  unfold cxlMem
  rw [if_neg (not_not_intro hc), hwant]
  simp only [hq, cxlMem_link_works hlink, hrd]
  simp

/-- A read that the device does not answer gives the home poisoned data (R342). -/
theorem cxlMem_fails {q : MemReq} (hc : cxlPort w pa = some r) (hq : memFirst w pa (fun _ => true) = some q) (hrd : q.wr = false) :
    cxlMem r pa none none 0x07 w = memReadDone q 0 true (logErr { rpErr w r 0x07 true (some pa) with part := linePart w pa } w) := by
  have hwant : (fun q : MemReq => decide ((none : Option Bool).getD q.wr = q.wr)) = (fun _ => true) := by
    funext q
    simp
  unfold cxlMem
  rw [if_neg (not_not_intro hc), hwant]
  simp only [hq, ite_self, hrd]
  simp

theorem pcieUp_trains {link speed width : Nat} {cxl : Bool} (hr : r < 12) (hl : linkLanes w r link ≠ 0) (hs : speed ≠ 0) (hwd : width ≠ 0) :
    pcieUp r link speed width cxl w = slotEvent r link 8 12 (updRpLink r link (fun x => { x with
      speed := min speed (fld w (frRp r) 0 8 3), width := min width (linkLanes w r link), dlup := true, present := true, dpc := false,
      cxl := cxl && decide (link = 0) && decide (4 ≤ min width (linkLanes w r link)) }) w) :=
  if_neg (by simp [Nat.not_le.mpr hr, hl, hs, hwd])

/-- A press of the attention button is a slot event (R351). -/
theorem slotPin_button {link : Nat} (hr : r < 12) (hl : linkLanes w r link ≠ 0) (hwas : bit (rpLink (rp w r) link).pins 0 = false) :
    slotPin r link 0 true w = slotEvent r link 0 0 (updRpLink r link (fun x => { x with pins := putBit x.pins 0 true }) w) := by
  unfold slotPin
  rw [if_neg (by simp [Nat.not_le.mpr hr, hl])]
  exact if_neg (by simp [hwas])

end

/-- Settles O36: the port has woken the package, and its function for the answer or the link does what the conditions open. -/
theorem portAnswersAndLinksAct : Obligations.PortAnswersAndLinksAct := by
  refine ⟨?completion, ?timeout, ?snoop, ?snoopTimeout, ?memWrite, ?memRead, ?memTimeout, ?down, ?up, ?slot, ?pin⟩
  case completion =>
    intro rp tag ok x o w s hl hr hw ho
    unfold exec
    exact portAct_does hl hr hw (outDone_answers ho)
  case timeout =>
    intro rp tag o w s hl hr hw ho
    unfold exec
    exact portAct_does hl hr hw (outDone_fails ho)
  case snoop =>
    intro rp pa dirty v poison w s hl hr hw _
    unfold exec
    exact portAct_does hl hr hw rfl
  case snoopTimeout =>
    intro rp pa f w s hl hr hw hf
    unfold exec
    exact portAct_does hl hr hw (cxlTimeout_contains hf)
  case memWrite =>
    intro rp pa v poison q w s hl hr hw hc hq hlink hwr
    unfold exec
    exact portAct_does hl hr hw (cxlMem_writes hc hq hlink hwr)
  case memRead =>
    intro rp pa v q w s hl hr hw hc hq hlink hrd
    unfold exec
    exact portAct_does hl hr hw (cxlMem_reads hc hq hlink hrd)
  case memTimeout =>
    intro rp pa q w s hl hr hw hc hq hrd
    unfold exec
    exact portAct_does hl hr hw (cxlMem_fails hc hq hrd)
  case down =>
    intro rp link w s hl hr hw _
    unfold exec
    exact portAct_does hl hr hw rfl
  case up =>
    intro rp link speed width cxl w s hl hr hw hlanes hs hwd
    unfold exec
    exact portAct_does hl hr hw (pcieUp_trains hr hlanes hs hwd)
  case slot =>
    intro rp link v w s hl hr hw hlanes hpair
    unfold exec
    exact portAct_does hl hr hw (if_pos ⟨hr, hlanes, hpair⟩)
  case pin =>
    intro rp link w s hl hr hw hlanes hwas
    unfold exec
    exact portAct_does hl hr hw (slotPin_button hr hlanes hwas)

end Sys2Proof.Machine
end

section
/-! PROOF. Interrupts, pins, the management window and the test port (chapter 10). -/

namespace Sys2Proof.Machine

/-- A source whose input rises becomes pending, whatever its mode. -/
theorem aplWire_rises {p src : Nat} {level d : Bool} {a a1 : Aplic} {s : State} (hp : p < 12) (hsrc : src < 256) (hown : aplSrcOwned s p src = true)
    (ha : a = aplic s p) (hd : d = aplDelegated a src) (ha1 : a1 = { a with wire := putBit a.wire src level })
    (hnow : aplInput a1 d src = true) (hwas : aplInput a d src = false) :
    aplWire p src level s = aplRun p d (updAplic p (fun _ => aplPut a1 d { aplDom a1 d with pend := putBit (aplDom a1 d).pend src true }) s) := by
  subst ha hd ha1
  unfold aplWire
  rw [if_pos ⟨hp, hsrc, hown⟩]
  simp only [hnow, hwas]
  rfl

theorem gpioChange_reports {pin : Nat} {level : Bool} {w : State} (hpin : pin < 32) (how : 12 ≤ bits w.gpioOwn (4 * pin) 4) :
    gpioChange pin level w = { w with gpioIn := putBit w.gpioIn pin level, gpioRep := w.gpioRep ++ [(pin, level)] } := by
  unfold gpioChange
  rw [if_pos hpin]
  exact if_neg (Nat.not_lt.mpr how)

theorem gpioChange_wires {pin : Nat} {level : Bool} {w : State} (hpin : pin < 32) (how : bits w.gpioOwn (4 * pin) 4 < 12) :
    gpioChange pin level w = aplWire (bits w.gpioOwn (4 * pin) 4) (193 + pin) level { w with gpioIn := putBit w.gpioIn pin level } := by
  unfold gpioChange
  rw [if_pos hpin]
  exact if_pos how

/-- The instruction that the TAP performs is the one it took, unless that is for the boundary. -/
theorem tapNow_core {s : State} (he : s.card.tapIr ≠ .extest) (hi : s.card.tapIr ≠ .intest) : tapNow s = s.card.tapIr :=
  if_neg (fun h => h.elim he hi)

theorem tapTake_idcode (h : Nat) (s : State) :
    tapTake .idcode h s = updCard (fun c => { c with tapIr := .idcode, tapBy := (List.range 12).filter (fun d => linkSt s d false = lOFF ∨ linkSt s d false = lHOLD), tapDr := 0x20576E53 }) s := by
  unfold tapTake
  dsimp only
  rw [tapNow_core (fun h => absurd h TapIr.noConfusion) (fun h => absurd h TapIr.noConfusion)]
  rfl

/-- An aligned offset of the window is one that the BMC may use. -/
theorem bar0_in_window {off : Nat} (h8 : off % 8 = 0) (htop : off < 0x100000) : ¬ (off % 8 ≠ 0 ∨ 0x100000 ≤ off) := by omega

/-- Settles O37: each of the inputs by the lemma about its unit. -/
theorem interruptAndPortPinsAct : Obligations.InterruptAndPortPinsAct := by
  unfold Obligations.InterruptAndPortPinsAct
  refine ⟨?claim, ?wired, ?report, ?wire, ?barRead, ?barWrite, ?tap⟩
  case claim =>
    intro h file sel wr v s hl hr hf
    unfold exec
    refine act_does hl ((if_pos hf).trans ?_)
    rw [BitVec.ofNat_toNat, BitVec.setWidth_eq, issue_joined hr]
  case wired =>
    intro p src level a a1 d s hl hp hsrc hown ha hd ha1 hnow hwas
    unfold exec
    exact act_does hl (aplWire_rises hp hsrc hown ha hd ha1 hnow hwas)
  case report =>
    intro pin level w s hl hpin hw how
    subst hw
    unfold exec
    exact act_does hl (gpioChange_reports hpin how)
  case wire =>
    intro pin p level w s hl hpin hw hp how
    subst hw hp
    unfold exec
    exact act_does hl (gpioChange_wires hpin how)
  case barRead =>
    intro off v s hl h8 htop
    unfold exec
    exact act_does hl ((if_neg (bar0_in_window h8 htop)).trans (if_neg Bool.false_ne_true))
  case barWrite =>
    intro off v s hl h8 htop
    unfold exec
    exact act_does hl ((if_neg (bar0_in_window h8 htop)).trans (if_pos rfl))
  case tap =>
    intro hart s hl
    unfold exec
    exact act_does hl (tapTake_idcode hart s)

end Sys2Proof.Machine
end

section
/-! PROOF. The Boathouse: the registers of a virtual function, admission, and the drives (chapter 11). -/

namespace Sys2Proof.Machine

/-- The owner's access to the window of its virtual function is performed. -/
theorem vfAct_does {part v : Nat} {g : State → State} {s t : State} (hl : Live s) (hv : vfIs s v = true) (ho : (vf s v).owner = part)
    (e : g s = t) : vfAct part v g s = .next (after t) := by
  have hgate : vfGate part v s = (true, s) := by
    unfold vfGate
    rw [hv, ho, Bool.true_and, if_pos (decide_eq_true rfl)]
  rw [vfAct_live hl, hgate, ← e]
  rfl

section
variable {v y n : Nat} {s : State}

theorem sqTail_rings {q : Sq} (hq : mfind (vf s v).sqs y = some q) (hn : n < q.size) :
    sqTail v y n s = updVf v (fun x => { x with sqs := mins x.sqs y { q with tail := n } }) s := by
  unfold sqTail
  simp only [hq]
  exact if_pos hn

theorem cqHead_rings {q : Cq} (hq : mfind (vf s v).cqs y = some q) (hn : n < q.size) :
    cqHead v y n s =
      bhSettle (cqRun ((mget (vf s v).cpls y).length + 1) v y (updVf v (fun x => { x with cqs := mins x.cqs y { q with head := n } }) s)) := by
  unfold cqHead
  simp only [hq]
  exact if_pos hn

theorem ccEnSet_enables {cc : Nat} {acq : Option Nat} (hen : bit (vf s v).cc 0 = false) (hres : (vf s v).resetting = false) (hcc : ccBad cc = false) :
    ccEnSet v cc acq s =
      updVf v (fun x => { x with rdy := true, sqs := mins x.sqs 0 { base := x.asq, size := bits (vf s v).aqa 0 12 + 1 }, cqs := mins x.cqs 0 { base := x.acq, size := bits (vf s v).aqa 16 12 + 1, pages := [acq] } })
        (updVf v (fun x => { x with cc := putBit cc 0 true, shst := 0 }) s) := by
  unfold ccEnSet
  simp only [hen, hres, hcc]
  rw [if_neg (by decide)]
  rfl

theorem ps1Entry_enters (hv : vfIs s v = true) (hp : (vf s v).ps1Entry = true) :
    ps1Entry v s = updVf v (fun x => { x with ps1Entry := false, ps1 := !x.wake, ps := if x.wake then 0 else 1, wake := false }) s := by
  unfold ps1Entry
  rw [hv]
  exact if_pos hp

theorem bhAbandon_abandons (h : fwAt s 1 = true) : bhAbandon s = fwFail (updBh (fun b => { b with pause := false }) s) := if_pos h

theorem freezeTimeout_fails {pr : Proc} (hc : s.cox.cur = some pr) (hop : pr.op = 0x2B) (hst : pr.step = 1) (hn : pr.n = v) :
    freezeTimeout v s = mgrEnd rFAILED 0 s := by
  unfold freezeTimeout
  rw [hc]
  exact if_pos ⟨hop, hst, hn⟩

end

section
variable {r rid page off : Nat} {data : List (BitVec 8)} {s : State}

/-- A drive's write to a page that nothing is bound to is dropped with a record (R396). -/
theorem proxyAccess_unbound (hr : bhPort s r = true) (hb : mfind s.bh.binds page = none) :
    proxyAccess r rid page off true data s =
      logErr { bhErr 0x02 1 15 (some (0x00002D0000000000 + 4096 * page + off)) with agent := some (rpAgent r) } s := by
  have hbh := logErr_bh (e := { bhErr 0x02 1 15 (some (0x00002D0000000000 + 4096 * page + off)) with agent := some (rpAgent r) }) (s := s)
    (show (1 : Nat) < 3 by decide)
  unfold proxyAccess
  simp only [hr, hb]
  rw [if_neg (by decide), if_pos trivial, hbh, hb]

/-- A map block that a drive returns goes to the buffer of its span. -/
theorem proxyAccess_map {key : Nat} {b : Bind} (hr : bhPort s r = true) (hb : mfind s.bh.binds page = some b)
    (hmine : b.rp = r ∧ b.rid = rid ∧ b.wr = true) (hlen : off + data.length ≤ 4096) (hd : b.dest = .map key) :
    proxyAccess r rid page off true data s =
      updBh (fun x => { x with mapIn := mset x.mapIn key (setBits (mget x.mapIn key) (8 * off) (8 * data.length) (leNat data)) }) s := by
  obtain ⟨hrp, hrid, hwr⟩ := hmine
  unfold proxyAccess
  simp only [hr, hb]
  rw [if_neg (by decide), if_pos ⟨hrp, hrid, hwr, hlen⟩]
  simp only [hd]
  exact if_pos trivial

end

/-- Settles O38: doorbells, enabling and reset through the window; the rest by the lemma of each unit. -/
theorem controllerCommandsAct : Obligations.ControllerCommandsAct := by
  unfold Obligations.ControllerCommandsAct
  refine ⟨?sq, ?cq, ?enable, ?reset, ?admission, ?flr, ?ps1, ?coalesce, ?unbound, ?map, ?lost, ?rebuilt, ?abandon, ?freeze⟩
  case sq =>
    intro part v y n q s hl hv ho hq hn
    unfold exec
    exact vfAct_does hl hv ho (sqTail_rings hq hn)
  case cq =>
    intro part v y n q s hl hv ho hq hn
    unfold exec
    exact vfAct_does hl hv ho (cqHead_rings hq hn)
  case enable =>
    intro part v cc acq s hl hv ho hen hres hcc
    unfold exec
    exact vfAct_does hl hv ho (ccEnSet_enables hen hres hcc)
  case reset =>
    intro part v s hl hv ho hen
    unfold exec
    exact vfAct_does hl hv ho rfl
  case admission =>
    intro v q e s hl hvf hq hio
    unfold exec
    exact act_live hl
  case flr =>
    intro v s hl hv
    unfold exec
    exact act_live hl
  case ps1 =>
    intro v s hl hv hp
    unfold exec
    exact act_does hl (ps1Entry_enters hv hp)
  case coalesce =>
    intro v s hl
    unfold exec
    exact act_live hl
  case unbound =>
    intro r rid page off data s hl hr hb
    unfold exec
    exact act_does hl (proxyAccess_unbound hr hb)
  case map =>
    intro r rid page off key data b s hl hr hb hmine hlen hd
    unfold exec
    exact act_does hl (proxyAccess_map hr hb hmine hlen hd)
  case lost =>
    intro drv dv s hl hd hlost
    unfold exec
    exact act_live hl
  case rebuilt =>
    intro p maps s hl
    unfold exec
    exact act_live hl
  case abandon =>
    intro s hl hfw
    unfold exec
    exact act_does hl (bhAbandon_abandons hfw)
  case freeze =>
    intro v pr s hl hc hop hst hn
    unfold exec
    exact act_does hl (freezeTimeout_fails hc hop hst hn)

end Sys2Proof.Machine
end

section
/-! PROOF. The Boathouse: the admin commands and the I/O commands of a virtual function (Tables 11.4, 11.6 and 11.7). -/

namespace Sys2Proof.Machine

/-! ### Admin commands -/

section
variable {v q : Nat} {x : Slot} {s : State}

theorem deleteSq_deletes (hx : admin s v 0x00 = some x) (hq : q = x.e.cdw10 % 65536) (h0 : q ≠ 0) (hqp : q ≤ (vf s v).nqp)
    (hsq : (mfind (vf s v).sqs q).isNone = false) :
    deleteSq v s = bhSettle (updSlot (admSlot v) (fun y => { y with ph := .drain }) (updVf v (fun y => { y with sqs := mupd y.sqs q (fun k => { k with head := k.tail }) })
      ((s.bh.slots.filter (fun y => decide (y.vf = v) && decide (y.q = q) && !y.started && !y.drop)).foldl (fun s y => slotPost y.n 0x08 0 s) s))) := by
  subst hq
  unfold deleteSq
  simp only [hx]
  exact if_neg (by simp [h0, hqp, hsq])

theorem createSq_creates {cq : Nat} (hx : admin s v 0x01 = some x) (hq : q = x.e.cdw10 % 65536) (hcq : cq = x.e.cdw11 / 65536 % 65536) (h0 : q ≠ 0)
    (hqp : q ≤ (vf s v).nqp) (hsq : (mfind (vf s v).sqs q).isSome = false) (hcq0 : cq ≠ 0) (hcqs : (mfind (vf s v).cqs cq).isNone = false)
    (hshare : (vf s v).sqs.any (fun e => e.1 ≠ 0 && decide (e.2.cq = cq)) = false) (hmax : x.e.cdw10 / 65536 % 65536 + 1 ≤ 1024)
    (hmin : 2 ≤ x.e.cdw10 / 65536 % 65536 + 1) (hpc : bit x.e.cdw11 0 = true) (hal : x.e.prp1 % 4096 = 0) :
    createSq v s = adminEnd v 0 0 (updVf v (fun y => { y with sqs := mins y.sqs q { base := x.e.prp1, size := x.e.cdw10 / 65536 % 65536 + 1, cq := cq, pages := x.e.pages.map (·.2) } }) s) := by
  subst hq hcq
  unfold createSq
  simp only [hx]
  rw [if_neg (by simp [h0, hqp, hsq]), if_neg (by rw [hcqs, hshare]; simp [hcq0]), if_neg (by omega), if_neg (by rw [hpc]; decide),
    if_neg (fun h => h hal)]

theorem deleteCq_deletes (hx : admin s v 0x04 = some x) (hq : q = x.e.cdw10 % 65536) (h0 : q ≠ 0) (hqp : q ≤ (vf s v).nqp)
    (hcq : (mfind (vf s v).cqs q).isNone = false) (huse : (vf s v).sqs.any (fun e => e.1 ≠ 0 && decide (e.2.cq = q)) = false) :
    deleteCq v s = adminEnd v 0 0 (updVf v (fun y => { y with cqs := mdel y.cqs q, cpls := mdel y.cpls q }) s) := by
  subst hq
  unfold deleteCq
  simp only [hx]
  rw [if_neg (by simp [h0, hqp, hcq]), if_neg (by rw [huse]; decide)]

theorem createCq_creates (hx : admin s v 0x05 = some x) (hq : q = x.e.cdw10 % 65536) (h0 : q ≠ 0) (hqp : q ≤ (vf s v).nqp)
    (hcq : (mfind (vf s v).cqs q).isSome = false) (hmax : x.e.cdw10 / 65536 % 65536 + 1 ≤ 1024) (hmin : 2 ≤ x.e.cdw10 / 65536 % 65536 + 1)
    (hpc : bit x.e.cdw11 0 = true) (hiv : x.e.cdw11 / 65536 % 65536 ≤ 127) (hal : x.e.prp1 % 4096 = 0) :
    createCq v s = adminEnd v 0 0 (updVf v (fun y => { y with cqs := mins y.cqs q { base := x.e.prp1, size := x.e.cdw10 / 65536 % 65536 + 1, ien := bit x.e.cdw11 1, iv := x.e.cdw11 / 65536 % 65536, pages := x.e.pages.map (·.2) } }) s) := by
  subst hq
  unfold createCq
  simp only [hx]
  rw [if_neg (by simp [h0, hqp, hcq]), if_neg (by omega), if_neg (by rw [hpc]; decide), if_neg (by omega), if_neg (fun h => h hal)]

/-- The error information log (page 1). -/
theorem getLogPage_errors (hx : admin s v 0x02 = some x) (hlen : 4 * (x.e.cdw10 / 65536 % 65536 + x.e.cdw11 % 65536 * 65536 + 1) ≤ 2 ^ 21)
    (hoff : x.e.cdw12 % 2 ^ 32 % 4 = 0) (hlid : x.e.cdw10 % 256 = 1) :
    getLogPage v s = adminData v (4 * (x.e.cdw10 / 65536 % 65536 + x.e.cdw11 % 65536 * 65536 + 1))
      (atBytes ((vf s v).errs.zipIdx.map (fun e => (64 * e.2, errBytes e.1))) / 256 ^ (x.e.cdw12 % 2 ^ 32)) s := by
  unfold getLogPage
  simp only [hx, hlid]
  exact if_neg (by omega)

/-- Identify of a namespace that is attached. -/
theorem identify_namespace (hx : admin s v 0x06 = some x) (hcns : x.e.cdw10 % 256 = 0) (h0 : x.e.nsid ≠ 0) (hmax : x.e.nsid ≤ 2048)
    (hns : (vf s v).ns.contains x.e.nsid = true) : identify v s = adminData v 4096 (idNs s x.e.nsid) s := by
  unfold identify
  simp only [hx, hcns, hns]
  rw [if_neg (by simp [h0, hmax]), if_pos trivial]

theorem identify_controller (hx : admin s v 0x06 = some x) (hcns : x.e.cdw10 % 256 = 1) :
    identify v s = adminData v 4096 (idCtrl v (drawNat s).1) (drawNat s).2 := by
  unfold identify
  simp only [hx, hcns]

theorem abortCmd_aborts {y : Slot} (hx : admin s v 0x08 = some x)
    (hy : s.bh.slots.find? (fun y => decide (y.vf = v) && decide (y.q = x.e.cdw10 % 65536) && decide (y.e.cid = x.e.cdw10 / 65536 % 65536) && !y.started && !y.drop && y.ph ≠ .post) = some y) :
    abortCmd v s = adminEnd v 0 0 (slotPost y.n 0x07 0 s) := by
  unfold abortCmd
  simp only [hx, hy]

/-- Arbitration (feature 1). -/
theorem setFeatures_arbitration (hx : admin s v 0x09 = some x) (hsave : bit x.e.cdw10 31 = false) (hfid : x.e.cdw10 % 256 = 1) :
    setFeatures v s = adminEnd v 0 0 (updVf v (fun y => { y with arb := x.e.cdw11 % 2 ^ 32 }) s) := by
  unfold setFeatures
  simp only [hx, hsave, hfid]
  exact if_neg Bool.false_ne_true

/-- The features whose value needs no argument are among those that the controller has. -/
theorem feature_supported {fid : Nat} (h : [0x01, 0x02, 0x07, 0x08, 0x0B].contains fid = true) :
    [0x01, 0x02, 0x07, 0x08, 0x09, 0x0B].contains fid = true ∧ fid ≠ 0x09 := by
  rw [List.contains_iff_mem] at h ⊢
  simp only [List.mem_cons, List.not_mem_nil, or_false] at h ⊢
  omega

/-- The current value of a feature. -/
theorem getFeatures_current (hx : admin s v 0x0A = some x) (hfid : [0x01, 0x02, 0x07, 0x08, 0x0B].contains (x.e.cdw10 % 256) = true)
    (hsel : x.e.cdw10 / 256 % 8 = 0) : getFeatures v s = adminEnd v 0 (featVal (vf s v) (x.e.cdw10 % 256) x.e.cdw11) s := by
  obtain ⟨hin, hne⟩ := feature_supported hfid
  unfold getFeatures
  simp only [hx, hin, hsel]
  rw [if_neg (by simp [hne]), if_pos trivial]

/-- An event request is kept while no event waits for one. -/
theorem aerTake_keeps {c : Nat} {l : List Nat} (hin : (vf s v).aerIn = c :: l) (hroom : (vf s v).aers.length < 4) (hev : (vf s v).events = []) :
    aerTake v s = updVf v (fun x => { x with aers := x.aers ++ [c] }) (updVf v (fun x => { x with aerIn := l }) s) := by
  unfold aerTake
  simp only [hin, hev]
  exact if_neg (by omega)

end

/-- Settles O39: each command by the lemma about its work. -/
theorem adminCommandsRun : Obligations.AdminCommandsRun := by
  unfold Obligations.AdminCommandsRun
  refine ⟨?deleteSq, ?createSq, ?deleteCq, ?createCq, ?log, ?idNs, ?idCtrl, ?abort, ?setArb, ?getFeat, ?event⟩
  case deleteSq =>
    intro v q x s hl hx hq h0 hqp hsq
    unfold exec
    exact act_does hl (deleteSq_deletes hx hq h0 hqp hsq)
  case createSq =>
    intro v q cq x s hl hx hq hcq h0 hqp hsq hcq0 hcqs hshare hmax hmin hpc hal
    unfold exec
    exact act_does hl (createSq_creates hx hq hcq h0 hqp hsq hcq0 hcqs hshare hmax hmin hpc hal)
  case deleteCq =>
    intro v q x s hl hx hq h0 hqp hcq huse
    unfold exec
    exact act_does hl (deleteCq_deletes hx hq h0 hqp hcq huse)
  case createCq =>
    intro v q x s hl hx hq h0 hqp hcq hmax hmin hpc hiv hal
    unfold exec
    exact act_does hl (createCq_creates hx hq h0 hqp hcq hmax hmin hpc hiv hal)
  case log =>
    intro v x s hl hx hlen hoff hlid
    unfold exec
    exact act_does hl (getLogPage_errors hx hlen hoff hlid)
  case idNs =>
    intro v x s hl hx hcns h0 hmax hns
    unfold exec
    exact act_does hl (identify_namespace hx hcns h0 hmax hns)
  case idCtrl =>
    intro v x q s hl hx hcns hq
    subst hq
    unfold exec
    exact act_does hl (identify_controller hx hcns)
  case abort =>
    intro v x y s hl hx hy
    unfold exec
    exact act_does hl (abortCmd_aborts hx hy)
  case setArb =>
    intro v x s hl hx hsave hfid
    unfold exec
    exact act_does hl (setFeatures_arbitration hx hsave hfid)
  case getFeat =>
    intro v x s hl hx hfid hsel
    unfold exec
    exact act_does hl (getFeatures_current hx hfid hsel)
  case event =>
    intro v c l s hl hin hroom hev
    unfold exec
    exact act_does hl (aerTake_keeps hin hroom hev)

/-! ### I/O commands -/

section
variable {n : Nat} {x : Slot} {s : State}

theorem flushBegin_begins (hx : atStart s n false 0 = some x) (hns : x.e.nsid = 0xFFFFFFFF ∨ (vf s x.vf).ns.contains x.e.nsid = true)
    (hready : s.bh.unready.contains x.e.nsid = false) : flushBegin n s = bhSettle (updSlot n (fun x => { x with ph := .flush }) s) := by
  unfold flushBegin
  simp only [hx]
  rw [if_neg (fun h => hns.elim h.1 (fun hc => by rw [hc] at h; exact Bool.false_ne_true h.2.symm)), if_neg (by rw [hready]; decide)]

/-- A command without deallocation begins once its arguments pass and no span is lost. -/
theorem rwBegin_begins {op : Nat} (hop : op ≠ 9) (hx : atStart s n false op = some x) (herr : rwError s x = 0)
    (hlost : (spansOf x.e.nsid (byteBlocks (slotBytes s x))).any (fun k => s.bh.lostSp.contains k) = false) :
    rwBegin op n s = bhSettle (slotMaps n s) := by
  unfold rwBegin
  simp only [hx, hlost]
  rw [if_neg (fun h => h herr), if_neg (fun h => hop h.1), if_neg (fun h => hop h.1), if_neg Bool.false_ne_true]

/-- A deallocation begins once its range list can be read as well. -/
theorem rwBegin_deallocates (hx : atStart s n false 9 = some x) (herr : rwError s x = 0)
    (hlost : (spansOf x.e.nsid (byteBlocks (slotBytes s x))).any (fun k => s.bh.lostSp.contains k) = false) (had : bit x.e.cdw11 2 = true)
    (hxl : (bhXl s (vf s x.vf).owner (x.e.pages.headD (0, none)).1 (x.e.pages.headD (0, none)).2).isSome = true) :
    rwBegin 9 n s = bhSettle (slotMaps n s) := by
  unfold rwBegin
  simp only [hx, hlost]
  rw [if_neg (fun h => h herr), if_neg (by simp [had]), if_neg (fun h => by rw [h.2] at hxl; exact Bool.false_ne_true hxl), if_neg Bool.false_ne_true]

theorem badOpcode_stops (hx : slot s n = some x) (hstart : x.started = true) (hph : x.ph = .start) (hq : x.q ≠ 0)
    (hop : [0x00, 0x01, 0x02, 0x05, 0x08, 0x09].contains x.e.op = false) : badOpcode x.vf n s = slotStop n 0x01 s := by
  unfold badOpcode
  simp only [hx]
  rw [if_neg hq]
  exact if_pos ⟨trivial, hstart, hph, hop⟩

theorem lockGrant_grants (hx : slot s n = some x) (hstart : x.started = false) (hfree : lockFree s x = true) :
    lockGrant n s = updSlot n (fun x => { x with started := true }) s := by
  unfold lockGrant
  simp only [hx]
  exact if_pos (by rw [hstart, hfree]; rfl)

/-- A drive's answer for data: what failed ends with the status of a failed drive. -/
theorem backDone_data {c : Bcmd} {l : List Bcmd} (ok : Bool) (hx : slot s n = some x) (hc : x.bcs = c :: l) (hm : c.map = none) :
    backDone n ok s =
      bhSettle (slotRun n (if ok then unbind c.pages (updSlot n (fun x => { x with bcs := l }) s)
        else slotStatus n 0xFFFF (unbind c.pages (updSlot n (fun x => { x with bcs := l }) s)))) := by
  unfold backDone
  simp only [hx, hc, hm]

end

/-- Settles O40: each command by the lemma about its work. -/
theorem blockCommandsRun : Obligations.BlockCommandsRun := by
  unfold Obligations.BlockCommandsRun
  refine ⟨?flush, ?write, ?read, ?compare, ?zeroes, ?dataset, ?opcode, ?lock, ?done, ?timeout, ?commit⟩
  case flush =>
    intro n x s hl hx hns hready
    unfold exec
    exact act_does hl (flushBegin_begins hx hns hready)
  case write =>
    intro n x s hl hx herr hlost
    unfold exec
    exact act_does hl (rwBegin_begins (by decide) hx herr hlost)
  case read =>
    intro n x s hl hx herr hlost
    unfold exec
    exact act_does hl (rwBegin_begins (by decide) hx herr hlost)
  case compare =>
    intro n x s hl hx herr hlost
    unfold exec
    exact act_does hl (rwBegin_begins (by decide) hx herr hlost)
  case zeroes =>
    intro n x s hl hx herr hlost
    unfold exec
    exact act_does hl (rwBegin_begins (by decide) hx herr hlost)
  case dataset =>
    intro n x s hl hx herr hlost had hxl
    unfold exec
    exact act_does hl (rwBegin_deallocates hx herr hlost had hxl)
  case opcode =>
    intro v n x s hl hx hv hstart hph hq hop
    subst hv
    unfold exec
    exact act_does hl (badOpcode_stops hx hstart hph hq hop)
  case lock =>
    intro n x s hl hx hstart hfree
    unfold exec
    exact act_does hl (congrArg bhSettle (lockGrant_grants hx hstart hfree))
  case done =>
    intro n x c l s hl hx hc hm
    unfold exec
    exact act_does hl (backDone_data true hx hc hm)
  case timeout =>
    intro n x c l s hl hx hc hm
    unfold exec
    exact act_does hl (backDone_data false hx hc hm)
  case commit =>
    intro nsid span ok s hl hrun
    unfold exec
    exact act_live hl

end Sys2Proof.Machine
end

section
/-! PROOF. The pair: its frames, epochs, takeover and links (chapter 12). -/

namespace Sys2Proof.Machine

/-- A trigger of the pair acts while no package-fatal error is latched. -/
theorem pairAct_does {g : State → State} {s t : State} (hl : Live s) (hu : ucp s = false) (e : g s = t) : pairAct g s = .next (after t) :=
  act_does hl ((if_neg (by rw [hu]; decide)).trans e)

section
variable {f : PairFrame} {p target : Nat} {s : State}

/-! ### Frames -/

theorem helloSend_sends (hon : s.pair.helloOn = true) (hup : pairUp s = true) :
    helloSend s = pairNow { ty := 1, part := 15, stream := 32, arg := Config.factory frIof 0, data := (List.range 64).map (fun i => BitVec.ofNat 8 ((drawNat s).1 / 256 ^ i)) }
      { (drawNat s).2 with pair := { (drawNat s).2.pair with hellos := (drawNat s).2.pair.hellos + 1 } } :=
  if_pos (by rw [hon, hup]; rfl)

/-- Descriptors that agree on both sides start the first epoch (R412). -/
theorem helloTakePair_matches {descs mine : List PairDesc} {u : State} (hon : s.pair.helloOn = true) (hup : pairUp s = true)
    (hm : mine = (myProt s).map (myDesc s)) (h1 : mine.all (fun d => descs.contains d) = true) (h2 : descs.all (fun d => mine.contains d) = true)
    (hu : u = { s with pair := { s.pair with helloOn := false } }) :
    helloTakePair s.pair.id descs s =
      (myProt u).foldl (fun s p => setReg (frPpair p) 0x008 1 (updPairP p (fun x => { x with matched := true, epoch := 1 }) s)) (setFld frPair 0x008 2 1 1 u) := by
  subst hm hu
  unfold helloTakePair
  rw [if_neg (by rw [hon, hup]; decide)]
  exact if_pos (by rw [h1, h2, decide_eq_true rfl]; rfl)

/-- A frame of a kind that the shadow only keeps joins what it has received. -/
theorem frameTake_keeps {ty : Nat} (h3 : ty ≠ 3) (hty : f.ty = ty) (hp : f.part < 12) (ht : shadowTakes s f.part = true) :
    frameTake ty f s = { s with pair := { s.pair with recv := s.pair.recv ++ [f] } } := by
  unfold frameTake
  rw [if_neg (by omega)]
  simp only [h3, false_and, if_false, ht]
  rfl

/-- A partition that is taking in its first copy counts each bulk frame. -/
theorem frameTake_counts (hty : f.ty = 3) (hp : f.part < 12) (hst : pairSt s f.part = .syncShadow) (htake : (pairP s f.part).take = 0) :
    frameTake 3 f s = recvPut f (updPairP f.part (fun x => { x with bulkGot := x.bulkGot + 1 }) s) := by
  have hnew : ¬ ((pairP s f.part).matched = true ∧ (pairSt s f.part = .off ∨ pairSt s f.part = .alone) ∧ (part s f.part).st = .stopped) := by
    rw [hst]
    exact fun h => h.2.1.elim PairSt.noConfusion PairSt.noConfusion
  have ht : shadowTakes s f.part = true := by
    unfold shadowTakes
    rw [hst, htake]
    rfl
  unfold frameTake
  rw [if_neg (by omega)]
  simp only [true_and, if_neg hnew, ht, if_true]

theorem blkTake_opens (hty : f.ty = 7) (ht : shadowTakes s f.part = true) (hnone : s.bh.blkIn = none) :
    blkTake f s = updBh (fun b => { b with blkIn := some (f.part, f.epoch, bits f.arg.toNat 0 12, bits f.arg.toNat 12 52 * nsBs (nsOf s (bits f.arg.toNat 0 12)), f.data.length, leNat f.data) }) s := by
  unfold blkTake
  rw [if_neg (by simp [hty, ht])]
  simp only [hnone]

theorem endTake_ends (hty : f.ty = 8) (hp : f.part < 12) (ht : shadowTakes s f.part = true) (hstream : f.stream < 32) :
    endTake f s = tryCommit f.part (updPairP f.part (fun x => { x with ended := (f.epoch, f.stream) :: x.ended }) s) := by
  have h32 : f.stream ≠ 32 := by omega
  have h33 : f.stream ≠ 33 := by omega
  unfold endTake
  rw [if_neg (by rw [ht]; simp [hty, hp])]
  simp only [if_neg h32, if_neg h33]

theorem takenTake_tears (hty : f.ty = 12) (hst : pairSt s f.part = .active ∨ pairSt s f.part = .held) :
    takenTake f s = teardownStart f.part (setPairSt f.part .gone (pairDrop f.part s)) := if_pos ⟨hty, hst⟩

/-! ### Epochs and takeover -/

theorem closeStart_closes (hm : mirrored s p = true) (hc : (pairP s p).close = 0) :
    closeStart p s = (ckptTargets s p).foldl (fun s t => coxCommand (ckptFlit t) s)
      (updPairP p (fun x => { x with close := 1, told := ckptTargets s p, todo := ckptTargets s p }) s) :=
  if_neg (by rw [hm, hc]; decide)

/-- The checkpoint of a root port is taken by the port itself. -/
theorem ckptTake_port (htold : (pairP s p).told.contains target = true) (hlo : 16 ≤ target) (hhi : target < 32) :
    ckptTake p target s = updPairP p (fun x => { x with close := 2, told := x.told.erase target }) (take (ckptFlit target) s) := by
  have hdie : ¬ target < 16 := by omega
  unfold ckptTake
  rw [if_neg (by rw [htold]; decide)]
  simp only [if_neg hdie, if_pos hhi]

/-- The checkpoint of a die stops its running harts, which then drain. -/
theorem ckptTake_die (htold : (pairP s p).told.contains target = true) (hdie : target < 16) :
    ckptTake p target s =
      (List.range 48).foldl (fun s c => hartRun (48 * target + c)
        (if (hart s (48 * target + c)).st = .run ∨ (hart s (48 * target + c)).st = .wrs then updHart (48 * target + c) (fun x => { x with st := .stopped, drain := true }) s else s))
      (updPairP p (fun x => { x with close := 2, told := x.told.erase target }) (cmdAnswer target (ckptFlit target) (take (ckptFlit target) s))) := by
  unfold ckptTake
  rw [if_neg (by rw [htold]; decide)]
  simp only [if_pos hdie]

theorem takeTimeout_records (h : (pairP s p).take ≠ 0) : takeTimeout p false s = coxErr 1 p true s :=
  (if_neg h).trans (if_neg Bool.false_ne_true)

theorem takeTimeout_gives_up (h : (pairP s p).take ≠ 0) : takeTimeout p true s = coxErr 2 p false (updPairP p (fun x => { x with take := 0 }) s) :=
  (if_neg h).trans (if_pos rfl)

end

/-- Settles O41: each trigger by the lemma about what it does; a package-fatal error, which would stop them, is excluded. -/
theorem pairFramesAct : Obligations.PairFramesAct := by
  unfold Obligations.PairFramesAct
  refine ⟨?helloSend, ?hello, ?mirror, ?hart, ?ctrl, ?bqe, ?bulk, ?blk, ?epochEnd, ?commit, ?fatal, ?handover, ?taken, ?reserved, ?close,
    ?ckptPort, ?ckptDie, ?closeTimeout, ?full, ?drained, ?loss, ?back, ?cross, ?autotake, ?takeRecord, ?takeGiveUp⟩
  case helloSend =>
    intro q s hl hon hup hq hu
    subst hq
    unfold exec
    exact pairAct_does hl hu (helloSend_sends hon hup)
  case hello =>
    intro pairId descs mine s u hl hon hup hid hm h1 h2 hu0 hu
    rw [hid]
    unfold exec
    exact pairAct_does hl hu (helloTakePair_matches hon hup hm h1 h2 hu0)
  case mirror =>
    intro f s hl hty hp ht hu
    unfold exec
    exact pairAct_does hl hu (frameTake_keeps (by decide) hty hp ht)
  case hart =>
    intro f s hl hty hp ht hu
    unfold exec
    exact pairAct_does hl hu (frameTake_keeps (by decide) hty hp ht)
  case ctrl =>
    intro f s hl hty hp ht hu
    unfold exec
    exact pairAct_does hl hu (frameTake_keeps (by decide) hty hp ht)
  case bqe =>
    intro f s hl hty hp ht hu
    unfold exec
    exact pairAct_does hl hu (frameTake_keeps (by decide) hty hp ht)
  case bulk =>
    intro f s hl hty hp hst htake hu
    unfold exec
    exact pairAct_does hl hu (frameTake_counts hty hp hst htake)
  case blk =>
    intro f s hl hty ht hnone hu
    unfold exec
    exact pairAct_does hl hu (blkTake_opens hty ht hnone)
  case epochEnd =>
    intro f s hl hty hp ht hstream hu
    unfold exec
    exact pairAct_does hl hu (endTake_ends hty hp ht hstream)
  case commit =>
    intro f s hl hty hp hm he hu
    unfold exec
    exact pairAct_does hl hu (if_pos hty)
  case fatal =>
    intro f s hl hty hu
    unfold exec
    exact pairAct_does hl hu rfl
  case handover =>
    intro f s hl hty hp hst htake hu
    unfold exec
    exact pairAct_does hl hu (if_pos hty)
  case taken =>
    intro f s hl hty hst hu
    unfold exec
    exact pairAct_does hl hu (takenTake_tears hty hst)
  case reserved =>
    intro f s hl hty hu
    unfold exec
    exact pairAct_does hl hu (if_pos hty)
  case close =>
    intro p ts s hl hm hc hts hu
    subst hts
    unfold exec
    exact pairAct_does hl hu (closeStart_closes hm hc)
  case ckptPort =>
    intro p target s hl htold htarget hu
    unfold exec
    exact pairAct_does hl hu (ckptTake_port htold htarget.1 htarget.2)
  case ckptDie =>
    intro p target s hl htold hdie hu
    unfold exec
    exact pairAct_does hl hu (ckptTake_die htold hdie)
  case closeTimeout =>
    intro p s hl hc hu
    unfold exec
    exact pairAct_does hl hu (if_neg hc)
  case full =>
    intro s hl hu
    unfold exec
    exact pairAct_does hl hu rfl
  case drained =>
    intro s hl hu
    unfold exec
    exact pairAct_does hl hu rfl
  case loss =>
    intro s hl
    unfold exec
    exact act_live hl
  case back =>
    intro s hl hup
    unfold exec
    exact act_does hl (if_pos hup)
  case cross =>
    intro n s hl hn
    unfold exec
    exact act_does hl (if_pos hn)
  case autotake =>
    intro s hl hauto hlost hu
    unfold exec
    exact pairAct_does hl hu (if_pos (by rw [hauto, hlost]; rfl))
  case takeRecord =>
    intro p s hl htake hu
    unfold exec
    exact pairAct_does hl hu (takeTimeout_records htake)
  case takeGiveUp =>
    intro p s hl htake hu
    unfold exec
    exact pairAct_does hl hu (takeTimeout_gives_up htake)

end Sys2Proof.Machine
end

section
/-! PROOF. Power pins, starts, activations of firmware and self-tests (chapters 13 and 18). -/

namespace Sys2Proof.Machine

section
variable {hw : Hw} {s u v : State}

/-! ### The power pins -/

theorem pwrokRise_starts (hp : s.pins.pwrok = false)
    (hu : u = (if s.card.known then s else updCard (fun c => { c with known := true, cs0 := flashOf hw.cs0, cs1 := hw.cs1.map flashOf }) s))
    (hv : v = updCard (fun c => { c with rail := (railBoot.zipIdx).foldl (fun m e => mset m e.2 e.1) [] }) { u with pins := { u.pins with pwrok := true, aon := true, everUp := true } }) :
    pwrokRise hw s = if v.pins.pkgRst then coldStart hw v else v := by
  subst hv hu
  exact if_neg (by rw [hp]; decide)

theorem rstRise_starts (hp : s.pins.pwrok = true) (hh : s.card.rstHeld = false) (hb : begun s = false) :
    rstRise hw s = coldStart hw { s with pins := { s.pins with pkgRst := true } } :=
  (if_neg (fun h => Bool.false_ne_true (h.symm.trans hp))).trans
    ((if_neg (fun h => Bool.false_ne_true (hh.symm.trans h))).trans (if_neg (fun h => Bool.false_ne_true (hb.symm.trans h))))

/-- A reset pulse that is long enough starts the package warm, and the start waits for the pin. -/
theorem rstFall_starts {ns : Nat} (hp : s.pins.pwrok = true) (hb : begun s = true) (hh : s.card.held = false) (hns : 1000 ≤ ns)
    (hst : s.card.start = none) (hu : u = { s with pins := { s.pins with pkgRst := false } }) :
    rstFall ns s = updCard (fun c => { c with rstHeld := true }) (warmStart u) := by
  have hpu : u.pins.pwrok = true := by rw [hu]; exact hp
  have hbu : begun u = true := by rw [hu]; exact hb
  have hhu : u.card.held = false := by rw [hu]; exact hh
  have hstu : u.card.start = none := by rw [hu]; exact hst
  have hshort : ¬ ns < 1000 := by omega
  have hglitch : ¬ ns < 100 := by omega
  unfold rstFall
  rw [← hu]
  simp only [hpu, hbu, hhu, hstu, if_neg hshort, hglitch, reduceCtorEq, or_self, if_false, Option.isSome_none, Bool.false_eq_true]

theorem pwrokFall_falls (hp : s.pins.pwrok = true) : pwrokFall s = powerOff s := if_pos hp

/-! ### Starts, firmware and tests -/

theorem stepFail_fails {step : Nat} {x : Start} (hx : s.card.start = some x) (hstep : step = x.step + 1)
    (hcan : 1 ≤ step ∧ step ≤ 9 ∨ step = 15 ∨ step = 16) : stepFail step s = startFail step (drawNat s).1 (drawNat s).2 := by
  unfold stepFail
  rw [hx]
  exact if_pos ⟨hstep, hcan⟩

theorem miscompare_standby (hd : s.cox.dead = false) : miscompare false s = coxRec 0x04 1 { s with cox := { s.cox with standbyBad := true } } := by
  unfold miscompare
  rw [if_neg (by rw [hd]; decide)]
  exact if_pos rfl

theorem miscompare_switches (hd : s.cox.dead = false) (hf : fwAt s 5 = false) (hs : s.cox.standbyBad = false) :
    miscompare true s = coxRec 0x05 1 { s with cox := { s.cox with standbyBad := true } } := by
  unfold miscompare
  rw [if_neg (by rw [hd]; decide), if_neg (by decide), if_neg (by rw [hf]; decide)]
  exact if_pos (by rw [hs]; rfl)

theorem miscompare_dies (hd : s.cox.dead = false) (hf : fwAt s 5 = false) (hs : s.cox.standbyBad = true) :
    miscompare true s = coxRec 0x06 3 { s with cox := { s.cox with dead := true } } := by
  unfold miscompare
  rw [if_neg (by rw [hd]; decide), if_neg (by decide), if_neg (by rw [hf]; decide)]
  exact if_neg (by rw [hs]; decide)

/-- A link margin test for the BMC ends with its interrupt alone. -/
theorem testDone_margin {result detail a : Nat} {pages : List (Nat × Nat)} (ht : s.card.test = some (16, 4, a)) (hr : result < 3) :
    testDone result detail pages s =
      mgtMsix 0 (testStat (4 * 2 ^ 8 + result * 2 ^ 16 + detail % 2 ^ 32 * 2 ^ 32) (updCard (fun c => { c with test := none }) s)) := by
  unfold testDone
  simp only [ht]
  exact if_neg (Nat.not_le.mpr hr)

end

/-- Settles O42: each pin and each end of a start, an activation or a test by its lemma. -/
theorem powerPinsAndStartsAct : Obligations.PowerPinsAndStartsAct := by
  unfold Obligations.PowerPinsAndStartsAct
  refine ⟨?rise, ?rstRise, ?rstFall, ?fall, ?step, ?heartbeat, ?probation, ?timeout, ?standby, ?switch, ?dead, ?test⟩
  case rise =>
    intro hw s u v hp hu hv
    unfold exec
    exact (pinAct_eq _ s).trans (by rw [pwrokRise_starts hp hu hv])
  case rstRise =>
    intro hw s hp hh hb
    unfold exec
    exact (pinAct_eq _ s).trans (by rw [rstRise_starts hp hh hb])
  case rstFall =>
    intro ns s u hp hb hh hns hst hu
    unfold exec
    exact (pinAct_eq _ s).trans (by rw [rstFall_starts hp hb hh hns hst hu])
  case fall =>
    intro s hp
    unfold exec
    exact (pinAct_eq _ s).trans (by rw [pwrokFall_falls hp])
  case step =>
    intro step x q s hl hx hstep hcan hq
    subst hq
    unfold exec
    exact act_does hl (stepFail_fails hx hstep hcan)
  case heartbeat =>
    intro s hl hf
    unfold exec
    exact act_does hl (if_pos hf)
  case probation =>
    intro s hl hf
    unfold exec
    exact act_does hl (if_pos hf)
  case timeout =>
    intro step s hl hstep hf
    unfold exec
    exact act_does hl (if_pos ⟨hstep, hf⟩)
  case standby =>
    intro s hl hd
    unfold exec
    exact act_does hl (miscompare_standby hd)
  case switch =>
    intro s hl hd hf hs
    unfold exec
    exact act_does hl (miscompare_switches hd hf hs)
  case dead =>
    intro s hl hd hf hs
    unfold exec
    exact act_does hl (miscompare_dies hd hf hs)
  case test =>
    intro result detail src a pages s hl ht hsrc hr
    subst hsrc
    unfold exec
    exact act_does hl (testDone_margin ht hr)

end Sys2Proof.Machine
end

section
/-! PROOF. The queue of the manager commands (R309, R310). -/

namespace Sys2Proof.Machine

/-- The manager commands, each with its number of Table 9.2 and the arguments that it puts into the frame. -/
noncomputable def managerCmds (c : MgrCmd) : List (Instr × Nat × MgrCmd) :=
  [(.partCreate c, 0x01, c), (.partStart c, 0x02, c), (.partStop c, 0x03, c), (.partReset c, 0x04, c), (.partDelete c, 0x05, c),
   (.dieEvacuate c, 0x06, c), (.dieAdd c, 0x07, c), (.slabAssign c, 0x08, c), (.slabRelease c, 0x09, c), (.rpAssign c, 0x0A, c), (.rpRelease c, 0x0B, c),
   (.partQuery c, 0x0C, c), (.errInject c, 0x10, c), (.bhDriveDetach c, 0x21, c), (.bhPoolAdd c, 0x22, c), (.bhPoolRemove c, 0x23, c),
   (.bhNsCreate c, 0x24, c), (.bhNsDelete c, 0x25, c), (.bhNsAttach c, 0x26, c), (.bhNsDetach c, 0x27, c), (.bhVfCreate c, 0x28, c),
   (.bhVfDelete c, 0x29, c), (.bhVfShare c, 0x2A, c), (.bhVfFreeze c, 0x2B, c), (.bhVfSave c, 0x2C, c), (.bhVfRestore c, 0x2D, c), (.bhVfThaw c, 0x2E, c),
   (.bhDirtyLog c, 0x2F, c), (.rcWrite c, 0x30, c), (.rcVerify c, 0x31, c), (.rcDisarm c, 0x32, c), (.rcRollback c, 0x33, c), (.rcRead c, 0x34, c),
   (.rcSvnRaise c, 0x35, c), (.warmStart c, 0x38, c), (.logRead c, 0x39, c), (.pairProtect c, 0x40, c), (.pairUnprotect c, 0x41, c),
   (.pairSwitch c, 0x42, c), (.pairTakeover c, 0x43, c), (.pairRelease c, 0x44, c), (.pairQuery c, 0x45, c),
   (.coxFwActivate c, 0x36, { c with a0 := c.a0 ||| 1 }), (.bhFwActivate c, 0x36, { c with a0 := c.a0 ||| 2 }), (.dieBist c, 0x37, { c with a0 := 1 }),
   (.linkFull c, 0x37, { c with a0 := 2 }), (.memTest c, 0x37, { c with a0 := 3 }), (.rpMargin c, 0x37, { c with a0 := 4 }),
   (.wgRecal c, 0x37, { c with a0 := 5 }), (.l3Bank c, 0x37, { c with a0 := 6 })]

/-- A manager command does what `mgrPut` does with its number and arguments. -/
theorem exec_managerCmd (c : MgrCmd) (s : State) : ∀ x ∈ managerCmds c, exec x.1 s = act (mgrPut x.2.1 x.2.2 {}) s := by
  simp only [managerCmds, List.forall_mem_cons]
  exact ⟨rfl, rfl, rfl, rfl, rfl, rfl, rfl, rfl, rfl, rfl, rfl, rfl, rfl, rfl, rfl, rfl, rfl, rfl, rfl, rfl, rfl, rfl, rfl, rfl, rfl, rfl, rfl,
    rfl, rfl, rfl, rfl, rfl, rfl, rfl, rfl, rfl, rfl, rfl, rfl, rfl, rfl, rfl, rfl, rfl, rfl, rfl, rfl, rfl, rfl, rfl, List.forall_mem_nil _⟩

/-- The arguments keep the sender. -/
theorem managerCmd_src (c : MgrCmd) : ∀ x ∈ managerCmds c, x.2.2.src = c.src := by
  simp only [managerCmds, List.forall_mem_cons, List.not_mem_nil, false_imp_iff, implies_true, and_self]

/-- A command of a manager that is not BUSY joins the queue, with its arguments in the frame. -/
theorem mgrPut_queues {op : Nat} {c : MgrCmd} {id : DriveId} {s : State} (hm : mgrHas s c.src = true) (hb : fbit s (mgrFrame c.src) 0x028 0 = false) :
    mgrPut op c id s =
      { setFld (mgrFrame c.src) 0x028 0 1 1 (setReg (mgrFrame c.src) 0x000 c.a0 (setReg (mgrFrame c.src) 0x008 c.a1 s)) with
        cox := { s.cox with queue := s.cox.queue ++ [{ op := op, c := c, id := id }] } } :=
  if_neg (fun h => h.elim (fun h => Bool.false_ne_true (h.symm.trans hm)) (fun h => Bool.false_ne_true (hb.symm.trans h)))

section
variable (c : MgrCmd) (fr : Nat) (s : State)

/-- The frame of a manager after it took a command: BUSY stands, with both arguments. -/
theorem fbit_mgrFrame_busy : fbit (setFld fr 0x028 0 1 1 (setReg fr 0x000 c.a0 (setReg fr 0x008 c.a1 s))) fr 0x028 0 = true := by
  rw [fbit_setFld _ fr 0x028 0 (by decide)]
  rfl

theorem reg_mgrFrame_arg0 : reg (setFld fr 0x028 0 1 1 (setReg fr 0x000 c.a0 (setReg fr 0x008 c.a1 s))) fr 0x000 = c.a0 := by
  rw [reg_setFld_ne _ _ _ _ (regKey_ne_of_off (by decide) (by decide) (by decide)), reg_setReg_self]

theorem reg_mgrFrame_arg1 : reg (setFld fr 0x028 0 1 1 (setReg fr 0x000 c.a0 (setReg fr 0x008 c.a1 s))) fr 0x008 = c.a1 := by
  rw [reg_setFld_ne _ _ _ _ (regKey_ne_of_off (by decide) (by decide) (by decide)),
    reg_setReg_ne _ _ (regKey_ne_of_off (by decide) (by decide) (by decide)), reg_setReg_self]

end

/-- Settles O43: a manager command is `mgrPut`, whose two branches are the two outcomes. -/
theorem managerCommandsQueue : Obligations.ManagerCommandsQueue := by
  unfold Obligations.ManagerCommandsQueue
  refine ⟨?commands, ?queue, ?reserved⟩
  case commands =>
    intro c s hl x hx
    have he := exec_managerCmd c s x hx
    have hsrc := managerCmd_src c x hx
    exact ⟨fun _ _ => he.trans (act_live hl), fun h => he.trans (act_does hl (mgrPut_ignored (by rw [hsrc]; exact h)))⟩
  case queue =>
    intro op c id s t hm hb ht
    subst ht
    rw [mgrPut_queues hm hb]
    exact ⟨rfl, rfl, fbit_mgrFrame_busy c _ s, reg_mgrFrame_arg0 c _ s, reg_mgrFrame_arg1 c _ s⟩
  case reserved =>
    intro c op pr s hpr h hop
    subst hpr
    unfold exec
    exact mgrAct_takes h (cmdStep_reserved h.names hop)

end Sys2Proof.Machine
end

section
/-! PROOF. The accesses of a memory controller (R273, R293, R294). -/

namespace Sys2Proof.Machine

/-- An access that answers a next state does so as any command. -/
theorem actOut_next {g : State → Out} {s t : State} (hl : Live s) (e : g s = .next t) : actOut g s = .next (after t) := by
  obtain ⟨hp, hd⟩ := hl
  unfold actOut
  rw [hp, hd, e]
  rfl

/-- An access that stops stops the package. -/
theorem actOut_fault {g : State → Out} {s : State} {r : Fault} (hl : Live s) (e : g s = .fault r) : actOut g s = .fault r := by
  obtain ⟨hp, hd⟩ := hl
  unfold actOut
  rw [hp, hd, e]
  rfl

section
variable {pa k : Nat} {err : CellErr} {q r : MemReq} {s t u : State}
variable (hq : memFirst s pa (fun _ => true) = some q) (hx : (cxlPort s pa).isSome = false)
include hq hx

theorem memRead_reads (hwr : q.wr = false) (hloc : reqLoc q s = some (k, t)) (hok : locOk t k = true)
    (hu : u = cellError k (cellFound t k err) false (damageEnd (frCtl k) (k / 64) t)) (hr : memFirst u pa (fun _ => true) = some r) :
    memRead pa err s = .next (settle (memReadDone r (rdLine u k) (mget u.poison (k / 64)) (count (frCtl k) 0 1 u))) := by
  subst hu
  unfold memRead
  simp only [hq, hx, hwr, hloc, hok, hr]
  rfl

theorem memRead_locates (hwr : q.wr = false) (hloc : reqLoc q s = none) : memRead pa err s = .next (settle (seAccess pa false s)) := by
  unfold memRead
  simp only [hq, hx, hwr, hloc]
  rfl

theorem memRead_noCell (hwr : q.wr = false) (hloc : reqLoc q s = some (k, t)) (hok : locOk t k = false) : memRead pa err s = .fault .noCell := by
  unfold memRead
  simp only [hq, hx, hwr, hloc, hok]
  rfl

theorem memWrite_writes (hwr : q.wr = true) (hloc : reqLoc q s = some (k, t)) (hok : locOk t k = true) (hr : memFirst t pa (fun _ => true) = some r) :
    memWrite pa s = .next (settle (memWriteDone r (memHit k (wrLine k r.data r.poison (count (frCtl k) 1 1 t))))) := by
  unfold memWrite
  simp only [hq, hx, hwr, hloc, hok, hr]
  rfl

theorem memWrite_locates (hwr : q.wr = true) (hloc : reqLoc q s = none) : memWrite pa s = .next (settle (seAccess pa false s)) := by
  unfold memWrite
  simp only [hq, hx, hwr, hloc]
  rfl

theorem memWrite_noCell (hwr : q.wr = true) (hloc : reqLoc q s = some (k, t)) (hok : locOk t k = false) : memWrite pa s = .fault .noCell := by
  unfold memWrite
  simp only [hq, hx, hwr, hloc, hok]
  rfl

end

/-- Settles O44: the access by where the Strata engine finds the line. -/
theorem memoryAccessesAct : Obligations.MemoryAccessesAct := by
  unfold Obligations.MemoryAccessesAct
  refine ⟨?read, ?write, ?locate, ?stop⟩
  case read =>
    intro pa k err q r s t u hl hq hwr hx hloc hok hu hr
    unfold exec
    exact actOut_next hl (memRead_reads hq hx hwr hloc hok hu hr)
  case write =>
    intro pa k q r s t hl hq hwr hx hloc hok hr
    unfold exec
    exact actOut_next hl (memWrite_writes hq hx hwr hloc hok hr)
  case locate =>
    intro pa err q s hl hq hx hloc
    unfold exec
    exact ⟨fun hwr => actOut_next hl (memRead_locates hq hx hwr hloc), fun hwr => actOut_next hl (memWrite_locates hq hx hwr hloc)⟩
  case stop =>
    intro pa k err q s t hl hq hx hloc hok
    unfold exec
    exact ⟨fun hwr => actOut_fault hl (memRead_noCell hq hx hwr hloc hok), fun hwr => actOut_fault hl (memWrite_noCell hq hx hwr hloc hok)⟩

end Sys2Proof.Machine
end

section
/-! PROOF. A write of a register, field by field (Table 0.2). -/

namespace Sys2Proof.Machine

/-- What a write of `b` leaves in a field that holds `old`, by the field's access type. -/
def writtenFld (lockOpen legal : Bool) (acc : Acc) (old b : Nat) : Nat :=
  match acc with
  | .rw => if legal then b else old
  | .rwl => if lockOpen ∧ legal = true then b else old
  | .w1c => old - (old &&& b)
  | .w1s => old ||| b
  | .ro => old
  | .wo => old

/-- Fields in rising order, none beyond the word. -/
def fldsInOrder : List Fld → Bool
  | [] => true
  | x :: xs => decide (x.lo + x.w ≤ 64) && xs.all (fun y => decide (x.lo + x.w ≤ y.lo)) && fldsInOrder xs

theorem fldsInOrder_cons {x : Fld} {xs : List Fld} (h : fldsInOrder (x :: xs) = true) :
    x.lo + x.w ≤ 64 ∧ (∀ y ∈ xs, x.lo + x.w ≤ y.lo) ∧ fldsInOrder xs = true := by
  simpa only [fldsInOrder, Bool.and_eq_true, List.all_eq_true, decide_eq_true_eq, and_assoc] using h

/-- The fields of every register definition are in order. -/
theorem regDefs_inOrder : regDefs.all (fun r => fldsInOrder r.flds) = true := by
  decide

theorem fieldsAt_inOrder (f off : Nat) : fldsInOrder (fieldsAt f off) = true := by
  unfold fieldsAt
  dsimp only
  split
  · next r hr => exact List.all_eq_true.mp regDefs_inOrder r (List.mem_of_find?_eq_some hr)
  · rfl

section
variable {lockOpen : Bool} {legal : Fld → Nat → Bool} {n v : Nat} {x y : Fld}

theorem writtenFld_lt {ok : Bool} {acc : Acc} {old b w : Nat} (ho : old < 2 ^ w) (hb : b < 2 ^ w) : writtenFld lockOpen ok acc old b < 2 ^ w := by
  unfold writtenFld
  cases acc with
  | rw => dsimp only; split <;> assumption
  | rwl => dsimp only; split <;> assumption
  | w1c => exact Nat.lt_of_le_of_lt (Nat.sub_le _ _) ho
  | w1s => exact Nat.or_lt_two_pow ho hb
  | ro => exact ho
  | wo => exact ho

/-- A word into which a field of its own is put is the same word. -/
theorem setBits_bits (v lo w : Nat) : setBits v lo w (bits v lo w) = v := by
  apply Nat.eq_of_testBit_eq
  intro i
  rw [testBit_setBits]
  split
  · next h => rw [testBit_bits, decide_eq_true (by omega), Bool.true_and, Nat.add_sub_cancel' h.1]
  · rfl

/-- The write of a field puts there what its access type says. -/
theorem writeFld_eq : writeFld lockOpen legal n v x =
    putFld v x (writtenFld lockOpen (legal x (bits n x.lo x.w)) x.acc (bits v x.lo x.w) (bits n x.lo x.w)) := by
  have hkeep : putFld v x (bits v x.lo x.w) = v := setBits_bits v x.lo x.w
  unfold writeFld writtenFld
  cases x.acc with
  | rw =>
    dsimp only
    split
    · rfl
    · exact hkeep.symm
  | rwl =>
    simp only [Bool.and_eq_true]
    split
    · rfl
    · exact hkeep.symm
  | w1c => rfl
  | w1s => rfl
  | ro => exact hkeep.symm
  | wo => exact hkeep.symm

/-- A field after the write of its own. -/
theorem bits_writeFld_self : bits (writeFld lockOpen legal n v x) x.lo x.w =
    writtenFld lockOpen (legal x (bits n x.lo x.w)) x.acc (bits v x.lo x.w) (bits n x.lo x.w) := by
  rw [writeFld_eq]
  exact (bits_setBits_self ..).trans (Nat.mod_eq_of_lt (writtenFld_lt (bits_lt ..) (bits_lt ..)))

/-- A field apart from the one written keeps its value. -/
theorem bits_writeFld_apart (h : x.lo + x.w ≤ y.lo ∨ y.lo + y.w ≤ x.lo) : bits (writeFld lockOpen legal n v y) x.lo x.w = bits v x.lo x.w := by
  rw [writeFld_eq]
  exact bits_setBits_ne _ _ _ _ _ _ h

theorem writeFld_lt (hv : v < 2 ^ 64) (hx : x.lo + x.w ≤ 64) : writeFld lockOpen legal n v x < 2 ^ 64 := by
  rw [writeFld_eq]
  exact setBits_lt hv hx

end

section
variable {lockOpen : Bool} {legal : Fld → Nat → Bool} {n : Nat}

/-- A write of a word's fields, one after the other. -/
theorem foldl_writeFld_lt {fs : List Fld} : ∀ {v : Nat}, v < 2 ^ 64 → fldsInOrder fs = true → fs.foldl (writeFld lockOpen legal n) v < 2 ^ 64 := by
  induction fs with
  | nil => exact fun hv _ => hv
  | cons y ys ih =>
    intro v hv h
    obtain ⟨hy, -, hys⟩ := fldsInOrder_cons h
    exact ih (writeFld_lt hv hy) hys

/-- Fields above a field leave it. -/
theorem bits_foldl_writeFld_above {x : Fld} {fs : List Fld} (h : ∀ y ∈ fs, x.lo + x.w ≤ y.lo) :
    ∀ v, bits (fs.foldl (writeFld lockOpen legal n) v) x.lo x.w = bits v x.lo x.w := by
  induction fs with
  | nil => exact fun _ => rfl
  | cons y ys ih =>
    intro v
    exact (ih (fun z hz => h z (List.mem_cons_of_mem _ hz)) _).trans (bits_writeFld_apart (.inl (h y List.mem_cons_self)))

/-- Each field of the word becomes what its own write leaves. -/
theorem bits_foldl_writeFld {x : Fld} {fs : List Fld} (hfs : fldsInOrder fs = true) (hx : x ∈ fs) :
    ∀ v, bits (fs.foldl (writeFld lockOpen legal n) v) x.lo x.w =
      writtenFld lockOpen (legal x (bits n x.lo x.w)) x.acc (bits v x.lo x.w) (bits n x.lo x.w) := by
  induction fs with
  | nil => exact absurd hx List.not_mem_nil
  | cons y ys ih =>
    intro v
    obtain ⟨-, habove, hys⟩ := fldsInOrder_cons hfs
    rcases List.mem_cons.mp hx with rfl | hmem
    · exact (bits_foldl_writeFld_above habove _).trans bits_writeFld_self
    · refine (ih hys hmem _).trans ?_
      rw [bits_writeFld_apart (.inr (habove x hmem))]

end

/-- A field of a register after a software write. -/
theorem fld_genWrite {f off v : Nat} {x : Fld} {s : State} (hx : x ∈ fieldsAt f off) :
    fld (genWrite f off v s) f off x.lo x.w =
      writtenFld s.lockOpen (legalFld (keyKind f) off x (bits v x.lo x.w)) x.acc (fld s f off x.lo x.w) (bits v x.lo x.w) := by
  have hord := fieldsAt_inOrder f off
  unfold genWrite fld
  rw [reg_setReg_self, BitVec.toNat_ofNat, Nat.mod_eq_of_lt (foldl_writeFld_lt (reg s f off).isLt hord)]
  exact bits_foldl_writeFld hord hx _

/-- Settles O46: the fields of a register are in order, so the write of one leaves the others. -/
theorem fieldsWriteByAccess : Obligations.FieldsWriteByAccess := by
  unfold Obligations.FieldsWriteByAccess
  refine ⟨fun f off v x s hx => fld_genWrite hx, ?others⟩
  case others =>
    intro f off v g a s hoff ha hne
    refine reg_setReg_ne _ _ (fun hk => hne ?_)
    obtain ⟨hg, hao⟩ := regKey_inj ha hoff hk
    rw [hg, hao]

end Sys2Proof.Machine
end

section
/-! PROOF. Which error a bank keeps (R507, Table 15.2). -/

namespace Sys2Proof.Machine

/-! ### The status word of a record -/

/-- The status word of a record that is VALID (Table 15.2). -/
def errStat (c : Nat) (consq ovf addr agent : Bool) (part gen : Nat) : Nat :=
  1 + c * 2 + b2n consq * 8 + b2n ovf * 16 + b2n addr * 32 + b2n agent * 64 + part * 256 + gen * 4096

theorem errStat_fields {c part gen : Nat} (consq ovf addr agent : Bool) (hc : c < 4) (hp : part < 16) (hg : gen < 16) :
    bits (errStat c consq ovf addr agent part gen) 0 1 = b2n true ∧ bits (errStat c consq ovf addr agent part gen) 1 2 = c ∧
    bits (errStat c consq ovf addr agent part gen) 3 1 = b2n consq ∧ bits (errStat c consq ovf addr agent part gen) 4 1 = b2n ovf ∧
    bits (errStat c consq ovf addr agent part gen) 5 1 = b2n addr ∧ bits (errStat c consq ovf addr agent part gen) 6 1 = b2n agent ∧
    bits (errStat c consq ovf addr agent part gen) 8 4 = part ∧ bits (errStat c consq ovf addr agent part gen) 12 4 = gen := by
  have h3 := b2n_lt consq
  have h4 := b2n_lt ovf
  have h5 := b2n_lt addr
  have h6 := b2n_lt agent
  have ht : b2n true = 1 := rfl
  simp only [bits_eq_div_mod, errStat, ht]
  refine ⟨?_, ?_, ?_, ?_, ?_, ?_, ?_, ?_⟩ <;> omega

theorem errStat_lt {c part gen : Nat} (consq ovf addr agent : Bool) (hc : c < 4) (hp : part < 16) (hg : gen < 16) :
    errStat c consq ovf addr agent part gen < 2 ^ 64 := by
  have h3 := b2n_lt consq
  have h4 := b2n_lt ovf
  have h5 := b2n_lt addr
  have h6 := b2n_lt agent
  unfold errStat
  omega

section
variable {s : State} {f off n : Nat}

/-- A field of a register that holds a word of its width. -/
theorem fld_of_reg {lo w : Nat} (hr : reg s f off = BitVec.ofNat 64 n) (hn : n < 2 ^ 64) : fld s f off lo w = bits n lo w := by
  unfold fld
  rw [hr, BitVec.toNat_ofNat, Nat.mod_eq_of_lt hn]

theorem fbit_of_reg {i : Nat} {b : Bool} (hr : reg s f off = BitVec.ofNat 64 n) (hi : i < 64) (hb : bits n i 1 = b2n b) : fbit s f off i = b := by
  unfold fbit
  rw [hr, BitVec.getLsbD_ofNat, decide_eq_true hi, Bool.true_and]
  exact bit_of_bits hb

end

/-! ### The record that is latched -/

section
variable (e : Err) (c : Nat) (ovf : Bool) (s : State)

theorem reg_latchErr_status : reg (latchErr e c ovf s) e.frame 0x500 =
    BitVec.ofNat 64 (errStat c e.consq (ovf || fbit s e.frame 0x500 4) e.addr.isSome e.agent.isSome (e.part % 16) ((fld s e.frame 0x500 12 4 + 1) % 16)) := by
  have hne : ∀ b, b < 65536 → 0x500 ≠ b → regKey e.frame 0x500 ≠ regKey e.frame b := fun b => regKey_ne_of_off (by decide)
  unfold latchErr
  dsimp only
  rw [reg_setReg_ne _ _ (hne 0x520 (by decide) (by decide)), reg_setReg_ne _ _ (hne 0x518 (by decide) (by decide)),
    reg_setReg_ne _ _ (hne 0x510 (by decide) (by decide)), reg_setReg_ne _ _ (hne 0x508 (by decide) (by decide)), reg_setReg_self,
    errStat]

theorem reg_latchErr_addr : reg (latchErr e c ovf s) e.frame 0x508 = BitVec.ofNat 64 (e.addr.getD 0) := by
  have hne : ∀ b, b < 65536 → 0x508 ≠ b → regKey e.frame 0x508 ≠ regKey e.frame b := fun b => regKey_ne_of_off (by decide)
  unfold latchErr
  dsimp only
  rw [reg_setReg_ne _ _ (hne 0x520 (by decide) (by decide)), reg_setReg_ne _ _ (hne 0x518 (by decide) (by decide)),
    reg_setReg_ne _ _ (hne 0x510 (by decide) (by decide)), reg_setReg_self]

/-- The time that a block reads does not stand in a register. -/
theorem errTime_setReg (f off : Nat) (v : Word) (g : Nat) : errTime (setReg f off v s) g = errTime s g := rfl

theorem reg_latchErr_time : reg (latchErr e c ovf s) e.frame 0x520 = BitVec.ofNat 64 (errTime s e.frame) := by
  unfold latchErr
  dsimp only
  simp only [reg_setReg_self, errTime_setReg]

end

/-! ### What an error does below the package-fatal class -/

/-- The counts that an error raises: its class's in the bank, and `FLT_PKG.CECNT` for a corrected one (R506, R523). -/
def errCounted (e : Err) (s : State) : State :=
  let s' := if errClass s e < 3 then addSat e.frame 0x528 (16 * errClass s e) 16 1 s else s
  if errClass s e = 0 then addSat frFlt 0 16 32 1 s' else s'

section
variable {e : Err} {s : State}

theorem reg_errCounted {g a : Nat} (ha : a < 65536) (h0 : a ≠ 0) (h : a ≠ 0x528) : reg (errCounted e s) g a = reg s g a := by
  have hcnt : reg (if errClass s e < 3 then addSat e.frame 0x528 (16 * errClass s e) 16 1 s else s) g a = reg s g a :=
    reg_ite (reg_setFld_ne _ _ _ _ (regKey_ne_of_off ha (by decide) h)) rfl
  exact reg_ite ((reg_setFld_ne _ _ _ _ (regKey_ne_of_off ha (by decide) h0)).trans hcnt) hcnt

theorem fld_errCounted_status (lo w : Nat) : fld (errCounted e s) e.frame 0x500 lo w = fld s e.frame 0x500 lo w := by
  unfold fld
  rw [reg_errCounted (by decide) (by decide) (by decide)]

theorem fbit_errCounted_status (i : Nat) : fbit (errCounted e s) e.frame 0x500 i = fbit s e.frame 0x500 i := by
  unfold fbit
  rw [reg_errCounted (by decide) (by decide) (by decide)]

theorem outranks_errCounted (c : Nat) (consq : Bool) : outranks (errCounted e s) e.frame c consq = outranks s e.frame c consq := by
  unfold outranks
  rw [fld_errCounted_status, fbit_errCounted_status]

theorem regsOnly_errCounted : RegsOnly s (errCounted e s) := by
  have hcnt : RegsOnly s (if errClass s e < 3 then addSat e.frame 0x528 (16 * errClass s e) 16 1 s else s) :=
    regsOnly_ite (regsOnly_addSat _ _ _ _ _ _) (RegsOnly.rfl' _)
  exact regsOnly_ite (hcnt.trans' (regsOnly_addSat _ _ _ _ _ _)) hcnt

theorem errTime_errCounted (f : Nat) : errTime (errCounted e s) f = errTime s f := by
  rw [show errCounted e s = { s with regs := (errCounted e s).regs } from regsOnly_errCounted]
  rfl

theorem errClass_lt_four (h : e.cls < 3) : errClass s e < 4 := by
  unfold errClass
  split <;> omega

/-- An error that the bank takes is latched, and sets UCALERT above a corrected one. -/
theorem logErr_latches (h : e.cls < 3) (hl : fbit s e.frame 0x500 0 = false ∨ outranks s e.frame (errClass s e) e.consq = true) :
    logErr e s = if 1 ≤ errClass s e then setBit frFlt 0 1 (latchErr e (errClass s e) (fbit s e.frame 0x500 0) (errCounted e s))
      else latchErr e (errClass s e) (fbit s e.frame 0x500 0) (errCounted e s) := by
  have hlatch : (!(fbit (errCounted e s) e.frame 0x500 0) || outranks (errCounted e s) e.frame (errClass s e) e.consq) = true := by
    rw [fbit_errCounted_status, outranks_errCounted]
    rcases hl with hv | ho
    · rw [hv]
      rfl
    · rw [ho, Bool.or_true]
  unfold logErr
  extract_lets c s1 s2 valid latch s3 s4
  have hlatch' : latch = true := hlatch
  have hvalid : valid = fbit s e.frame 0x500 0 := fbit_errCounted_status 0
  have h3 : s3 = latchErr e c (fbit s e.frame 0x500 0) (errCounted e s) := (if_pos hlatch').trans (by rw [hvalid]; rfl)
  rw [if_neg (errClass_ne_three h)]
  dsimp only [s4]
  rw [hlatch', h3, Bool.true_and]
  simp only [decide_eq_true_eq]
  rfl

/-- An error that the bank does not take leaves the record, with OVF set. -/
theorem logErr_keeps (h : e.cls < 3) (hv : fbit s e.frame 0x500 0 = true) (ho : outranks s e.frame (errClass s e) e.consq = false) :
    logErr e s = setBit e.frame 0x500 4 (errCounted e s) := by
  have hlatch : (!(fbit (errCounted e s) e.frame 0x500 0) || outranks (errCounted e s) e.frame (errClass s e) e.consq) = false := by
    rw [fbit_errCounted_status, outranks_errCounted, hv, ho]
    rfl
  unfold logErr
  extract_lets c s1 s2 valid latch s3 s4
  have hlatch' : latch = false := hlatch
  have h3 : s3 = setBit e.frame 0x500 4 (errCounted e s) := if_neg (by rw [hlatch']; decide)
  have h4 : s4 = s3 := if_neg (by rw [hlatch', Bool.false_and]; decide)
  rw [if_neg (errClass_ne_three h), h4, h3]

/-- A register of the bank after an error that it takes. -/
theorem reg_logErr_latches (h : e.cls < 3) (hl : fbit s e.frame 0x500 0 = false ∨ outranks s e.frame (errClass s e) e.consq = true)
    {a : Nat} (ha : a < 65536) (h0 : a ≠ 0) :
    reg (logErr e s) e.frame a = reg (latchErr e (errClass s e) (fbit s e.frame 0x500 0) (errCounted e s)) e.frame a := by
  rw [logErr_latches h hl]
  exact reg_ite (reg_setFld_ne _ _ _ _ (regKey_ne_of_off ha (by decide) h0)) rfl

/-- The status word after an error that the bank takes. -/
theorem reg_logErr_status (h : e.cls < 3) (hl : fbit s e.frame 0x500 0 = false ∨ outranks s e.frame (errClass s e) e.consq = true) :
    reg (logErr e s) e.frame 0x500 = BitVec.ofNat 64 (errStat (errClass s e) e.consq (fbit s e.frame 0x500 0 || fbit s e.frame 0x500 4)
      e.addr.isSome e.agent.isSome (e.part % 16) ((fld s e.frame 0x500 12 4 + 1) % 16)) := by
  rw [reg_logErr_latches h hl (by decide) (by decide), reg_latchErr_status, fbit_errCounted_status, fld_errCounted_status]

/-- Another register of the bank, and every other bit of the status word, after an error that it does not take. -/
theorem reg_logErr_keeps (h : e.cls < 3) (hv : fbit s e.frame 0x500 0 = true) (ho : outranks s e.frame (errClass s e) e.consq = false)
    {a : Nat} (ha : a < 65536) (h0 : a ≠ 0) (h500 : a ≠ 0x500) (h528 : a ≠ 0x528) : reg (logErr e s) e.frame a = reg s e.frame a := by
  rw [logErr_keeps h hv ho]
  exact (reg_setFld_ne _ _ _ _ (regKey_ne_of_off ha (by decide) h500)).trans (reg_errCounted ha h0 h528)

theorem fbit_logErr_keeps (h : e.cls < 3) (hv : fbit s e.frame 0x500 0 = true) (ho : outranks s e.frame (errClass s e) e.consq = false) (i : Nat) :
    fbit (logErr e s) e.frame 0x500 i = if i = 4 then true else fbit s e.frame 0x500 i := by
  rw [logErr_keeps h hv ho, setBit, fbit_setFld _ _ _ _ (by decide), fbit_errCounted_status]
  by_cases hi : i = 4
  · subst hi
    rfl
  · rw [if_neg (by omega), if_neg hi]

end

/-- Settles O48: the record latched is one status word, and an error that is not latched sets its OVF. -/
theorem errorsAreLatched : Obligations.ErrorsAreLatched := by
  unfold Obligations.ErrorsAreLatched
  refine ⟨?latched, ?kept, ?rank, ?frame⟩
  case latched =>
    intro e s t h ht hl
    subst ht
    have hc : errClass s e < 4 := errClass_lt_four h
    have hr := reg_logErr_status h hl
    have hn := errStat_lt e.consq (fbit s e.frame 0x500 0 || fbit s e.frame 0x500 4) e.addr.isSome e.agent.isSome hc
      (Nat.mod_lt e.part (by decide : 0 < 16)) (Nat.mod_lt (fld s e.frame 0x500 12 4 + 1) (by decide : 0 < 16))
    obtain ⟨hvalid, hcls, hconsq, hovf, haddr, hagent, hpart, hgen⟩ :=
      errStat_fields e.consq (fbit s e.frame 0x500 0 || fbit s e.frame 0x500 4) e.addr.isSome e.agent.isSome hc
        (Nat.mod_lt e.part (by decide : 0 < 16)) (Nat.mod_lt (fld s e.frame 0x500 12 4 + 1) (by decide : 0 < 16))
    refine ⟨fbit_of_reg hr (by decide) hvalid, (fld_of_reg hr hn).trans hcls, fbit_of_reg hr (by decide) hconsq, fbit_of_reg hr (by decide) hovf,
      fbit_of_reg hr (by decide) haddr, fbit_of_reg hr (by decide) hagent, (fld_of_reg hr hn).trans hpart, (fld_of_reg hr hn).trans hgen, ?_, ?_, ?_⟩
    · rw [reg_logErr_latches h hl (by decide) (by decide), reg_latchErr_addr]
    · rw [reg_logErr_latches h hl (by decide) (by decide), reg_latchErr_time, errTime_errCounted]
    · intro h1
      rw [logErr_latches h hl, if_pos h1, setBit, fbit_setFld _ _ _ _ (by decide)]
      rfl
  case kept =>
    intro e s t h ht hv ho
    subst ht
    refine ⟨?_, fun i _ hi => ?_, ?_, ?_, ?_, ?_⟩
    · rw [fbit_logErr_keeps h hv ho, if_pos rfl]
    · rw [fbit_logErr_keeps h hv ho, if_neg hi]
    all_goals exact reg_logErr_keeps h hv ho (by decide) (by decide) (by decide) (by decide)
  case rank =>
    intro f c consq s
    simp only [outranks, Bool.or_eq_true, Bool.and_eq_true, decide_eq_true_eq, Bool.not_eq_true', and_assoc]
  case frame => exact fun e s h => regsOnly_logErr (errClass_ne_three h)

end Sys2Proof.Machine
end

section
/-! PROOF. The response to a package-fatal error (R529, step 1 of Table 15.10). -/

namespace Sys2Proof.Machine

/-! ### The fences -/

/-- A change that fences ports: beside their state and fence registers nothing is another, and no fence is lifted. -/
structure FencesOnly (s t : State) : Prop where
  frame : t = { s with regs := t.regs, ports := t.ports }
  regs : ∀ g a, a < 65536 → a ≠ 0x600 → reg t g a = reg s g a
  fenced : ∀ n, (port s n).fenced = true → (port t n).fenced = true

theorem FencesOnly.refl (s : State) : FencesOnly s s := ⟨rfl, fun _ _ _ _ => rfl, fun _ h => h⟩

theorem FencesOnly.trans {s t u : State} (h : FencesOnly s t) (k : FencesOnly t u) : FencesOnly s u where
  frame := by
    rw [k.frame, h.frame]
  regs g a ha hne := (k.regs g a ha hne).trans (h.regs g a ha hne)
  fenced n hn := k.fenced n (h.fenced n hn)

/-- The port that is put under a hard fence is fenced. -/
theorem hardFence_fenced (n : Nat) (s : State) : (port (hardFence n s) n).fenced = true := by
  unfold hardFence updPort port
  dsimp only
  rw [mget_mupd_self]

theorem fencesOnly_hardFence (n : Nat) (s : State) : FencesOnly s (hardFence n s) where
  frame := rfl
  regs _ _ ha hne := reg_hardFence_ne n s ha hne
  fenced j hj := by
    by_cases hjn : j = n
    · rw [hjn]
      exact hardFence_fenced n s
    · unfold hardFence updPort port
      dsimp only
      rw [mget_mupd_ne _ _ hjn]
      exact hj

/-- A port is fenced unless it has the pair role. -/
def fenceStep (t : State) (n : Nat) : State := if ucpFences t n then hardFence n t else t

theorem fencesOnly_fenceStep (t : State) (n : Nat) : FencesOnly t (fenceStep t n) := by
  unfold fenceStep
  split
  · exact fencesOnly_hardFence n t
  · exact .refl t

/-- The pair role of a root port does not stand in its fence register. -/
theorem FencesOnly.ucpFences_eq {s t : State} (h : FencesOnly s t) (n : Nat) : ucpFences t n = ucpFences s n := by
  unfold ucpFences fbit
  rw [h.regs _ 0 (by decide) (by decide)]

theorem fencesOnly_foldl (l : List Nat) : ∀ s, FencesOnly s (l.foldl fenceStep s) := by
  induction l with
  | nil => exact .refl
  | cons n l ih => exact fun s => (fencesOnly_fenceStep s n).trans (ih _)

/-- Every port of the list that is to be fenced is fenced at its end. -/
theorem foldl_fenceStep_fenced {n : Nat} {l : List Nat} (hn : n ∈ l) : ∀ s, ucpFences s n = true → (port (l.foldl fenceStep s) n).fenced = true := by
  induction l with
  | nil => exact absurd hn List.not_mem_nil
  | cons m l ih =>
    intro s hs
    rcases List.mem_cons.mp hn with rfl | hmem
    · have hstep : fenceStep s n = hardFence n s := if_pos hs
      refine (fencesOnly_foldl l _).fenced n ?_
      rw [hstep]
      exact hardFence_fenced n s
    · exact ih hmem _ (((fencesOnly_fenceStep s m).ucpFences_eq n).trans hs)

/-! ### The response -/

/-- The ports that the response looks at: of the dies, and of the root ports. -/
def ucpPorts : List Nat := (List.range 12) ++ (List.range 12).map (16 + ·)

/-- The package with UCP latched and its ports fenced. -/
def ucpFenced (s : State) : State := ucpPorts.foldl fenceStep (setBit frFlt 0 0 s)

theorem ucpResponse_eq (s : State) :
    ucpResponse s = { ucpFenced s with harts := (ucpFenced s).harts.map (fun e => (e.1, if e.2.st = .parked then e.2 else { e.2 with st := .stopped })) } :=
  rfl

theorem ucpFenced_fencesOnly (s : State) : FencesOnly (setBit frFlt 0 0 s) (ucpFenced s) := fencesOnly_foldl _ _

theorem ucpFenced_frame (s : State) : ucpFenced s = { s with regs := (ucpFenced s).regs, ports := (ucpFenced s).ports } :=
  (ucpFenced_fencesOnly s).frame

theorem fbit_ucpFenced_ucp (s : State) : fbit (ucpFenced s) frFlt 0 0 = true := by
  unfold fbit
  rw [(ucpFenced_fencesOnly s).regs frFlt 0 (by decide) (by decide)]
  exact (fbit_setFld s frFlt 0 0 (by decide)).trans (if_pos (by decide))

theorem ucpFenced_die {d : Nat} (s : State) (hd : d < 12) : (port (ucpFenced s) d).fenced = true := by
  refine foldl_fenceStep_fenced (List.mem_append_left _ (List.mem_range.mpr hd)) _ ?_
  unfold ucpFences
  rw [if_pos (by omega), decide_eq_true hd]

/-- The pair role stands in the port's own frame, which latching UCP does not write. -/
theorem fbit_rp_setUcp (r : Nat) (s : State) : fbit (setBit frFlt 0 0 s) (frRp r) 0 3 = fbit s (frRp r) 0 3 := by
  unfold fbit
  rw [setBit, reg_setFld_ne]
  intro hk
  have hf := (regKey_inj (by decide) (by decide) hk).1
  unfold frRp frFlt at hf
  omega

theorem ucpFenced_rp {r : Nat} (s : State) (hr : r < 12) (hp : fbit s (frRp r) 0 3 = false) : (port (ucpFenced s) (16 + r)).fenced = true := by
  refine foldl_fenceStep_fenced (List.mem_append_right _ (List.mem_map.mpr ⟨r, List.mem_range.mpr hr, rfl⟩)) _ ?_
  unfold ucpFences
  rw [if_neg (by omega), Nat.add_sub_cancel_left, fbit_rp_setUcp, hp]
  rfl

/-- A change of every listed value that leaves the default value leaves every unlisted one. -/
theorem mget_map {α β : Type} [Inhabited α] [Inhabited β] (g : α → β) (hd : g default = default) (m : Map α) (k : Nat) :
    mget (m.map (fun e => (e.1, g e.2)) : Map β) k = g (mget m k) := by
  unfold mget
  induction m with
  | nil => exact hd.symm
  | cons e m ih =>
    by_cases hk : e.1 = k
    · simp only [List.map_cons, mfind, if_pos hk, Option.getD_some]
    · simpa only [List.map_cons, mfind, if_neg hk] using ih

/-- A hart that is not parked stops. -/
def hartStopped (x : Hart) : Hart := if x.st = .parked then x else { x with st := .stopped }

theorem hartStopped_st (x : Hart) : (hartStopped x).st = if x.st = .parked then .parked else .stopped := by
  unfold hartStopped
  by_cases h : x.st = .parked
  · rw [if_pos h, if_pos h, h]
  · rw [if_neg h, if_neg h]

theorem hart_ucpResponse (s : State) (h : Nat) : hart (ucpResponse s) h = hartStopped (hart s h) := by
  have hharts : (ucpFenced s).harts = s.harts := by rw [ucpFenced_frame]
  rw [ucpResponse_eq, hharts]
  exact mget_map hartStopped rfl s.harts h

/-! ### The error -/

/-- A package-fatal error is latched, with registers of its bank and of the fault window alone, before the response. -/
theorem logErr_ucp {e : Err} (s : State) (h : e.cls = 3) :
    ∃ u, logErr e s = ucpResponse u ∧ RegsOnly s u ∧ ∀ r, fbit u (frRp r) 0 3 = fbit s (frRp r) 0 3 := by
  have hc : errClass s e = 3 := errClass_of_ucp s h
  unfold logErr
  extract_lets c s1 s2 valid latch s3 s4
  have h1 : s1 = s := if_neg (show ¬ errClass s e < 3 by omega)
  have h2 : s2 = s1 := if_neg (show ¬ errClass s e = 0 by omega)
  have h3 : RegsOnly s2 s3 := regsOnly_ite (regsOnly_latchErr _ _ _ _) (regsOnly_setBit _ _ _ _)
  have h4 : RegsOnly s3 s4 := regsOnly_ite (regsOnly_setBit _ _ _ _) (RegsOnly.rfl' _)
  refine ⟨s4, if_pos hc, ?_, fun r => ?_⟩
  · rw [← h1, ← h2]
    exact h3.trans' h4
  · have hr3 : reg s3 (frRp r) 0 = reg s2 (frRp r) 0 :=
      reg_ite (reg_latchErr_ne _ _ _ _ (by decide) (by decide)) (reg_setFld_ne _ _ _ _ (regKey_ne_of_off (by decide) (by decide) (by decide)))
    have hne : regKey (frRp r) 0 ≠ regKey frFlt 0 := by
      intro hk
      have hf := (regKey_inj (by decide) (by decide) hk).1
      unfold frRp frFlt at hf
      omega
    have hr4 : reg s4 (frRp r) 0 = reg s3 (frRp r) 0 := reg_ite (reg_setFld_ne _ _ _ _ hne) rfl
    unfold fbit
    rw [hr4, hr3, h2, h1]

/-- Settles O49: the error is latched with registers alone (`logErr_ucp`), then the ports are fenced and the harts stopped. -/
theorem packageFatalStops : Obligations.PackageFatalStops := by
  unfold Obligations.PackageFatalStops
  refine ⟨?fences, ?harts, ?alert⟩
  case fences =>
    intro e s t h ht
    obtain ⟨u, hu, honly, hpair⟩ := logErr_ucp s h
    rw [ht, hu, ucpResponse_eq]
    refine ⟨fbit_ucpFenced_ucp u, ?_, ?_, fun d hd => ucpFenced_die u hd, fun r hr hp => ucpFenced_rp u hr ((hpair r).trans hp)⟩
    · rw [ucpFenced_frame, show u = { s with regs := u.regs } from honly]
    · rw [ucpFenced_frame, show u = { s with regs := u.regs } from honly]
  case harts =>
    intro e s t n h ht
    obtain ⟨u, hu, honly, -⟩ := logErr_ucp s h
    have hhart : hart u n = hart s n := by
      rw [show u = { s with regs := u.regs } from honly]
      rfl
    rw [ht, hu, hart_ucpResponse, hartStopped_st, hhart]
  case alert =>
    intro s hup hucp
    show (s.pins.everUp && (s.pins.fatal || fbit s frFlt 0 0)) = true
    rw [hup, hucp, Bool.or_true]
    rfl

end Sys2Proof.Machine
end

section
/-! PROOF. What a home's slab table says to a coherent request (R156, R268). -/

namespace Sys2Proof.Machine

section
variable {n pa part : Nat} {s : State}

/-- With no update in flight every copy of the slab table is the table. -/
theorem slabCopy_no_update (h : s.slabOld = []) (a n : Nat) : slabCopy a n s = (slabEnt s n, s) := by
  unfold slabCopy
  rw [h]
  rfl

theorem slabCheck_above_top (h : memTop ≤ pa) : slabCheck n pa part s = (some cVACANT, s) := if_pos h

theorem slabCheck_vacant (hpa : pa < memTop) (hold : s.slabOld = []) (hst : slState (slabEnt s (slabOf pa)) = slVACANT) :
    slabCheck n pa part s = (some cVACANT, s) := by
  unfold slabCheck
  simp only [slabCopy_no_update hold, if_neg (Nat.not_le.mpr hpa), if_pos hst]

/-- The column of the address is outside the devices. -/
theorem slabCheck_bad_column (hpa : pa < memTop) (hold : s.slabOld = []) (hst : slState (slabEnt s (slabOf pa)) ≠ slVACANT)
    (hcol : colBad s (slabEnt s (colSlab pa (slLw (slabEnt s (slabOf pa))))) = true) : slabCheck n pa part s = (some cVACANT, s) := by
  unfold slabCheck
  simp only [slabCopy_no_update hold, if_neg (Nat.not_le.mpr hpa), if_neg hst, if_pos hcol]

/-- The owner of the slab, and PART 15, are served; another PART is refused. -/
theorem slabCheck_owner (hpa : pa < memTop) (hold : s.slabOld = []) (hst : slState (slabEnt s (slabOf pa)) ≠ slVACANT)
    (hcol : colBad s (slabEnt s (colSlab pa (slLw (slabEnt s (slabOf pa))))) = false) :
    slabCheck n pa part s = (if part = 15 ∨ (slState (slabEnt s (slabOf pa)) = slOWNED ∧ slOwner (slabEnt s (slabOf pa)) = part) then none
      else some cPARTITION, s) := by
  unfold slabCheck
  simp only [slabCopy_no_update hold, if_neg (Nat.not_le.mpr hpa), if_neg hst, hcol, Bool.false_eq_true, if_false]
  by_cases h15 : part = 15
  · rw [if_pos h15, if_pos (.inl h15)]
  · rw [if_neg h15]
    by_cases how : slState (slabEnt s (slabOf pa)) = slOWNED ∧ slOwner (slabEnt s (slabOf pa)) = part
    · rw [if_pos how, if_pos (.inr how)]
    · rw [if_neg how, if_neg (fun h => h.elim h15 how)]

end

section
variable {n cause : Nat} {f : Flit} {s : State}

/-- The record of a refused request: a UCR in the home's bank (R268). -/
def slabErr (n cause : Nat) (f : Flit) : Err := { flitErr (frHa n) 0x03 false f with info := cause }

theorem homeTake_refuses (hoff : domainOff s n f = false) (hs : slabCheck n f.addr f.part s = (some cause, s)) :
    homeTake n f s = logErr (slabErr n cause f) (homeFault n cause f s) := by
  unfold homeTake
  simp only [hoff, hs]
  rfl

/-- A refusal is one flit. -/
theorem homeFault_wires (n cause : Nat) (f : Flit) (s : State) : (homeFault n cause f s).wires = s.wires ++ [faultRsp (haAgent n) cause f] := rfl

/-- A refusal leaves the bank of the home. -/
theorem fld_homeFault_count (n cause : Nat) (f : Flit) (s : State) (lo w : Nat) :
    fld (homeFault n cause f s) (frHa n) 0x528 lo w = fld s (frHa n) 0x528 lo w := by
  have hreg : reg (homeFault n cause f s) (frHa n) 0x528 = reg s (frHa n) 0x528 := reg_setReg_ne s _ (regKey_ne_of_off (by decide) (by decide) (by decide))
  unfold fld
  rw [hreg]

end

/-- Settles O50: the slab table's answers one by one, then the Fault and the record of a refusal. -/
theorem homeRefusesForeignRequests : Obligations.HomeRefusesForeignRequests := by
  unfold Obligations.HomeRefusesForeignRequests
  refine ⟨fun n pa part s h => slabCheck_above_top h, fun n pa part s hpa hold hst => slabCheck_vacant hpa hold hst,
    fun n pa part s hpa hold hst hcol => slabCheck_bad_column hpa hold hst hcol, fun n pa part s hpa hold hst hcol => slabCheck_owner hpa hold hst hcol, ?refusal⟩
  case refusal =>
    intro n cause f s t hoff hs ht
    rw [ht, homeTake_refuses hoff hs]
    have hcls : (slabErr n cause f).cls < 3 := (by decide : (1 : Nat) < 3)
    have hclass : errClass (homeFault n cause f s) (slabErr n cause f) = 1 := rfl
    have hcount := fld_logErr_count (e := slabErr n cause f) (s := homeFault n cause f s) (by rw [hclass]; decide)
    rw [hclass] at hcount
    refine ⟨?_, logErr_mem hcls, logErr_homes hcls, ?_, fbit_logErr_valid (e := slabErr n cause f) (errClass_ne_three hcls)⟩
    · rw [logErr_wires hcls, homeFault_wires]
    · exact hcount.trans (by rw [show (slabErr n cause f).frame = frHa n from rfl, fld_homeFault_count])

end Sys2Proof.Machine
end

section
/-! PROOF. Regions spread over the homes and slices (R89, R124). -/

namespace Sys2Proof.Machine

/-- What the bits of a region number above its lowest five contribute to its home. -/
def upperHash (r : Nat) : Nat := (List.range 7).foldl (fun h i => h ^^^ (r / 2 ^ (5 * i) % 32)) 0

/-- A fold of exclusive ors begins with its start value. -/
theorem foldl_xor {α : Type} (g : α → Nat) (l : List α) : ∀ a, l.foldl (fun h i => h ^^^ g i) a = a ^^^ l.foldl (fun h i => h ^^^ g i) 0 := by
  induction l with
  | nil => exact fun a => (Nat.xor_zero a).symm
  | cons i l ih =>
    intro a
    rw [List.foldl_cons, List.foldl_cons, ih (a ^^^ g i), ih (0 ^^^ g i), Nat.zero_xor, Nat.xor_assoc]

theorem homeOf_eq (g : Nat) : homeOf g = g % 32 ^^^ upperHash (g / 32) := by
  have hdiv (i : Nat) : g / 2 ^ (5 * (i + 1)) = g / 32 / 2 ^ (5 * i) := by
    rw [Nat.div_div_eq_div_mul, Nat.mul_add, Nat.pow_add, Nat.mul_comm]
  have hlow : 0 ^^^ g / 2 ^ (5 * 0) % 32 = g % 32 := by rw [Nat.zero_xor, Nat.mul_zero, Nat.pow_zero, Nat.div_one]
  unfold homeOf upperHash
  rw [List.range_succ_eq_map, List.foldl_cons, hlow, List.foldl_map, foldl_xor]
  simp only [Nat.succ_eq_add_one, hdiv]

theorem foldl_xor_lt {α : Type} {g : α → Nat} {k : Nat} (hg : ∀ i, g i < 2 ^ k) (l : List α) : ∀ a, a < 2 ^ k → l.foldl (fun h i => h ^^^ g i) a < 2 ^ k := by
  induction l with
  | nil => exact fun a ha => ha
  | cons i l ih => exact fun a ha => ih _ (Nat.xor_lt_two_pow ha (hg i))

theorem homeOf_lt (g : Nat) : homeOf g < 32 :=
  foldl_xor_lt (k := 5) (fun _ => Nat.mod_lt _ (by decide)) _ 0 (by decide)

theorem sliceOf_lt (g : Nat) : sliceOf g < 24 := Nat.mod_lt _ (by decide)

/-- Settles O55: the lowest five bits enter the home by an exclusive or with what the others give. -/
theorem homesShareTheRegions : Obligations.HomesShareTheRegions := by
  refine ⟨fun g => ⟨homeOf_lt g, sliceOf_lt g⟩, fun g j hup hhome => ?_⟩
  rw [homeOf_eq, homeOf_eq, hup] at hhome
  have hlow : g % 32 = j % 32 := nat_xor_right_cancel hhome
  rw [← Nat.div_add_mod g 32, ← Nat.div_add_mod j 32, hup, hlow]

end Sys2Proof.Machine
end

section
/-! PROOF. When the Cox refuses a message (R328, R329). -/

namespace Sys2Proof.Machine

/-! ### The interrupt of a queue -/

/-- A change that leaves everything but the wires and the registers, and of the registers those of one offset. -/
structure LeavesReg (a : Nat) (s t : State) : Prop where
  frame : t = { s with wires := t.wires, regs := t.regs }
  reg : ∀ g, reg t g a = reg s g a

theorem LeavesReg.refl (a : Nat) (s : State) : LeavesReg a s s := ⟨rfl, fun _ => rfl⟩

theorem LeavesReg.trans {a : Nat} {s t u : State} (h : LeavesReg a s t) (k : LeavesReg a t u) : LeavesReg a s u where
  frame := by rw [k.frame, h.frame]
  reg g := (k.reg g).trans (h.reg g)

theorem leavesReg_send (a : Nat) (f : Flit) (s : State) : LeavesReg a s (send f s) := ⟨rfl, fun _ => rfl⟩

theorem leavesReg_setFld {a off : Nat} (f lo w v : Nat) (s : State) (ha : a < 65536) (hoff : off < 65536) (h : a ≠ off) : LeavesReg a s (setFld f off lo w v s) :=
  ⟨rfl, fun _ => reg_setFld_ne s _ _ _ (regKey_ne_of_off ha hoff h)⟩

/-- The interrupt of a queue leaves every register but its own and the partition's status. -/
theorem leavesReg_queueMsi {a off : Nat} (p fr : Nat) (m : Bool) (s : State) (ha : a < 65536) (hoff : off < 65536) (h0 : a ≠ 0) (h : a ≠ off) :
    LeavesReg a s (queueMsi p fr off m s) := by
  unfold queueMsi
  split
  · exact .refl a s
  · dsimp only
    split
    · exact leavesReg_send a _ s
    · exact (leavesReg_setFld _ _ _ _ s ha hoff h).trans (leavesReg_setFld _ _ _ _ _ ha (by decide) h0)

/-! ### A message -/

section
variable {f : Flit} {s : State}

/-- The result of a message, in the order of R329's list (log entry 92): 1 DENIED, 2 DOWN, 3 FULL, 0 delivered. -/
def mailRes (f : Flit) (s : State) : Nat :=
  if bit (s.mailMx.getD f.part 0) (f.addr % 16) = false ∨ 12 ≤ f.addr % 16 then 1
  else if (part s (f.addr % 16)).st ≠ .running then 2
  else if 32 ≤ (mbxOf s (f.addr % 16)).length then 3 else 0

/-- The sender has its answer: the acknowledgement, and the result in `MBX_TXSTAT` with BUSY clear. -/
def mailAnswered (f : Flit) (s : State) : State := setFld (frMail f.part) 0x048 0 4 (2 * mailRes f s) (send (rsp oIoComp f.dst f.src f.txn f) s)

theorem mailTake_eq (hp : f.part < 12) :
    mailTake f s = if mailRes f s = 0 then mbxPut (f.addr % 16) { src := f.part, data := f.data } (mailAnswered f s) else mailAnswered f s :=
  if_neg (Nat.not_le.mpr hp)

theorem mailRes_lt (f : Flit) (s : State) : mailRes f s < 4 := by
  unfold mailRes
  split
  · decide
  · split
    · decide
    · split <;> decide

theorem mailRes_denied (h : 12 ≤ f.addr % 16 ∨ bit (s.mailMx.getD f.part 0) (f.addr % 16) = false) : mailRes f s = 1 := if_pos h.symm

/-- The matrix allows the message. -/
theorem mail_not_denied (hq : f.addr % 16 < 12) (hm : bit (s.mailMx.getD f.part 0) (f.addr % 16) = true) :
    ¬ (bit (s.mailMx.getD f.part 0) (f.addr % 16) = false ∨ 12 ≤ f.addr % 16) :=
  fun h => h.elim (fun h => Bool.false_ne_true (h.symm.trans hm)) (Nat.not_le.mpr hq)

theorem mailRes_down (hq : f.addr % 16 < 12) (hm : bit (s.mailMx.getD f.part 0) (f.addr % 16) = true) (hst : (part s (f.addr % 16)).st ≠ .running) :
    mailRes f s = 2 := (if_neg (mail_not_denied hq hm)).trans (if_pos hst)

theorem mailRes_full (hq : f.addr % 16 < 12) (hm : bit (s.mailMx.getD f.part 0) (f.addr % 16) = true) (hst : (part s (f.addr % 16)).st = .running)
    (hlen : 32 ≤ (mbxOf s (f.addr % 16)).length) : mailRes f s = 3 :=
  (if_neg (mail_not_denied hq hm)).trans ((if_neg (fun h => h hst)).trans (if_pos hlen))

theorem mailRes_delivered (hq : f.addr % 16 < 12) (hm : bit (s.mailMx.getD f.part 0) (f.addr % 16) = true) (hst : (part s (f.addr % 16)).st = .running)
    (hlen : (mbxOf s (f.addr % 16)).length < 32) : mailRes f s = 0 :=
  (if_neg (mail_not_denied hq hm)).trans ((if_neg (fun h => h hst)).trans (if_neg (Nat.not_le.mpr hlen)))

/-! ### What the sender and the receiver see -/

theorem mailAnswered_busy : fbit (mailAnswered f s) (frMail f.part) 0x048 0 = false := by
  have hlt := mailRes_lt f s
  unfold mailAnswered
  rw [fbit_setFld _ _ _ _ (by decide), if_pos (by decide), Nat.testBit_eq_decide_div_mod_eq, decide_eq_false_iff_not]
  omega

theorem mailAnswered_result : fld (mailAnswered f s) (frMail f.part) 0x048 1 3 = mailRes f s := by
  have hlt := mailRes_lt f s
  unfold mailAnswered fld
  rw [reg_setFld_self, BitVec.toNat_ofNat, Nat.mod_eq_of_lt (setBits_lt (BitVec.isLt _) (by decide)), bits_setBits_sub _ _ _ _ _ _ (by decide),
    bits_eq_div_mod]
  omega

/-- A message that enters a queue leaves the registers but the queue's own, memory and the partitions. -/
theorem mbxPut_queues (p : Nat) (m : Mbx) (s : State) :
    mbxOf (mbxPut p m s) p = mbxOf s p ++ [m] ∧ (mbxPut p m s).mem = s.mem ∧ (mbxPut p m s).parts = s.parts ∧
      ∀ g, reg (mbxPut p m s) g 0x048 = reg s g 0x048 := by
  have hput : LeavesReg 0x048 { s with mbx := mset s.mbx p (mbxOf s p ++ [m]) } (mbxPut p m s) := by
    unfold mbxPut
    dsimp only
    split
    · exact leavesReg_queueMsi _ _ _ _ (by decide) (by decide) (by decide) (by decide)
    · exact .refl _ _
  refine ⟨?_, ?_, ?_, hput.reg⟩
  · rw [hput.frame]
    exact mget_mset_self _ _ _
  · rw [hput.frame]
  · rw [hput.frame]

/-- A message that is refused is not queued. -/
theorem mailTake_refused (hp : f.part < 12) (h : mailRes f s ≠ 0) : mailTake f s = mailAnswered f s := (mailTake_eq hp).trans (if_neg h)

theorem mailTake_delivered (hp : f.part < 12) (h : mailRes f s = 0) :
    mailTake f s = mbxPut (f.addr % 16) { src := f.part, data := f.data } (mailAnswered f s) := (mailTake_eq hp).trans (if_pos h)

/-- Whatever the result, the sender's status shows it, and memory and the partitions stay as they are. -/
theorem mailTake_answers (hp : f.part < 12) :
    fbit (mailTake f s) (frMail f.part) 0x048 0 = false ∧ (mailTake f s).mem = s.mem ∧ (mailTake f s).parts = s.parts ∧
      fld (mailTake f s) (frMail f.part) 0x048 1 3 = mailRes f s := by
  by_cases h : mailRes f s = 0
  · obtain ⟨-, hmem, hparts, hreg⟩ := mbxPut_queues (f.addr % 16) { src := f.part, data := f.data } (mailAnswered f s)
    rw [mailTake_delivered hp h]
    refine ⟨?_, hmem, hparts, ?_⟩
    · unfold fbit
      rw [hreg]
      exact mailAnswered_busy
    · unfold fld
      rw [hreg]
      exact mailAnswered_result
  · rw [mailTake_refused hp h]
    exact ⟨mailAnswered_busy, rfl, rfl, mailAnswered_result⟩

/-- A refused message leaves every queue. -/
theorem mailTake_refused_as {n : Nat} (hp : f.part < 12) (hres : mailRes f s = n) (hn : n ≠ 0) :
    fld (mailTake f s) (frMail f.part) 0x048 1 3 = n ∧ (mailTake f s).mbx = s.mbx := by
  refine ⟨(mailTake_answers hp).2.2.2.trans hres, ?_⟩
  rw [mailTake_refused hp (by rw [hres]; exact hn)]
  rfl

theorem mailTake_queued (hp : f.part < 12) (hres : mailRes f s = 0) :
    fld (mailTake f s) (frMail f.part) 0x048 1 3 = 0 ∧
      mbxOf (mailTake f s) (f.addr % 16) = mbxOf s (f.addr % 16) ++ [{ src := f.part, data := f.data }] := by
  refine ⟨(mailTake_answers hp).2.2.2.trans hres, ?_⟩
  rw [mailTake_delivered hp hres]
  exact (mbxPut_queues ..).1

end

/-- Settles O56: the result is `mailRes`, whose branches are the four cases. -/
theorem mailIsRefusedInOrder : Obligations.MailIsRefusedInOrder := by
  intro f s t hp ht
  subst ht
  obtain ⟨hbusy, hmem, hparts, -⟩ := mailTake_answers (s := s) hp
  exact ⟨hbusy, hmem, hparts, fun h => mailTake_refused_as hp (mailRes_denied h) (by decide),
    fun hq hm hst => mailTake_refused_as hp (mailRes_down hq hm hst) (by decide),
    fun hq hm hst hlen => mailTake_refused_as hp (mailRes_full hq hm hst hlen) (by decide),
    fun hq hm hst hlen => mailTake_queued hp (mailRes_delivered hq hm hst hlen)⟩

end Sys2Proof.Machine
end

section
/-! PROOF. A root port that no partition owns (R338, R352). -/

namespace Sys2Proof.Machine

/-- A port whose link is up, and that belongs to no partition and to no unit of the package. -/
structure PortUnowned (s : State) (r l : Nat) : Prop where
  up : linkUp s r l = true
  pair : rpPair s r = false
  bh : bhPort s r = false
  part : rpPart s r = 15

section
variable {t : Tlp} {s : State}

/-- Outside K3 a port has nothing to wake. -/
theorem k3Wake_awake (h : s.card.k3 = false) : k3Wake s = s := if_neg (by rw [h]; decide)

/-- The gate of an unowned port refuses with a record for no partition (log entry 45). -/
theorem PortUnowned.rpGate_eq {r l : Nat} (h : PortUnowned s r l) (proxy : Bool) : rpGate s r l proxy = some (some (0x05, 15)) := by
  unfold rpGate
  rw [if_neg (by rw [h.up, h.pair]; decide), if_neg (by rw [h.bh]; decide), if_pos h.part]

/-- The record of the refusal: a UCR in the port's bank (R338). -/
def unownedErr (t : Tlp) (s : State) : Err := { rpErr s t.rp 0x05 false (some t.addr) with part := 15, fpart := 15 }

theorem tlpUr_read (t : Tlp) (s : State) : tlpUr t 0x05 15 false s = devSend t.rp (.cpl t.link t.tag false false 0) (logErr (unownedErr t s) s) := by
  unfold tlpUr unownedErr
  rw [if_neg Bool.false_ne_true]

theorem tlpUr_write (t : Tlp) (s : State) : tlpUr t 0x05 15 true s = logErr (unownedErr t s) s := by
  unfold tlpUr unownedErr
  rw [if_pos rfl]

theorem dmaRead_unowned (h : PortUnowned s t.rp t.link) :
    dmaRead t s = devSend t.rp (.cpl t.link t.tag false false 0) (logErr (unownedErr t s) s) := by
  unfold dmaRead
  simp only [h.rpGate_eq]
  exact tlpUr_read t s

theorem dmaWrite_unowned (h : PortUnowned s t.rp t.link) : dmaWrite t s = logErr (unownedErr t s) s := by
  unfold dmaWrite
  simp only [h.rpGate_eq]
  exact tlpUr_write t s

theorem exec_dmaRead_unowned (hl : Live s) (hr : t.rp < 12) (hk : s.card.k3 = false) (h : PortUnowned s t.rp t.link) :
    exec (.dmaRead t) s = .next (after (devSend t.rp (.cpl t.link t.tag false false 0) (logErr (unownedErr t s) s))) := by
  unfold exec
  exact (portAct_live hl hr).trans (by rw [k3Wake_awake hk, dmaRead_unowned h])

theorem exec_dmaWrite_unowned (hl : Live s) (hr : t.rp < 12) (hk : s.card.k3 = false) (h : PortUnowned s t.rp t.link) :
    exec (.dmaWrite t) s = .next (after (logErr (unownedErr t s) s)) := by
  unfold exec
  exact (portAct_live hl hr).trans (by rw [k3Wake_awake hk, dmaWrite_unowned h])

theorem unownedErr_cls (t : Tlp) (s : State) : (unownedErr t s).cls < 3 := (by decide : (1 : Nat) < 3)

/-- What a refusal leaves: memory, the wires, the homes and an idle Cox; and the record stands in the port's bank. -/
structure Refused (r : Nat) (s v : State) : Prop where
  idle : CoxIdle v
  mem : v.mem = s.mem
  wires : v.wires = s.wires
  homes : v.homes = s.homes
  record : fbit v (frRp r) 0x500 0 = true

theorem refused_logErr (hc : CoxIdle s) : Refused t.rp s (logErr (unownedErr t s) s) where
  idle := by
    rw [CoxIdle, logErr_cox (unownedErr_cls t s)]
    exact hc
  mem := logErr_mem (unownedErr_cls t s)
  wires := logErr_wires (unownedErr_cls t s)
  homes := logErr_homes (unownedErr_cls t s)
  record := fbit_logErr_valid (e := unownedErr t s) (errClass_ne_three (unownedErr_cls t s))

/-- The answer to the device is not on the wires. -/
theorem Refused.devSend {r : Nat} {v : State} (h : Refused r s v) (m : DevMsg) : Refused r s (devSend r m v) :=
  ⟨h.idle, h.mem, h.wires, h.homes, h.record⟩

theorem Refused.after {r : Nat} {v : State} (h : Refused r s v) :
    (after v).mem = s.mem ∧ (after v).wires = s.wires ∧ (after v).homes = s.homes ∧ fbit (after v) (frRp r) 0x500 0 = true := by
  rw [after_idle h.idle, settle_mem, settle_wires, settle_homes, fbit_settle]
  exact ⟨h.mem, h.wires, h.homes, h.record⟩

end

/-- Settles O57: the gate of an unowned port answers before anything else is looked at. -/
theorem unownedPortsRefuse : Obligations.UnownedPortsRefuse := by
  unfold Obligations.UnownedPortsRefuse
  refine ⟨?answers, ?leaves⟩
  case answers =>
    intro t s hl hr hk hup hpair hbh hpart
    have h : PortUnowned s t.rp t.link := ⟨hup, hpair, hbh, hpart⟩
    exact ⟨exec_dmaRead_unowned hl hr hk h, exec_dmaWrite_unowned hl hr hk h⟩
  case leaves =>
    intro t s u hl hc hr hk hup hpair hbh hpart hu
    have h : PortUnowned s t.rp t.link := ⟨hup, hpair, hbh, hpart⟩
    rcases hu with hread | hwrite
    · cases (exec_dmaRead_unowned hl hr hk h).symm.trans hread
      exact ((refused_logErr hc).devSend _).after
    · cases (exec_dmaWrite_unowned hl hr hk h).symm.trans hwrite
      exact (refused_logErr hc).after

end Sys2Proof.Machine
end
